-- ==== Sys2Proof/Word.lean ====
section
/-! DEFINITION. The word types of Phijo-1024: bytes, control-register words, 64-byte granules (R7, R15, R38). -/

namespace Sys2Proof

/-- One byte of P-space. -/
abbrev Byte := BitVec 8

/-- One control register word (R15: control registers are 32 bits wide). -/
abbrev Word := BitVec 32

/-- One 64-byte granule, the data bits of one bank row; byte 0 stands in bits [7:0] (R7, R38). -/
abbrev Row := BitVec 512

end Sys2Proof
end

