-- ==== Sys2Proof/Syntax.lean ====
section
/-! DEFINITION. The commands Phijo-1024 takes: one constructor of `Instr` for each row of spec/opcode_table.json,
with the operands the row's chapter gives it. -/

namespace Sys2Proof

/-- Who makes a register access (R525, R526): the processor AxID[5:1] names, AxPROT[0], the view the address lies in,
or the Steward, the control matrix's other manager; AxID[0]. -/
structure Who where
  proc    : Nat
  prot    : Bool
  priv    : Bool
  steward : Bool
  alt     : Bool
  deriving DecidableEq, Repr, Inhabited

/-- The burst type of an access of the management port (R163). -/
inductive BurstKind where
  | fixed
  | incr
  | wrap
  deriving DecidableEq, Repr, Inhabited

/-- The form of an access of the management port (R163, R168): burst type, AxSIZE 0b011 rather than 0b010, an atomic transaction, an
exclusive access. -/
structure AxiForm where
  kind   : BurstKind
  wide   : Bool
  atomic : Bool
  excl   : Bool
  deriving DecidableEq, Repr, Inhabited

/-- The address channel of a write of the management port: the address of its first beat and its form (R163). -/
structure AxiAddr where
  addr : Nat
  form : AxiForm
  deriving DecidableEq, Repr, Inhabited

/-- The address channel of a read of the management port: the address of its first beat, its form, and how many beats it asks for
(R163). -/
structure AxiRead where
  addr  : Nat
  form  : AxiForm
  beats : Nat
  deriving DecidableEq, Repr, Inhabited

/-- A write beat of the management port: WDATA and WSTRB (R163, R168). -/
structure MgmtBeat where
  data : BitVec 64
  strb : BitVec 8
  deriving DecidableEq, Repr, Inhabited

/-- Direction of a lane, a queue or a lottery (R123). -/
inductive Dir where
  | rd
  | wr
  deriving DecidableEq, Repr, Inhabited

/-- One descriptor of a slot-port request (R150, R151): its valid bit, address bits [29:6] as a granule address, the
granules (the gcnt field plus 1), the half, and for a write the eight granules of the descriptor's bus place. -/
structure Desc where
  valid : Bool
  gaddr : Nat
  gcnt  : Nat
  half  : Bool
  data  : List Row
  deriving DecidableEq, Repr, Inhabited

/-- A scalar port request (R156, scalar port signals). `size` is 1, 2, 4 or 8 bytes. -/
structure ScalarReq where
  we    : Bool
  addr  : Nat
  size  : Nat
  tag   : Nat
  wdata : BitVec 64
  deriving DecidableEq, Repr, Inhabited

/-- A link packet header (R169). -/
structure Header where
  type     : Nat
  link     : Nat
  window   : Nat
  epoch    : Nat
  passport : Nat
  offset   : Nat
  len      : Nat
  seq      : Nat
  reason   : Nat
  digest   : Word
  deriving DecidableEq, Repr, Inhabited

/-- The response of an AXI beat or write response (R167). -/
inductive AxiResp where
  | okay
  | slverr
  | decerr
  | poison
  | parity
  deriving DecidableEq, Repr, Inhabited

/-- A master with a reset of its own (R175): port group, porter or link port. -/
inductive Master where
  | pg (g : Nat)
  | pt (p : Nat)
  | lk (l : Nat)
  deriving DecidableEq, Repr, Inhabited

/-- The register of a window entry that a write names (R442). -/
inductive WinField where
  | cfg
  | map
  | size
  deriving DecidableEq, Repr, Inhabited

/-- Where continuous parity checking finds an error (R464: WHEEL_PAR, SECTOR_PAR, INTC_PAR, STW_PAR; XB_PAR in the crossbar's
return path of a column, met by the read stripes there, R465). -/
inductive ParitySite where
  | column (c : Nat)
  | crossbar (c : Nat)
  | sector
  | intc
  | steward
  deriving DecidableEq, Repr, Inhabited

/-- The commands, one for each row of spec/opcode_table.json, in the table's order. -/
inductive Instr where
  | lowWordRead (w : Who) (addr : AxiRead)
  | registerWrite (w : Who) (addr : AxiAddr) (v : List MgmtBeat)
  | defaultTarget (w : Who) (addr : Nat) (write : Bool)
  | slotReadRequest (x : Nat) (ds : List Desc) (fmt : Nat) (last : Bool)
  | slotWriteRequest (x : Nat) (ds : List Desc) (fmt : Nat) (tly last : Bool)
  | readDelivery (x : Nat)
  | writeResponse (x : Nat)
  | stripeCommit (c : Nat)
  | deferralDrain (c t : Nat)
  | thermalSkip
  | slotSkip
  | skipCtrlWrite (w : Who) (v : Word)
  | wheelSwGo (w : Who)
  | wheelExchange
  | confClr (w : Who) (m : Nat)
  | confClrAll (w : Who)
  | lotteryDraw (c : Nat) (d : Dir)
  | longRoadGrant (c : Nat) (d : Dir)
  | openLaneIssue (c : Nat) (d : Dir)
  | starvationFlag (c : Nat) (d : Dir) (r : Nat)
  | narrowWriteMerge (c : Nat)
  | scalarRequest (g : Nat) (q : ScalarReq)
  | scalarResponse (g : Nat)
  | portDisable (w : Who) (g : Nat) (v : Word)
  | portEnable (w : Who) (g : Nat) (v : Word)
  | axiReadData (p id : Nat) (r : AxiResp) (data : List Row) (last : Bool)
  | axiWriteResponse (p id : Nat) (r : AxiResp)
  | inboundWrite (l : Nat) (h : Header)
  | inboundFlit (l : Nat) (data : List Row)
  | malformedHeader (l : Nat) (h : Header)
  | strayFlit (l : Nat)
  | creditReturn (l hdr dat : Nat)
  | outboundPacketSend (l : Nat)
  | ack (l : Nat) (h : Header)
  | nack (l : Nat) (h : Header)
  | openReq (l : Nat) (h : Header)
  | openRsp (l : Nat) (h : Header)
  | closeReq (l : Nat) (h : Header)
  | closeRsp (l : Nat) (h : Header)
  | portGroupReset (g : Nat)
  | pgRstCmd (w : Who) (g : Nat)
  | porterReset (p : Nat)
  | ppRstCmd (w : Who) (p : Nat)
  | linkPortReset (l : Nat)
  | lpRstCmd (w : Who) (l : Nat)
  | resetComplete (m : Master)
  | reclaimTimeout (p : Nat)
  | resetLineRelease (m : Master)
  | satchelRead (x : Nat) (slots : List (Bool × Nat)) (fmt : Nat)
  | satchelStallEnd (x : Nat)
  | satchelStallLimit (x : Nat)
  | swapCommand (x : Nat)
  | exchange (x : Nat)
  | swapModeWrite (w : Who) (x : Nat) (v : Word)
  | stallClr (w : Who) (x k : Nat)
  | stallClrAll (w : Who) (x : Nat)
  | fsLaunch (w : Who) (x start task : Nat)
  | fillIssue (x : Nat)
  | fillLand (x : Nat)
  | caravanHop (x : Nat)
  | escapeRetry (x : Nat)
  | itineraryFetch (a : Nat)
  | end_ (a k : Nat) (w : Word)
  | setaLo (a k : Nat) (w : Word)
  | setaHi (a k : Nat) (w : Word)
  | setaTop (a k : Nat) (w : Word)
  | adda (a k : Nat) (w : Word)
  | moda (a k : Nat) (w : Word)
  | loop (a k : Nat) (w : Word)
  | endl (a k : Nat) (w : Word)
  | test (a k : Nat) (w : Word)
  | move (a k : Nat) (w : Word)
  | pieceGenerate (a k : Nat)
  | wait (a k : Nat) (w : Word)
  | ring (a k : Nat) (w : Word)
  | fence (a k : Nat) (w : Word)
  | fenceComplete (a k : Nat)
  | swap (a k : Nat) (w : Word)
  | fmt (a k : Nat) (w : Word)
  | taly (a k : Nat) (w : Word)
  | hand (a k : Nat) (w : Word)
  | cpya (a k : Nat) (w : Word)
  | runEnd (a k : Nat)
  | pieceReadHalf (p : Nat)
  | pieceReadComplete (a sq : Nat)
  | pieceWriteHalf (p : Nat)
  | tallyExportRead (a sq : Nat)
  | splitWrite (w : Who) (p : Nat) (v : Word)
  | arm (w : Who) (p k : Nat)
  | crdret (w : Who) (p k n : Nat)
  | fchSelWrite (w : Who) (v : Word)
  | farChannelHold (mask : BitVec 64)
  | farHoldLimit (c : Nat)
  | taskAbort (task : Nat)
  | abortDone (task : Nat)
  | softwareAbort (w : Who) (task : Nat)
  | abortRecordClear (w : Who) (i : Nat)
  | pmapSwap (w : Who) (s : Nat)
  | pmapCopy (w : Who) (s : Nat)
  | pmapClear (w : Who) (s : Nat)
  | pmapOpReserved (w : Who) (s : Nat)
  | pmapOpDone
  | inactWrite (w : Who) (s i : Nat) (v : Word)
  | epochWaitLimit (a k : Nat)
  | srSeedWrite (w : Who) (x : Nat) (v : Word)
  | changerCntClr (w : Who) (x : Nat)
  | tallyRecordWrite (x : Nat)
  | tallyRead (g : Nat) (sel : Bool) (idx : Nat)
  | tallyCntClr (w : Who) (x : Nat)
  | bellRing (w : Who) (n : Nat) (b : Bool) (scope cnt : Nat)
  | bellTake (w : Who) (n : Nat) (b : Bool) (scope cnt : Nat)
  | bellInit (w : Who) (n : Nat) (b : Bool) (cnt : Nat)
  | tkresRead (w : Who) (t : Nat)
  | bellComplete
  | sboxDataWrite (w : Who) (i : Nat) (v : Word)
  | sboxSet (w : Who) (i : Nat) (v : Word)
  | sboxClr (w : Who) (i : Nat) (v : Word)
  | acq (w : Who) (i : Nat)
  | rel (w : Who) (i : Nat)
  | break_ (w : Who) (i : Nat)
  | peek (w : Who) (i : Nat)
  | sboxAccessComplete
  | reap (w : Who) (t : Nat)
  | mpReset (i : Nat)
  | reapSweepStep
  | keyWrite (w : Who) (j : Nat) (v : Word)
  | keyLock (w : Who)
  | tamper
  | lcStateChange (v : Nat)
  | wipeDone
  | windowEntryWrite (w : Who) (n : Nat) (f : WinField) (v : Word)
  | open_ (w : Who) (n : Nat)
  | close (w : Who) (n : Nat)
  | forceClose (w : Who) (n : Nat)
  | winOpReserved (w : Who) (n : Nat)
  | openReqRepeat (n : Nat)
  | openLimit (n : Nat)
  | ackTimeout (l sq link : Nat)
  | levelRise (c : Nat)
  | levelDecay (c : Nat)
  | rsvWrite (w : Who) (c : Nat) (v : Word)
  | trackerExpire (c : Nat)
  | force (w : Who) (n : Nat) (v : Word)
  | fuStatClear (w : Who) (n : Nat) (v : Word)
  | firstClear (w : Who) (n : Nat)
  | firstOvfClear (w : Who) (n : Nat)
  | ledgerClr (w : Who) (n : Nat)
  | ledgerCaptureRead (w : Who) (n i : Nat)
  | curfewExpiry (n : Nat)
  | escalation (n : Nat)
  | quarantineComplete (c : Nat)
  | errPulseEnd
  | errHoldWrite (w : Who) (hold : Bool)
  | quietPeriod (n : Nat)
  | selfPar (n : Nat)
  | stwWdog
  | safeCmd (w : Who)
  | safeStateEntry
  | interruptSelect
  | claim (w : Who) (t : Nat)
  | eoi (w : Who) (t src : Nat)
  | sgi (w : Who) (dest id : Nat)
  | setpend (w : Who) (i : Nat) (v : Word)
  | clrpend (w : Who) (i : Nat) (v : Word)
  | srcCfgWrite (w : Who) (s : Nat) (v : Word)
  | targetSleep (t : Nat) (level : Bool)
  | load (w : Who)
  | partial_ (w : Who)
  | cancel (w : Who)
  | cfgOpReserved (w : Who)
  | loadWord (w : Who) (v : Word)
  | imageCheckDone
  | applyDone
  | seal (w : Who)
  | regionWrite (w : Who) (n i : Nat) (v : Word)
  | scrubCtrlWrite (w : Who) (c : Nat) (v : Word)
  | scrubRequest (c : Nat)
  | scrubReadResult (c : Nat)
  | rowRemapRequest (w : Who) (c t b r : Nat)
  | bankRetirementRequest (w : Who) (c t b : Nat)
  | remapKindReserved (w : Who) (c : Nat)
  | remapStart (c : Nat)
  | copyRowMerged (c : Nat)
  | remapSwitch (c : Nat)
  | domainTargetWrite (w : Who) (d : Nat) (v : Word)
  | domainTransitionDone (d : Nat)
  | retain (w : Who)
  | wake (w : Who)
  | pwrOpReserved (w : Who)
  | retentionEntered
  | wakePin
  | retentionExitDone
  | coldReset
  | resetKindChange
  | coldResetRelease
  | selfTestComplete
  | warmReset
  | warmResetComplete
  | thermalSample (temps : List (BitVec 8))
  | tamperRelease
  | parityError (site : ParitySite)
  | stwMemUe
  | railLeavesTolerance
  deriving DecidableEq, Repr

end Sys2Proof
end

