-- ==== Sys2Proof/Config.lean ====
section
/-! DEFINITION. What Phijo-1024 leaves open: the free values. Each is a constant without a body, so nothing in Lean can
evaluate it and every statement about it holds whatever it is. -/

namespace Sys2Proof

/-- How a word with three or more flipped codeword bits reads (R39 leaves it open among these three). -/
inductive MultiFlip where
  | uncorrectable
  | miscorrected (x : BitVec 128)
  | clean
  deriving DecidableEq, Repr, Inhabited

/-- FREE VALUE (log entry 3): the outcome of reading a word whose flipped codeword bits are the mask, three or more of
them. `miscorrected x` delivers the flipped data XOR x and counts a corrected word; `clean` delivers the flipped data. -/
opaque Config.multiFlip : BitVec 136 → MultiFlip

/-- FREE VALUE (log entry 3): the check bits of a 128-bit word. The check matrix is internal to Phijo (R39); `checkBits` makes
of this what R39 and R40 say of it. -/
opaque Config.checkBits : BitVec 128 → BitVec 8

/-- FREE VALUE (log entry 4): a number of the Changer's that the spec does not state (an element of a KP block whose scale
rounds to 0, a NaN's payload, and the others the log lists). The first argument is all that the stored bytes may depend on under
R323, the second the place. -/
opaque Config.changerFree : List Nat → Nat → Nat

/-- FREE VALUE (log entry 4): what an element without a stated value expands to. The first argument is the free-value counter of the
state, the second the place. -/
opaque Config.expandFree : Nat → Nat → Nat

/-- FREE VALUE (log entry 4): the bits of a NaN that FP32 arithmetic gives in a Tally record; only a NaN pattern is used. -/
opaque Config.tallyNan : Word

/-- FREE VALUE (log entry 6): the granules a packet whose header has left carries in place of a stripe that could not be read.
The argument is the free-value counter of the state. -/
opaque Config.unread : Nat → Row

/-- FREE VALUE (log entry 10): the data a register access returns of a word whose error its code cannot correct. The argument is
the free-value counter of the state. -/
opaque Config.badWord : Nat → Word

/-- FREE VALUE (log entry 5): the reading of a temperature sensor at a sample whose operand list gives none for it. -/
opaque Config.sensor : Nat → Nat → BitVec 8

/-- FREE VALUE (log entry 9): the rows that fail the start-up self-test, as (column, tier, bank slot, row): bank slots 32 and 33
are the spare banks, rows 2048 on the spare rows. -/
opaque Config.selfTestFailures : List (Nat × Nat × Nat × Nat)

end Sys2Proof
end

