-- ==== Sys2Proof/Machine/Bits.lean ====
section
/-! DEFINITION. Bit fields of control words, saturating counts, sign extension and byte order (R5, R7, R12, R14). -/

namespace Sys2Proof

/-- Field [hi:lo] of a word, as a number (R5). -/
def fld (w : Word) (hi lo : Nat) : Nat := (w.toNat >>> lo) % 2 ^ (hi + 1 - lo)

/-- Bit `i` of a word. -/
def bitOf (w : Word) (i : Nat) : Bool := w.getLsbD i

/-- The word with field [hi:lo] set to `v`, other bits kept. -/
def setFld (w : Word) (hi lo v : Nat) : Word :=
  let m := (2 ^ (hi + 1 - lo) - 1) <<< lo
  (w &&& ~~~(BitVec.ofNat 32 m)) ||| BitVec.ofNat 32 ((v % 2 ^ (hi + 1 - lo)) <<< lo)

/-- The word with bit `i` set to `b`. -/
def setBit (w : Word) (i : Nat) (b : Bool) : Word := setFld w i i (if b then 1 else 0)

/-- A word made of one field. -/
def mkFld (v hi lo : Nat) : Word := setFld 0 hi lo v

/-- 0 or 1. -/
def b2n (b : Bool) : Nat := if b then 1 else 0

/-- Add `n` to a count that saturates at `top`. -/
def satAdd (top c n : Nat) : Nat := if top ≤ c + n then top else c + n

/-- Add `n` to the saturating count in field [hi:lo]. -/
def bumpFld (w : Word) (hi lo n : Nat) : Word :=
  setFld w hi lo (satAdd (2 ^ (hi + 1 - lo) - 1) (fld w hi lo) n)

/-- `n` bits two's complement as an integer. -/
def sext (bits v : Nat) : Int := if v % 2 ^ bits < 2 ^ (bits - 1) then (v % 2 ^ bits : Nat) else (v % 2 ^ bits : Nat) - (2 ^ bits : Nat)

/-- Byte `i` of a granule (R7: byte 0 in bits [7:0]). -/
def rowByte (r : Row) (i : Nat) : Byte := r.extractLsb' (8 * i) 8

/-- The bytes of a granule, byte 0 first. -/
def rowBytes (r : Row) : List Byte := (List.range 64).map (rowByte r)

/-- Bytes as one number, least significant first (R7). -/
def leNat : List Byte → Nat
  | [] => 0
  | b :: t => b.toNat + 256 * leNat t

/-- The granule of 64 bytes, byte 0 first. -/
def rowOf (bs : List Byte) : Row := BitVec.ofNat 512 (leNat (bs.take 64))

/-- `n` bytes of a number, least significant first (R7). -/
def natBytes : Nat → Nat → List Byte
  | 0, _ => []
  | n + 1, v => BitVec.ofNat 8 v :: natBytes n (v / 256)

/-- Overwrite bytes `off ..` of a granule (a narrow write's merge, R43). -/
def rowMerge (r : Row) (off : Nat) (bs : List Byte) : Row :=
  rowOf ((rowBytes r).take off ++ bs ++ (rowBytes r).drop (off + bs.length))

/-- 64-bit data word k (0 to 3) of 128 bits of a granule (R38: Wk holds row bytes 16k to 16k+15). -/
def rowWord (r : Row) (k : Nat) : BitVec 128 := r.extractLsb' (128 * k) 128

/-- The granule of its four 128-bit words. -/
def rowOfWords (w0 w1 w2 w3 : BitVec 128) : Row := (w3 ++ w2 ++ w1 ++ w0).setWidth 512

/-- The number of ones in the low `n` bits of `v`. -/
def popBits : Nat → Nat → Nat
  | 0, _ => 0
  | n + 1, v => v % 2 + popBits n (v / 2)

/-- One step of the 32-bit Fibonacci LFSR x^32 + x^22 + x^2 + x + 1 (R130). -/
def lfsrStep (s : Word) : Word :=
  (s <<< 1) ||| BitVec.ofNat 32 (b2n (bitOf s 31 ^^ bitOf s 21 ^^ bitOf s 1 ^^ bitOf s 0))

/-- The index of the (n+1)th set bit of a mask, counting from bit 0 (R72). -/
def nthSet (mask n : Nat) : Nat :=
  (((List.range 64).filter fun i => (mask >>> i) % 2 = 1)[n]?).getD 0

end Sys2Proof
end

