-- ==== Sys2Proof/Machine/RegMap.lean ====
section
/-! DEFINITION. The register map of control space (R12, R16, R564 to R566): every register family with its page offset,
index ranges, writable fields by access code and reset value, as the chapters' register tables give them. -/

namespace Sys2Proof.Machine

/-- The register families of the chapters' tables. -/
inductive RegId where
  | colStorStat
  | colRemapCmd
  | colRemapResult
  | colRmtSel
  | colRmtData
  | colScrubCtrl
  | colScrubPtr
  | colScrubPasses
  | colScrubLast
  | colTierCeCnt
  | colTierUeCnt
  | colTierSpare
  | colTierRowsFree
  | regionCtrl
  | regionPbase
  | regionXbase
  | regionRows
  | regionColmaskLo
  | regionColmaskHi
  | regionPerm
  | regionStat
  | colWheel
  | xbarWheelPos
  | xbarWheelSw
  | xbarSkipCtrl
  | xbarSkipStat
  | xbarSkipTherm
  | xbarSkipDrain
  | xbarConfClr
  | colDeferStat
  | colDeferCnt
  | colDrainReq
  | xbarConfRdLo
  | xbarConfRdHi
  | xbarConfWrLo
  | xbarConfWrHi
  | lotTicket
  | lotCtrl
  | lotStarveThr
  | lotStarveLo
  | lotStarveHi
  | lotStarveEnLo
  | lotStarveEnHi
  | lotStarveLast
  | lotSeed
  | colLotLfsr
  | colLotGrantsRd
  | colLotGrantsWr
  | colLotLr
  | colLotStale
  | colLotZero
  | colLotMaxwait
  | pgCtrl
  | pgStat
  | pgRstCmd
  | pgAborts
  | pgLastAbort
  | ppCtrl
  | ppStat
  | ppRstCmd
  | ppRspErr
  | lpCrdInit
  | lpCrdStat
  | lpRstCmd
  | lpStat
  | lpNacks
  | mgmtErr
  | satCtrl
  | satStat
  | satSwaps
  | satEcc
  | fsLaunch
  | fsStat
  | satStallClr
  | satStallLo
  | satStallHi
  | caravanCtrl
  | caravanWin
  | caravanStat
  | caravanRounds
  | itinWord
  | itinEcc
  | itinEccLast
  | itinFetches
  | itinFetchMaxwait
  | porterChDesc0
  | porterChDesc1
  | porterChDesc2
  | porterChDesc3
  | porterChArm
  | porterChStat
  | porterChCredit
  | porterChCrdret
  | porterChLimit
  | porterChPieces
  | porterChHold
  | porterChAct
  | porterChShd
  | porterSplit
  | porterReord
  | porterStat
  | porterOvf
  | fchSel
  | fchStat
  | fchOutLo
  | fchOutHi
  | fchHoldLo
  | fchHoldHi
  | fchHoldLim
  | tabtStat
  | tabtCmd
  | tabtRecInfo
  | tabtRecAgent
  | tabtRecDetail
  | tabtRecAddrLo
  | tabtRecAddrHi
  | tabtRecTime
  | tabtTaint
  | pmapCmd
  | pmapCmdResult
  | pmapCtrl
  | pmapStat
  | pmapEcc
  | pmapSlotStat
  | pmapSlotPins
  | pmapSlotEwait
  | pmapSlotFaults
  | pmapInactEnt
  | pmapActEnt
  | chgProfCtrl
  | chgProfGeom
  | chgProfFbase
  | chgProfEsc
  | chgAnxNext
  | chgAnxEnd
  | chgSrSeed
  | chgSrState
  | chgEscqStat
  | chgQBlocks
  | chgQSat
  | chgQFlush
  | chgQEsc
  | chgQRefused
  | chgQNan
  | chgQMaxerr
  | chgREsc
  | chgRRetry
  | chgRSat
  | chgSentCnt
  | chgSentLast
  | chgFmtFaults
  | chgCntClr
  | tallyCtrl
  | tallyCfg
  | tallyNext
  | tallyRows
  | tallyClamps
  | tallyParts
  | tallyIgnored
  | tallyEcc
  | tallyCntClr
  | tallyRecW
  | bellRdy
  | bellRdyLast
  | bellFree
  | bellFreeLast
  | bellRing
  | bellTake
  | bellInit
  | bellCtrl
  | bellMismatch
  | bellMmLast
  | bellOvf
  | bellEcc
  | bellTkres
  | bellWatch
  | sboxStat
  | sboxReap
  | sboxReapCnt
  | sboxLockErr
  | sboxEcc
  | sboxEccLast
  | sboxDenied
  | sboxSec
  | sboxWipes
  | sboxKey
  | winCfg
  | winMap
  | winSize
  | winStat
  | winCtrl
  | winCmd
  | winCmdResult
  | winDigest
  | winRejLast
  | winRejDigest
  | winRejEpoch
  | winOpens
  | winStray
  | winDrops
  | regCtrl
  | regStat
  | regEvent
  | regLevel
  | regMult
  | regCap
  | regRsvSum
  | regMissLast
  | regPassPg
  | regClassTarget
  | regClassLimit
  | regClassRsv
  | regClassMisses
  | regClassLat
  | regClassDone
  | fuStat
  | fuIe
  | fuEsc
  | fuForce
  | fuCtrl
  | fuCurfew
  | fuCurfewCnt
  | fuQuiet
  | fuRecov
  | fuState
  | fuFirst
  | fuFirstLoc
  | fuFirstDetail
  | fuFirstTime
  | fuLedgerStat
  | fuLedgerClr
  | fuEvents
  | fuWin
  | fuTrack
  | fuJudged
  | fuQhits
  | fuLedgerInfo
  | fuLedgerLoc
  | fuLedgerDetail
  | fuLedgerTime
  | fuGstat
  | fuSafeInfo
  | fuSafeTime
  | fuSafeCmd
  | fuErrHold
  | fuQuarLo
  | fuQuarHi
  | fuTstampLo
  | fuTstampHi
  | intcSrcCfg
  | intcPend
  | intcSetpend
  | intcClrpend
  | intcActive
  | intcLine
  | intcTgtCtrl
  | intcTgtClaim
  | intcTgtEoi
  | intcTgtRunning
  | intcTgtStat
  | intcSgi
  | intcErr
  | cfgStat
  | cfgCmd
  | cfgResult
  | cfgSeal
  | cfgImage
  | cfgLoads
  | cfgRx
  | cfgLoad
  | cmUvTask
  | cmUvBells
  | cmUvChan
  | cmUvSlots
  | cmErrLast
  | cmErrAddr
  | pwrCtrl
  | pwrStat
  | pwrCmd
  | pwrResult
  | pwrRst
  | thmCtrl
  | thmThr
  | thmStat
  | thmTs
  | pwrDom
  | capList
  | capFormats
  | sboxData
  | sboxSet
  | sboxClr
  | sboxLockop
  deriving DecidableEq, Repr, Inhabited

/-- One register family: control-space offset of its first word, its index ranges as (stride, count) outermost first, the
masks of its RW, RWL and W1C fields, and its reset value. -/
structure RegRow where
  base  : Nat
  dims  : List (Nat × Nat)
  rw    : Word
  rwl   : Word
  w1c   : Word
  rst   : Word
  deriving DecidableEq, Repr

namespace RegId

/-- The rows of the register index. -/
def row : RegId → RegRow
  | .colStorStat => ⟨0x20000, [(1024, 64)], 0, 0, 0, 0⟩
  | .colRemapCmd => ⟨0x20004, [(1024, 64)], 0, 0, 0, 0⟩
  | .colRemapResult => ⟨0x20008, [(1024, 64)], 0, 0, 0, 0⟩
  | .colRmtSel => ⟨0x20010, [(1024, 64)], 0xfff, 0, 0, 0⟩
  | .colRmtData => ⟨0x20014, [(1024, 64)], 0, 0, 0, 0⟩
  | .colScrubCtrl => ⟨0x20020, [(1024, 64)], 0x10f01, 0, 0, 0x10801⟩
  | .colScrubPtr => ⟨0x20024, [(1024, 64)], 0, 0, 0, 0⟩
  | .colScrubPasses => ⟨0x20028, [(1024, 64)], 0, 0, 0, 0⟩
  | .colScrubLast => ⟨0x2002c, [(1024, 64)], 0, 0, 0, 0⟩
  | .colTierCeCnt => ⟨0x20100, [(1024, 64), (64, 4)], 0, 0, 0, 0⟩
  | .colTierUeCnt => ⟨0x20104, [(1024, 64), (64, 4)], 0, 0, 0, 0⟩
  | .colTierSpare => ⟨0x20108, [(1024, 64), (64, 4)], 0, 0, 0, 0x2⟩
  | .colTierRowsFree => ⟨0x2010c, [(1024, 64), (64, 4)], 0, 0, 0, 0x2200010⟩
  | .regionCtrl => ⟨0x30000, [(32, 64)], 0, 0x7f3f7f, 0, 0⟩
  | .regionPbase => ⟨0x30004, [(32, 64)], 0, 0x1ffff, 0, 0⟩
  | .regionXbase => ⟨0x30008, [(32, 64)], 0, 0x1ffff, 0, 0⟩
  | .regionRows => ⟨0x3000c, [(32, 64)], 0, 0xfff07ff, 0, 0⟩
  | .regionColmaskLo => ⟨0x30010, [(32, 64)], 0, 0xffffffff, 0, 0⟩
  | .regionColmaskHi => ⟨0x30014, [(32, 64)], 0, 0xffffffff, 0, 0⟩
  | .regionPerm => ⟨0x30018, [(32, 64)], 0, 0x3ff, 0, 0⟩
  | .regionStat => ⟨0x3001c, [(32, 64)], 0, 0, 0, 0⟩
  | .colWheel => ⟨0x40000, [(256, 64), (4, 64)], 0, 0x7f007f, 0, 0⟩
  | .xbarWheelPos => ⟨0x44000, [], 0, 0, 0, 0⟩
  | .xbarWheelSw => ⟨0x44004, [], 0, 0, 0, 0⟩
  | .xbarSkipCtrl => ⟨0x44010, [], 0x33, 0, 0, 0x1⟩
  | .xbarSkipStat => ⟨0x44014, [], 0, 0, 0, 0⟩
  | .xbarSkipTherm => ⟨0x44018, [], 0, 0, 0, 0⟩
  | .xbarSkipDrain => ⟨0x4401c, [], 0, 0, 0, 0⟩
  | .xbarConfClr => ⟨0x44020, [], 0, 0, 0, 0⟩
  | .colDeferStat => ⟨0x45000, [(16, 64)], 0, 0, 0, 0⟩
  | .colDeferCnt => ⟨0x45004, [(16, 64)], 0, 0, 0, 0⟩
  | .colDrainReq => ⟨0x45008, [(16, 64)], 0, 0, 0, 0⟩
  | .xbarConfRdLo => ⟨0x46000, [(16, 69)], 0, 0, 0, 0⟩
  | .xbarConfRdHi => ⟨0x46004, [(16, 69)], 0, 0, 0, 0⟩
  | .xbarConfWrLo => ⟨0x46008, [(16, 69)], 0, 0, 0, 0⟩
  | .xbarConfWrHi => ⟨0x4600c, [(16, 69)], 0, 0, 0, 0⟩
  | .lotTicket => ⟨0x50000, [(4, 37)], 0x3f, 0, 0, 0x8⟩
  | .lotCtrl => ⟨0x50100, [], 0x1ff, 0, 0, 0x10⟩
  | .lotStarveThr => ⟨0x50104, [], 0xffff, 0, 0, 0x1000⟩
  | .lotStarveLo => ⟨0x50108, [], 0, 0, 0xffffffff, 0⟩
  | .lotStarveHi => ⟨0x5010c, [], 0, 0, 0x1f, 0⟩
  | .lotStarveEnLo => ⟨0x50110, [], 0xffffffff, 0, 0, 0xffffffff⟩
  | .lotStarveEnHi => ⟨0x50114, [], 0x1f, 0, 0, 0x1f⟩
  | .lotStarveLast => ⟨0x50118, [], 0, 0, 0, 0⟩
  | .lotSeed => ⟨0x50120, [], 0, 0xffffffff, 0, 0x1⟩
  | .colLotLfsr => ⟨0x50200, [(32, 64)], 0, 0, 0, 0x1⟩
  | .colLotGrantsRd => ⟨0x50204, [(32, 64)], 0, 0, 0, 0⟩
  | .colLotGrantsWr => ⟨0x50208, [(32, 64)], 0, 0, 0, 0⟩
  | .colLotLr => ⟨0x5020c, [(32, 64)], 0, 0, 0, 0⟩
  | .colLotStale => ⟨0x50210, [(32, 64)], 0, 0, 0, 0⟩
  | .colLotZero => ⟨0x50214, [(32, 64)], 0, 0, 0, 0⟩
  | .colLotMaxwait => ⟨0x50218, [(32, 64)], 0, 0, 0, 0⟩
  | .pgCtrl => ⟨0x60000, [(32, 16)], 0x7, 0, 0, 0x7⟩
  | .pgStat => ⟨0x60004, [(32, 16)], 0, 0, 0, 0⟩
  | .pgRstCmd => ⟨0x60008, [(32, 16)], 0, 0, 0, 0⟩
  | .pgAborts => ⟨0x6000c, [(32, 16)], 0, 0, 0, 0⟩
  | .pgLastAbort => ⟨0x60010, [(32, 16)], 0, 0, 0xffffffff, 0⟩
  | .ppCtrl => ⟨0x60800, [(32, 16)], 0x1ff1, 0, 0, 0x1331⟩
  | .ppStat => ⟨0x60804, [(32, 16)], 0, 0, 0, 0⟩
  | .ppRstCmd => ⟨0x60808, [(32, 16)], 0, 0, 0, 0⟩
  | .ppRspErr => ⟨0x6080c, [(32, 16)], 0, 0, 0, 0⟩
  | .lpCrdInit => ⟨0x60c00, [(32, 4)], 0, 0x1f007f, 0, 0x100040⟩
  | .lpCrdStat => ⟨0x60c04, [(32, 4)], 0, 0, 0, 0⟩
  | .lpRstCmd => ⟨0x60c08, [(32, 4)], 0, 0, 0, 0⟩
  | .lpStat => ⟨0x60c0c, [(32, 4)], 0, 0, 0, 0⟩
  | .lpNacks => ⟨0x60c10, [(32, 4)], 0, 0, 0, 0⟩
  | .mgmtErr => ⟨0x60e00, [], 0, 0, 0, 0⟩
  | .satCtrl => ⟨0x70000, [(64, 32)], 0xffff0003, 0, 0, 0x100000⟩
  | .satStat => ⟨0x70004, [(64, 32)], 0, 0, 0, 0⟩
  | .satSwaps => ⟨0x70008, [(64, 32)], 0, 0, 0, 0⟩
  | .satEcc => ⟨0x7000c, [(64, 32)], 0, 0, 0, 0⟩
  | .fsLaunch => ⟨0x70010, [(64, 32)], 0, 0, 0, 0⟩
  | .fsStat => ⟨0x70014, [(64, 32)], 0, 0, 0, 0⟩
  | .satStallClr => ⟨0x70018, [(64, 32)], 0, 0, 0, 0⟩
  | .satStallLo => ⟨0x70800, [(64, 32), (8, 7)], 0, 0, 0, 0⟩
  | .satStallHi => ⟨0x70804, [(64, 32), (8, 7)], 0, 0, 0, 0⟩
  | .caravanCtrl => ⟨0x71000, [(16, 8)], 0, 0x3ff, 0, 0⟩
  | .caravanWin => ⟨0x71004, [(16, 8)], 0, 0x7ff03ff, 0, 0⟩
  | .caravanStat => ⟨0x71008, [(16, 8)], 0, 0, 0, 0⟩
  | .caravanRounds => ⟨0x7100c, [(16, 8)], 0, 0, 0, 0⟩
  | .itinWord => ⟨0x80000, [(4, 16384)], 0xffffffff, 0, 0, 0⟩
  | .itinEcc => ⟨0x90000, [], 0, 0, 0, 0⟩
  | .itinEccLast => ⟨0x90004, [], 0, 0, 0, 0⟩
  | .itinFetches => ⟨0x90008, [], 0, 0, 0, 0⟩
  | .itinFetchMaxwait => ⟨0x9000c, [], 0, 0, 0, 0⟩
  | .porterChDesc0 => ⟨0x100000, [(65536, 16), (64, 16)], 0xfff3fff, 0, 0, 0⟩
  | .porterChDesc1 => ⟨0x100004, [(65536, 16), (64, 16)], 0xfffffff, 0, 0, 0⟩
  | .porterChDesc2 => ⟨0x100008, [(65536, 16), (64, 16)], 0x1fffff, 0, 0, 0⟩
  | .porterChDesc3 => ⟨0x10000c, [(65536, 16), (64, 16)], 0x3fffff, 0, 0, 0⟩
  | .porterChArm => ⟨0x100010, [(65536, 16), (64, 16)], 0, 0, 0, 0⟩
  | .porterChStat => ⟨0x100014, [(65536, 16), (64, 16)], 0, 0, 0, 0⟩
  | .porterChCredit => ⟨0x100018, [(65536, 16), (64, 16)], 0, 0, 0, 0⟩
  | .porterChCrdret => ⟨0x10001c, [(65536, 16), (64, 16)], 0, 0, 0, 0⟩
  | .porterChLimit => ⟨0x100020, [(65536, 16), (64, 16)], 0x7ff07ff, 0, 0, 0x1000400⟩
  | .porterChPieces => ⟨0x100024, [(65536, 16), (64, 16)], 0, 0, 0, 0⟩
  | .porterChHold => ⟨0x100028, [(65536, 16), (64, 16)], 0, 0, 0, 0⟩
  | .porterChAct => ⟨0x10002c, [(65536, 16), (64, 16)], 0, 0, 0, 0⟩
  | .porterChShd => ⟨0x100030, [(65536, 16), (64, 16)], 0, 0, 0, 0⟩
  | .porterSplit => ⟨0x100800, [(65536, 16)], 0x1f1f1f, 0, 0, 0x20608⟩
  | .porterReord => ⟨0x100804, [(65536, 16)], 0, 0, 0, 0⟩
  | .porterStat => ⟨0x100808, [(65536, 16)], 0, 0, 0, 0⟩
  | .porterOvf => ⟨0x10080c, [(65536, 16)], 0, 0, 0, 0⟩
  | .fchSel => ⟨0xa0000, [], 0x73f, 0, 0, 0x9⟩
  | .fchStat => ⟨0xa0004, [], 0, 0, 0, 0⟩
  | .fchOutLo => ⟨0xa0008, [], 0xffffffff, 0, 0, 0⟩
  | .fchOutHi => ⟨0xa000c, [], 0xffffffff, 0, 0, 0⟩
  | .fchHoldLo => ⟨0xa0010, [], 0, 0, 0, 0⟩
  | .fchHoldHi => ⟨0xa0014, [], 0, 0, 0, 0⟩
  | .fchHoldLim => ⟨0xa0018, [], 0xffff, 0, 0, 0⟩
  | .tabtStat => ⟨0xb0000, [], 0, 0, 0, 0⟩
  | .tabtCmd => ⟨0xb0004, [], 0, 0, 0, 0⟩
  | .tabtRecInfo => ⟨0xb0100, [(32, 8)], 0, 0, 0x1, 0⟩
  | .tabtRecAgent => ⟨0xb0104, [(32, 8)], 0, 0, 0, 0⟩
  | .tabtRecDetail => ⟨0xb0108, [(32, 8)], 0, 0, 0, 0⟩
  | .tabtRecAddrLo => ⟨0xb010c, [(32, 8)], 0, 0, 0, 0⟩
  | .tabtRecAddrHi => ⟨0xb0110, [(32, 8)], 0, 0, 0, 0⟩
  | .tabtRecTime => ⟨0xb0114, [(32, 8)], 0, 0, 0, 0⟩
  | .tabtTaint => ⟨0xb0200, [(4, 64)], 0, 0, 0xffffffff, 0⟩
  | .pmapCmd => ⟨0x200000, [], 0, 0, 0, 0⟩
  | .pmapCmdResult => ⟨0x200004, [], 0, 0, 0, 0⟩
  | .pmapCtrl => ⟨0x200008, [], 0xffff, 0, 0, 0x10⟩
  | .pmapStat => ⟨0x20000c, [], 0, 0, 0, 0⟩
  | .pmapEcc => ⟨0x200010, [], 0, 0, 0, 0⟩
  | .pmapSlotStat => ⟨0x200100, [(16, 64)], 0, 0, 0, 0⟩
  | .pmapSlotPins => ⟨0x200104, [(16, 64)], 0, 0, 0, 0⟩
  | .pmapSlotEwait => ⟨0x200108, [(16, 64)], 0, 0, 0, 0⟩
  | .pmapSlotFaults => ⟨0x20010c, [(16, 64)], 0, 0, 0, 0⟩
  | .pmapInactEnt => ⟨0x400000, [(16384, 64), (4, 4096)], 0x8000ffff, 0, 0, 0⟩
  | .pmapActEnt => ⟨0x500000, [(16384, 64), (4, 4096)], 0, 0, 0, 0⟩
  | .chgProfCtrl => ⟨0xc0000, [(256, 32), (16, 8)], 0xff07ff, 0, 0, 0⟩
  | .chgProfGeom => ⟨0xc0004, [(256, 32), (16, 8)], 0x3fffffff, 0, 0, 0⟩
  | .chgProfFbase => ⟨0xc0008, [(256, 32), (16, 8)], 0x1fffff, 0, 0, 0⟩
  | .chgProfEsc => ⟨0xc000c, [(256, 32), (16, 8)], 0xffffff, 0, 0, 0⟩
  | .chgAnxNext => ⟨0xc0080, [(256, 32)], 0xffffff, 0, 0, 0⟩
  | .chgAnxEnd => ⟨0xc0084, [(256, 32)], 0xffffff, 0, 0, 0⟩
  | .chgSrSeed => ⟨0xc0088, [(256, 32)], 0xffffffff, 0, 0, 0x1⟩
  | .chgSrState => ⟨0xc008c, [(256, 32)], 0, 0, 0, 0x1⟩
  | .chgEscqStat => ⟨0xc0090, [(256, 32)], 0, 0, 0, 0⟩
  | .chgQBlocks => ⟨0xc0094, [(256, 32)], 0, 0, 0, 0⟩
  | .chgQSat => ⟨0xc0098, [(256, 32)], 0, 0, 0, 0⟩
  | .chgQFlush => ⟨0xc009c, [(256, 32)], 0, 0, 0, 0⟩
  | .chgQEsc => ⟨0xc00a0, [(256, 32)], 0, 0, 0, 0⟩
  | .chgQRefused => ⟨0xc00a4, [(256, 32)], 0, 0, 0, 0⟩
  | .chgQNan => ⟨0xc00a8, [(256, 32)], 0, 0, 0, 0⟩
  | .chgQMaxerr => ⟨0xc00ac, [(256, 32)], 0, 0, 0, 0⟩
  | .chgREsc => ⟨0xc00b0, [(256, 32)], 0, 0, 0, 0⟩
  | .chgRRetry => ⟨0xc00b4, [(256, 32)], 0, 0, 0, 0⟩
  | .chgRSat => ⟨0xc00b8, [(256, 32)], 0, 0, 0, 0⟩
  | .chgSentCnt => ⟨0xc00bc, [(256, 32)], 0, 0, 0, 0⟩
  | .chgSentLast => ⟨0xc00c0, [(256, 32)], 0, 0, 0x807fffff, 0⟩
  | .chgFmtFaults => ⟨0xc00c4, [(256, 32)], 0, 0, 0, 0⟩
  | .chgCntClr => ⟨0xc00c8, [(256, 32)], 0, 0, 0, 0⟩
  | .tallyCtrl => ⟨0xd0000, [(64, 32)], 0x1, 0, 0, 0x1⟩
  | .tallyCfg => ⟨0xd0004, [(64, 32)], 0, 0, 0, 0⟩
  | .tallyNext => ⟨0xd0008, [(64, 32)], 0, 0, 0, 0⟩
  | .tallyRows => ⟨0xd000c, [(64, 32)], 0, 0, 0, 0⟩
  | .tallyClamps => ⟨0xd0010, [(64, 32)], 0, 0, 0, 0⟩
  | .tallyParts => ⟨0xd0014, [(64, 32)], 0, 0, 0, 0⟩
  | .tallyIgnored => ⟨0xd0018, [(64, 32)], 0, 0, 0, 0⟩
  | .tallyEcc => ⟨0xd001c, [(64, 32)], 0, 0, 0, 0⟩
  | .tallyCntClr => ⟨0xd0020, [(64, 32)], 0, 0, 0, 0⟩
  | .tallyRecW => ⟨0x300000, [(32768, 32), (32, 1024), (4, 8)], 0, 0, 0, 0⟩
  | .bellRdy => ⟨0xe0000, [(32, 1024)], 0, 0, 0, 0⟩
  | .bellRdyLast => ⟨0xe0004, [(32, 1024)], 0, 0, 0, 0⟩
  | .bellFree => ⟨0xe0008, [(32, 1024)], 0, 0, 0, 0⟩
  | .bellFreeLast => ⟨0xe000c, [(32, 1024)], 0, 0, 0, 0⟩
  | .bellRing => ⟨0xe0010, [(32, 1024)], 0, 0, 0, 0⟩
  | .bellTake => ⟨0xe0014, [(32, 1024)], 0, 0, 0, 0⟩
  | .bellInit => ⟨0xe0018, [(32, 1024)], 0, 0, 0, 0⟩
  | .bellCtrl => ⟨0xe8000, [], 0x1, 0, 0, 0⟩
  | .bellMismatch => ⟨0xe8004, [], 0, 0, 0, 0⟩
  | .bellMmLast => ⟨0xe8008, [], 0, 0, 0x80ffffff, 0⟩
  | .bellOvf => ⟨0xe800c, [], 0, 0, 0, 0⟩
  | .bellEcc => ⟨0xe8010, [], 0, 0, 0, 0⟩
  | .bellTkres => ⟨0xe8100, [(4, 18)], 0, 0, 0, 0⟩
  | .bellWatch => ⟨0xe8200, [(4, 18)], 0xffff0fff, 0, 0, 0x10000⟩
  | .sboxStat => ⟨0x210000, [], 0, 0, 0, 0⟩
  | .sboxReap => ⟨0x210004, [], 0, 0, 0, 0⟩
  | .sboxReapCnt => ⟨0x210008, [], 0, 0, 0, 0⟩
  | .sboxLockErr => ⟨0x21000c, [], 0, 0, 0, 0⟩
  | .sboxEcc => ⟨0x210010, [], 0, 0, 0, 0⟩
  | .sboxEccLast => ⟨0x210014, [], 0, 0, 0, 0⟩
  | .sboxDenied => ⟨0x210018, [], 0, 0, 0, 0⟩
  | .sboxSec => ⟨0x210020, [], 0, 0, 0x8, 0⟩
  | .sboxWipes => ⟨0x210024, [], 0, 0, 0, 0⟩
  | .sboxKey => ⟨0x210040, [(4, 8)], 0, 0, 0, 0⟩
  | .winCfg => ⟨0x260000, [(16, 4096)], 0x7ffffff, 0, 0, 0⟩
  | .winMap => ⟨0x260004, [(16, 4096)], 0x7fffffff, 0, 0, 0⟩
  | .winSize => ⟨0x260008, [(16, 4096)], 0x3ffff, 0, 0, 0⟩
  | .winStat => ⟨0x26000c, [(16, 4096)], 0, 0, 0, 0⟩
  | .winCtrl => ⟨0x270000, [], 0xffff0000, 0x1fff, 0, 0x10100000⟩
  | .winCmd => ⟨0x270004, [], 0, 0, 0, 0⟩
  | .winCmdResult => ⟨0x270008, [], 0, 0, 0, 0⟩
  | .winDigest => ⟨0x27000c, [], 0, 0, 0, 0⟩
  | .winRejLast => ⟨0x270010, [], 0, 0, 0x801fffff, 0⟩
  | .winRejDigest => ⟨0x270014, [], 0, 0, 0, 0⟩
  | .winRejEpoch => ⟨0x270018, [], 0, 0, 0, 0⟩
  | .winOpens => ⟨0x27001c, [], 0, 0, 0, 0⟩
  | .winStray => ⟨0x270020, [], 0, 0, 0, 0⟩
  | .winDrops => ⟨0x270024, [], 0, 0, 0, 0⟩
  | .regCtrl => ⟨0xf0000, [], 0xff07, 0, 0, 0x1001⟩
  | .regStat => ⟨0xf0004, [], 0, 0, 0, 0⟩
  | .regEvent => ⟨0xf0008, [], 0, 0, 0xff03, 0⟩
  | .regLevel => ⟨0xf000c, [], 0xfff, 0, 0, 0xec8⟩
  | .regMult => ⟨0xf0010, [], 0, 0, 0, 0⟩
  | .regCap => ⟨0xf0014, [], 0, 0, 0, 0x10001000⟩
  | .regRsvSum => ⟨0xf0018, [], 0, 0, 0, 0⟩
  | .regMissLast => ⟨0xf001c, [], 0, 0, 0x83ffffff, 0⟩
  | .regPassPg => ⟨0xf0040, [(4, 16)], 0xffff, 0, 0, 0⟩
  | .regClassTarget => ⟨0xf0100, [(32, 8)], 0xffff, 0, 0, 0⟩
  | .regClassLimit => ⟨0xf0104, [(32, 8)], 0x1f07ff, 0, 0, 0⟩
  | .regClassRsv => ⟨0xf0108, [(32, 8)], 0xfff0fff, 0, 0, 0⟩
  | .regClassMisses => ⟨0xf010c, [(32, 8)], 0, 0, 0, 0⟩
  | .regClassLat => ⟨0xf0110, [(32, 8)], 0, 0, 0, 0⟩
  | .regClassDone => ⟨0xf0114, [(32, 8)], 0, 0, 0, 0⟩
  | .fuStat => ⟨0x280000, [(512, 85)], 0, 0, 0xffffffff, 0⟩
  | .fuIe => ⟨0x280004, [(512, 85)], 0xffffffff, 0, 0, 0⟩
  | .fuEsc => ⟨0x280008, [(512, 85)], 0, 0xffffffff, 0, 0⟩
  | .fuForce => ⟨0x28000c, [(512, 85)], 0, 0, 0, 0⟩
  | .fuCtrl => ⟨0x280010, [(512, 85)], 0, 0x3, 0, 0x2⟩
  | .fuCurfew => ⟨0x280014, [(512, 85)], 0, 0xffffff, 0, 0x30d40⟩
  | .fuCurfewCnt => ⟨0x280018, [(512, 85)], 0, 0, 0, 0⟩
  | .fuQuiet => ⟨0x28001c, [(512, 85)], 0, 0xffff, 0, 0x10⟩
  | .fuRecov => ⟨0x280020, [(512, 85)], 0xffff0000, 0, 0, 0x100000⟩
  | .fuState => ⟨0x280024, [(512, 85)], 0, 0, 0, 0⟩
  | .fuFirst => ⟨0x280028, [(512, 85)], 0, 0, 0xc0, 0⟩
  | .fuFirstLoc => ⟨0x28002c, [(512, 85)], 0, 0, 0, 0⟩
  | .fuFirstDetail => ⟨0x280030, [(512, 85)], 0, 0, 0, 0⟩
  | .fuFirstTime => ⟨0x280034, [(512, 85)], 0, 0, 0, 0⟩
  | .fuLedgerStat => ⟨0x280038, [(512, 85)], 0, 0, 0, 0⟩
  | .fuLedgerClr => ⟨0x28003c, [(512, 85)], 0, 0, 0, 0⟩
  | .fuEvents => ⟨0x280040, [(512, 85)], 0, 0, 0, 0⟩
  | .fuWin => ⟨0x280044, [(512, 85)], 0xfffff, 0, 0, 0x303e8⟩
  | .fuTrack => ⟨0x280048, [(512, 85)], 0, 0, 0, 0⟩
  | .fuJudged => ⟨0x28004c, [(512, 85)], 0, 0, 0, 0⟩
  | .fuQhits => ⟨0x280050, [(512, 85)], 0, 0, 0, 0⟩
  | .fuLedgerInfo => ⟨0x280100, [(512, 85), (16, 8)], 0, 0, 0, 0⟩
  | .fuLedgerLoc => ⟨0x280104, [(512, 85), (16, 8)], 0, 0, 0, 0⟩
  | .fuLedgerDetail => ⟨0x280108, [(512, 85), (16, 8)], 0, 0, 0, 0⟩
  | .fuLedgerTime => ⟨0x28010c, [(512, 85), (16, 8)], 0, 0, 0, 0⟩
  | .fuGstat => ⟨0x28f000, [], 0, 0, 0, 0⟩
  | .fuSafeInfo => ⟨0x28f004, [], 0, 0, 0, 0⟩
  | .fuSafeTime => ⟨0x28f008, [], 0, 0, 0, 0⟩
  | .fuSafeCmd => ⟨0x28f00c, [], 0, 0, 0, 0⟩
  | .fuErrHold => ⟨0x28f010, [], 0x1, 0, 0, 0x2⟩
  | .fuQuarLo => ⟨0x28f014, [], 0, 0, 0, 0⟩
  | .fuQuarHi => ⟨0x28f018, [], 0, 0, 0, 0⟩
  | .fuTstampLo => ⟨0x28f020, [], 0, 0, 0, 0⟩
  | .fuTstampHi => ⟨0x28f024, [], 0, 0, 0, 0⟩
  | .intcSrcCfg => ⟨0x290000, [(4, 512)], 0x1f07ff, 0, 0, 0⟩
  | .intcPend => ⟨0x290800, [(4, 16)], 0, 0, 0, 0⟩
  | .intcSetpend => ⟨0x290840, [(4, 16)], 0, 0, 0, 0⟩
  | .intcClrpend => ⟨0x290880, [(4, 16)], 0, 0, 0, 0⟩
  | .intcActive => ⟨0x2908c0, [(4, 16)], 0, 0, 0, 0⟩
  | .intcLine => ⟨0x290900, [(4, 16)], 0, 0, 0, 0⟩
  | .intcTgtCtrl => ⟨0x291000, [(32, 18)], 0x7ff, 0, 0, 0xff⟩
  | .intcTgtClaim => ⟨0x291004, [(32, 18)], 0, 0, 0, 0x3ff⟩
  | .intcTgtEoi => ⟨0x291008, [(32, 18)], 0, 0, 0, 0⟩
  | .intcTgtRunning => ⟨0x29100c, [(32, 18)], 0, 0, 0, 0xff⟩
  | .intcTgtStat => ⟨0x291010, [(32, 18)], 0, 0, 0, 0⟩
  | .intcSgi => ⟨0x291400, [], 0, 0, 0, 0⟩
  | .intcErr => ⟨0x291404, [], 0, 0, 0, 0⟩
  | .cfgStat => ⟨0x10000, [], 0, 0, 0, 0⟩
  | .cfgCmd => ⟨0x10004, [], 0, 0, 0, 0⟩
  | .cfgResult => ⟨0x10008, [], 0, 0, 0, 0⟩
  | .cfgSeal => ⟨0x1000c, [], 0, 0, 0, 0⟩
  | .cfgImage => ⟨0x10010, [], 0, 0, 0, 0⟩
  | .cfgLoads => ⟨0x10014, [], 0, 0, 0, 0⟩
  | .cfgRx => ⟨0x10018, [], 0, 0, 0, 0⟩
  | .cfgLoad => ⟨0x10400, [(4, 256)], 0, 0, 0, 0⟩
  | .cmUvTask => ⟨0x10800, [(16, 18)], 0x80001fff, 0, 0, 0⟩
  | .cmUvBells => ⟨0x10804, [(16, 18)], 0x7ff03ff, 0, 0, 0⟩
  | .cmUvChan => ⟨0x10808, [(16, 18)], 0xffff000f, 0, 0, 0⟩
  | .cmUvSlots => ⟨0x1080c, [(16, 18)], 0x7f3f, 0, 0, 0⟩
  | .cmErrLast => ⟨0x10a00, [], 0, 0, 0x800007ff, 0⟩
  | .cmErrAddr => ⟨0x10a04, [], 0, 0, 0, 0⟩
  | .pwrCtrl => ⟨0x2a0000, [], 0x11f, 0, 0, 0x108⟩
  | .pwrStat => ⟨0x2a0004, [], 0, 0, 0, 0⟩
  | .pwrCmd => ⟨0x2a0008, [], 0, 0, 0, 0⟩
  | .pwrResult => ⟨0x2a000c, [], 0, 0, 0, 0⟩
  | .pwrRst => ⟨0x2a0010, [], 0, 0, 0, 0x1⟩
  | .thmCtrl => ⟨0x2a0020, [], 0xfffff1, 0, 0, 0x6e1031⟩
  | .thmThr => ⟨0x2a0024, [], 0xffffffff, 0, 0, 0x67645f5f⟩
  | .thmStat => ⟨0x2a0028, [], 0, 0, 0, 0⟩
  | .thmTs => ⟨0x2a0100, [(4, 64)], 0, 0, 0, 0⟩
  | .pwrDom => ⟨0x2a0400, [(4, 301)], 0x3, 0, 0, 0⟩
  | .capList => ⟨0x0, [(4, 58)], 0, 0, 0, 0⟩
  | .capFormats => ⟨0xf0, [(4, 3)], 0, 0, 0, 0⟩
  | .sboxData => ⟨0x220000, [(4, 16384)], 0, 0, 0, 0⟩
  | .sboxSet => ⟨0x230000, [(4, 16384)], 0, 0, 0, 0⟩
  | .sboxClr => ⟨0x240000, [(4, 16384)], 0, 0, 0, 0⟩
  | .sboxLockop => ⟨0x250000, [(4, 4096)], 0, 0, 0, 0⟩

/-- Families, part 0. -/
def part0 : List RegId := [.colStorStat, .colRemapCmd, .colRemapResult, .colRmtSel, .colRmtData, .colScrubCtrl, .colScrubPtr, .colScrubPasses, .colScrubLast, .colTierCeCnt, .colTierUeCnt, .colTierSpare, .colTierRowsFree, .regionCtrl, .regionPbase, .regionXbase, .regionRows, .regionColmaskLo, .regionColmaskHi, .regionPerm, .regionStat, .colWheel, .xbarWheelPos, .xbarWheelSw, .xbarSkipCtrl, .xbarSkipStat, .xbarSkipTherm, .xbarSkipDrain, .xbarConfClr, .colDeferStat, .colDeferCnt, .colDrainReq, .xbarConfRdLo, .xbarConfRdHi, .xbarConfWrLo, .xbarConfWrHi, .lotTicket, .lotCtrl, .lotStarveThr, .lotStarveLo, .lotStarveHi, .lotStarveEnLo, .lotStarveEnHi, .lotStarveLast, .lotSeed, .colLotLfsr, .colLotGrantsRd, .colLotGrantsWr]

/-- Families, part 1. -/
def part1 : List RegId := [.colLotLr, .colLotStale, .colLotZero, .colLotMaxwait, .pgCtrl, .pgStat, .pgRstCmd, .pgAborts, .pgLastAbort, .ppCtrl, .ppStat, .ppRstCmd, .ppRspErr, .lpCrdInit, .lpCrdStat, .lpRstCmd, .lpStat, .lpNacks, .mgmtErr, .satCtrl, .satStat, .satSwaps, .satEcc, .fsLaunch, .fsStat, .satStallClr, .satStallLo, .satStallHi, .caravanCtrl, .caravanWin, .caravanStat, .caravanRounds, .itinWord, .itinEcc, .itinEccLast, .itinFetches, .itinFetchMaxwait, .porterChDesc0, .porterChDesc1, .porterChDesc2, .porterChDesc3, .porterChArm, .porterChStat, .porterChCredit, .porterChCrdret, .porterChLimit, .porterChPieces, .porterChHold]

/-- Families, part 2. -/
def part2 : List RegId := [.porterChAct, .porterChShd, .porterSplit, .porterReord, .porterStat, .porterOvf, .fchSel, .fchStat, .fchOutLo, .fchOutHi, .fchHoldLo, .fchHoldHi, .fchHoldLim, .tabtStat, .tabtCmd, .tabtRecInfo, .tabtRecAgent, .tabtRecDetail, .tabtRecAddrLo, .tabtRecAddrHi, .tabtRecTime, .tabtTaint, .pmapCmd, .pmapCmdResult, .pmapCtrl, .pmapStat, .pmapEcc, .pmapSlotStat, .pmapSlotPins, .pmapSlotEwait, .pmapSlotFaults, .pmapInactEnt, .pmapActEnt, .chgProfCtrl, .chgProfGeom, .chgProfFbase, .chgProfEsc, .chgAnxNext, .chgAnxEnd, .chgSrSeed, .chgSrState, .chgEscqStat, .chgQBlocks, .chgQSat, .chgQFlush, .chgQEsc, .chgQRefused, .chgQNan]

/-- Families, part 3. -/
def part3 : List RegId := [.chgQMaxerr, .chgREsc, .chgRRetry, .chgRSat, .chgSentCnt, .chgSentLast, .chgFmtFaults, .chgCntClr, .tallyCtrl, .tallyCfg, .tallyNext, .tallyRows, .tallyClamps, .tallyParts, .tallyIgnored, .tallyEcc, .tallyCntClr, .tallyRecW, .bellRdy, .bellRdyLast, .bellFree, .bellFreeLast, .bellRing, .bellTake, .bellInit, .bellCtrl, .bellMismatch, .bellMmLast, .bellOvf, .bellEcc, .bellTkres, .bellWatch, .sboxStat, .sboxReap, .sboxReapCnt, .sboxLockErr, .sboxEcc, .sboxEccLast, .sboxDenied, .sboxSec, .sboxWipes, .sboxKey, .winCfg, .winMap, .winSize, .winStat, .winCtrl, .winCmd]

/-- Families, part 4. -/
def part4 : List RegId := [.winCmdResult, .winDigest, .winRejLast, .winRejDigest, .winRejEpoch, .winOpens, .winStray, .winDrops, .regCtrl, .regStat, .regEvent, .regLevel, .regMult, .regCap, .regRsvSum, .regMissLast, .regPassPg, .regClassTarget, .regClassLimit, .regClassRsv, .regClassMisses, .regClassLat, .regClassDone, .fuStat, .fuIe, .fuEsc, .fuForce, .fuCtrl, .fuCurfew, .fuCurfewCnt, .fuQuiet, .fuRecov, .fuState, .fuFirst, .fuFirstLoc, .fuFirstDetail, .fuFirstTime, .fuLedgerStat, .fuLedgerClr, .fuEvents, .fuWin, .fuTrack, .fuJudged, .fuQhits, .fuLedgerInfo, .fuLedgerLoc, .fuLedgerDetail, .fuLedgerTime]

/-- Families, part 5. -/
def part5 : List RegId := [.fuGstat, .fuSafeInfo, .fuSafeTime, .fuSafeCmd, .fuErrHold, .fuQuarLo, .fuQuarHi, .fuTstampLo, .fuTstampHi, .intcSrcCfg, .intcPend, .intcSetpend, .intcClrpend, .intcActive, .intcLine, .intcTgtCtrl, .intcTgtClaim, .intcTgtEoi, .intcTgtRunning, .intcTgtStat, .intcSgi, .intcErr, .cfgStat, .cfgCmd, .cfgResult, .cfgSeal, .cfgImage, .cfgLoads, .cfgRx, .cfgLoad, .cmUvTask, .cmUvBells, .cmUvChan, .cmUvSlots, .cmErrLast, .cmErrAddr, .pwrCtrl, .pwrStat, .pwrCmd, .pwrResult, .pwrRst, .thmCtrl, .thmThr, .thmStat, .thmTs, .pwrDom, .capList, .capFormats]

/-- Families, part 6. -/
def part6 : List RegId := [.sboxData, .sboxSet, .sboxClr, .sboxLockop]

/-- Every family, in page order of the chapters. -/
def all : List RegId := List.flatten [part0, part1, part2, part3, part4, part5, part6]

/-- The number of a family, its place in the register file's keys. -/
def num : RegId → Nat := RegId.ctorIdx

/-- The key of register `i` of a family in the register file. -/
def key (id : RegId) (i : Nat) : Nat := id.num * 1048576 + i

end RegId

/-- The index, if any, that an offset from a family's base spells (R566: an offset between registers is none). -/
def dimIndex : List (Nat × Nat) → Nat → Nat → Option Nat
  | [], acc, off => if off = 0 then some acc else none
  | (st, n) :: t, acc, off => if off / st < n then dimIndex t (acc * n + off / st) (off % st) else none

/-- Dimensions in falling stride, as the offset is split. -/
def RegRow.index (r : RegRow) (off : Nat) : Option Nat :=
  if off < r.base then none else dimIndex r.dims 0 (off - r.base)

/-- The register an offset in control space holds (R566), or none. -/
def regAtIn : List RegId → Nat → Option (RegId × Nat)
  | [], _ => none
  | id :: t, off => match id.row.index off with
    | some i => some (id, i)
    | none => regAtIn t off

/-- The register at a control-space offset (view base removed). -/
def regAt (off : Nat) : Option (RegId × Nat) := regAtIn RegId.all off

/-- The high word of a wide register's low word (R15): the pairs the tables name _LO and _HI. -/
def RegId.high : RegId → Option RegId
  | .regionColmaskLo => some .regionColmaskHi
  | .xbarConfRdLo => some .xbarConfRdHi
  | .xbarConfWrLo => some .xbarConfWrHi
  | .lotStarveLo => some .lotStarveHi
  | .lotStarveEnLo => some .lotStarveEnHi
  | .satStallLo => some .satStallHi
  | .fchOutLo => some .fchOutHi
  | .fchHoldLo => some .fchHoldHi
  | .tabtRecAddrLo => some .tabtRecAddrHi
  | .fuQuarLo => some .fuQuarHi
  | .fuTstampLo => some .fuTstampHi
  | _ => none

/-- Whether a register is the high word of a wide register. -/
def RegId.isHigh (id : RegId) : Bool := RegId.all.any fun lo => decide (lo.high = some id)

/-- The reset value of FU[n].ESC by unit (R493). -/
def escReset (n : Nat) : Word :=
  if n < 64 then 0x86 else if n < 80 then 3 else if n = 80 then 4 else if n = 81 then 3 else if n = 82 then 0x22
  else if n = 84 then 7 else 0

/-- Whether an interrupt source exists (R495). -/
def srcExists (s : Nat) : Bool :=
  if s < 256 then decide (s % 16 < 10) else decide (s ≤ 343)

/-- The reset value of INTC.SRC[s].CFG (R495, R513): PRIO 0x80, sense and target by source. -/
def srcCfgReset (s : Nat) : Word :=
  if srcExists s then
    let sense := if s < 256 then (if s % 16 < 2 then 0 else 1)
      else if s < 325 then 0 else if s = 327 || s = 332 || s = 333 || s = 334 || s = 335 then 0 else 1
    let target := if s < 256 then s / 16 else if s = 326 || s = 335 then 17 else 16
    BitVec.ofNat 32 (0x80 + sense * 256 + target * 65536)
  else 0

/-- The reset value of a register (R13, R567). -/
def RegId.reset (id : RegId) (i : Nat) : Word :=
  match id with
  | .fuEsc => escReset i
  | .fuWin => if i < 64 then 0x303E8 else 0
  | .intcSrcCfg => srcCfgReset i
  | _ => id.row.rst

end Sys2Proof.Machine
end

