-- ==== Sys2Proof/Machine/Tab.lean ====
section
/-! DEFINITION. Sparse tables: a list of (index, value) pairs with strictly rising indices that lists no entry equal to
what an unlisted index reads as. The array (byte cells), the register file and every indexed part of State are kept so,
and equal contents are equal lists. -/

namespace Sys2Proof

/-- A sparse table of `α` by index. -/
abbrev Tab (α : Type) := List (Nat × α)

namespace Tab

variable {α : Type}

/-- The value at index `k`, with `d` giving what an unlisted index reads as. -/
def get (d : Nat → α) : Tab α → Nat → α
  | [], k => d k
  | (i, v) :: t, k => if i = k then v else get d t k

/-- Insert or replace the entry of index `k`, keeping indices rising. -/
def put (k : Nat) (v : α) : Tab α → Tab α
  | [] => [(k, v)]
  | (i, w) :: t => if k < i then (k, v) :: (i, w) :: t else if i = k then (k, v) :: t else (i, w) :: put k v t

/-- Remove the entries of index `k`. -/
def del (k : Nat) (t : Tab α) : Tab α := t.filter fun e => decide (e.1 ≠ k)

/-- Write `v` at index `k`; writing what an unlisted index reads as removes the entry. -/
def set [DecidableEq α] (d : Nat → α) (t : Tab α) (k : Nat) (v : α) : Tab α :=
  if v = d k then del k t else put k v t

/-- Indices strictly rise. -/
def sorted : Tab α → Bool
  | [] => true
  | [_] => true
  | (i, _) :: (j, w) :: t => decide (i < j) && sorted ((j, w) :: t)

/-- No entry equals what an unlisted index reads as. -/
def tight [DecidableEq α] (d : Nat → α) (t : Tab α) : Bool :=
  t.all fun e => decide (e.2 ≠ d e.1)

/-- The canonical form. -/
def wf [DecidableEq α] (d : Nat → α) (t : Tab α) : Bool := sorted t && tight d t

end Tab

end Sys2Proof
end

