-- ==== Sys2Proof/Machine/State.lean ====
section
/-! DEFINITION. The state of Phijo-1024: every register, buffer, queue, counter and pin the spec names, the queue of
waiting commands, and the state at the release of cold reset. -/

namespace Sys2Proof.Machine

/-- Why the block stops. -/
inductive Fault where
  /-- Raised by every meaning but the cold reset's own after RAIL_LEAVES_TOLERANCE: no behaviour is guaranteed until a
  cold reset (R542). Safe: the model stops where the device may do anything. -/
  | unguaranteed
  deriving DecidableEq, Repr

/-- Why a command has no meaning. -/
inductive Refusal where
  /-- A command that is not modelled, by mnemonic. No meaning answers it. Safe. -/
  | notModelled (mnemonic : String)
  deriving DecidableEq, Repr

/-! ### Storage (R34 to R69) -/

/-- One granule access in a column: tier, bank within the tile, logical row (R36). -/
structure Acc where
  tier : Nat
  bank : Nat
  row  : Nat
  deriving DecidableEq, Repr, Inhabited

/-- A granule as cells hold it: the data written and, for each word 0 to 3, which of its 136 codeword bits are flipped
(R38, R39); a word not listed has none. -/
structure Coded where
  data : Row
  ups  : Tab (BitVec 136)
  deriving DecidableEq, Repr, Inhabited

/-- One spare row of a bank in service (R48, R68 RMT_DATA). -/
structure SpareRow where
  lrow  : Nat
  gen   : Nat
  valid : Bool
  dead  : Bool
  deriving DecidableEq, Repr, Inhabited

/-- A spare bank of a tile: whether it serves a position now, whether it ever did, and which (R49, SPARE). -/
structure SpareBank where
  serving : Bool
  taken   : Bool
  bank    : Nat
  deriving DecidableEq, Repr, Inhabited

/-- A tile's bank map and mapped-out field (R50, R51, R58). -/
structure Tile where
  sb0    : SpareBank
  sb1    : SpareBank
  octOut : Nat
  deriving DecidableEq, Repr, Inhabited

/-- A lasting judgement or a software request waiting for the Steward (R57, R59). -/
structure RemapReq where
  retire : Bool
  tier   : Nat
  bank   : Nat
  row    : Nat
  sw     : Bool
  deriving DecidableEq, Repr, Inhabited

/-- Where a running copy stands (R568). -/
inductive CopyPhase where
  | readQueued
  | readIssued
  | writeQueued
  | writeIssued
  | done
  deriving DecidableEq, Repr, Inhabited

/-- A running copy: a row remap into spare row `dst`, or a bank retirement into spare bank `dst` (R48, R53 to R56). -/
structure Copy where
  retire : Bool
  tier   : Nat
  bank   : Nat
  row    : Nat
  dst    : Nat
  gen    : Nat
  sw     : Bool
  phase  : CopyPhase
  deriving DecidableEq, Repr, Inhabited

/-- A deferral-buffer entry: a write lane's deferred granules in one tile, each at its bank row (a bank of 64 and above names a
bank slot), with the edge of its commit (R111). -/
structure DeferEntry where
  tier  : Nat
  grans : List (Acc × Coded)
  at_   : Nat
  deriving DecidableEq, Repr, Inhabited

/-- A column's scrub state (R569): whether scrubbing has started, whether a request waits, the running edge at which the
last one entered, and the edge from which the pass in progress is timed. -/
structure Scrub where
  started : Bool
  queued  : Bool
  entered : Nat
  passAt  : Option Nat
  deriving DecidableEq, Repr, Inhabited

/-- A column's storage state beside its registers: the queue of remaps, the running copy, the deferral buffer, the scrub state,
Steward writes cancelled by a client write (R55, R66), and write-backs that wait for room in the Steward's write queue (R125). -/
structure Col where
  remapQ : List RemapReq
  copy   : Option Copy
  defer  : List DeferEntry
  scrub  : Scrub
  wbCancel : List Acc
  wbWait : List (Acc × Coded)
  deriving DecidableEq, Repr, Inhabited

/-! ### Lanes and the lottery (R101, R123 to R145) -/

/-- What a lane or a queue entry serves. -/
inductive Use where
  /-- Descriptor `k` of request `beat` of slot port `x`. -/
  | slot (x beat k : Nat)
  /-- Fill or escape-record stripe `id` of fill sequencer `x`. -/
  | fill (x id : Nat)
  /-- Scalar access `id` of port group `g`: a read, or the read half of a narrow write. -/
  | scalar (g id : Nat)
  /-- The write half of scalar access `id` of port group `g`. -/
  | scalarWr (g id : Nat)
  /-- A half of the piece numbered `sq`. -/
  | piece (sq : Nat)
  /-- Escape record `id` of Changer `x` (R327). -/
  | annex (x id : Nat)
  /-- A stripe of inbound packet `id` at link port `l` (R172). -/
  | inbound (l id : Nat)
  /-- The scrub read of a stripe (R65). -/
  | scrub (stripe : Nat)
  /-- Write-back of a corrected row (R66). -/
  | scrubWb
  /-- The Steward's copy read and copy write of a row (R568). -/
  | copyRd
  | copyWr
  deriving DecidableEq, Repr, Inhabited

/-- One entry of a pending queue (R124): what it serves, its granules, its write data, the passport class of its head,
its task where it has one, the running edge at which it enters, and whether it is remote traffic of a porter (R246). -/
structure QEntry where
  use    : Use
  accs   : List Acc
  data   : List Coded
  cls    : Nat
  task   : Option Nat
  at_    : Nat
  remote : Option Nat
  deriving DecidableEq, Repr, Inhabited

/-- The pending queue of one requester, column and direction, the running edge since which its head waits, and whether
that head has tripped the starvation flag (R124, R138, R139). -/
structure LotQueue where
  entries : List QEntry
  since   : Nat
  tripped : Bool
  deriving DecidableEq, Repr, Inhabited

/-- The lottery of one column and direction: grants registered as (running edge of the lane, requester), the requester
granted last, and the count of open grants (R134, R140, R141). -/
structure Lot where
  grants : List (Nat × Nat)
  last   : Option Nat
  count  : Nat
  deriving DecidableEq, Repr, Inhabited

/-- A read lane in flight: the running edge of its bank stage, the one at which its data is due, the master counted for
conflicts, the granules once captured, the bank rows that deferral entries replaced in them, and whether the stripe met a parity
error in the crossbar's return path (R101, R112, R142, R465). -/
structure RdLane where
  col    : Nat
  use    : Use
  master : Nat
  accs   : List Acc
  bank   : Nat
  due    : Nat
  got    : Option (List Coded)
  under  : List (Acc × Coded)
  par    : Bool
  deriving DecidableEq, Repr, Inhabited

/-- A write lane in flight and the running edge at which it reaches its banks (R101, R107); the narrow write whose bytes it
merges onto the row as it then stands (R365). -/
structure WrLane where
  col    : Nat
  use    : Use
  master : Nat
  accs   : List Acc
  data   : List Coded
  bank   : Nat
  narrow : Option ScalarReq
  deriving DecidableEq, Repr, Inhabited

/-! ### Client ports (R146 to R181) -/

/-- One descriptor of a sampled request: valid, its status so far, its P-space byte address, its granules as places in
the stripe, its column, and whether it goes through a Crossroads column aperture with an element width (R91, R92). -/
structure DescSt where
  valid : Bool
  st    : Nat
  addr  : Nat
  grans : List Nat
  col   : Nat
  elem  : Nat
  deriving DecidableEq, Repr, Inhabited

/-- An input element: a finite magnitude in units of 2^-133 with its sign, an infinity, or a NaN (R302, R340). -/
inductive InVal where
  | fin (neg : Bool) (mag : Nat)
  | inf (neg : Bool)
  | nan (neg : Bool)
  deriving DecidableEq, Repr, Inhabited

/-- A TALY setting (R232, R355 CFG). -/
structure TalySet where
  en   : Bool
  rowg : Nat
  trec : Nat
  task : Nat
  deriving DecidableEq, Repr, Inhabited

/-- What a write request brings to its Tally unit once its stripes have committed (R342): the setting of its batch, whether the
record index restarts with it, whether it carries phj_x_wr_tly, and its elements as granules of 32. -/
structure TallyJob where
  set     : TalySet
  restart : Bool
  tly     : Bool
  grans   : List (List InVal)
  deriving DecidableEq, Repr, Inhabited

/-- A sampled slot-port request: its number, its batch, its sampling edge, the running edge at which it is answered, whether
it carries last, and a write's Tally elements. -/
structure Beat where
  id    : Nat
  batch : Nat
  at_   : Nat
  due   : Nat
  fmt   : Nat
  descs : List DescSt
  last  : Bool
  tally : Option TallyJob
  deriving DecidableEq, Repr, Inhabited

/-- One direction of a matrix or vector port: the batch number now open, whether a batch is open, sampled requests in
order, and failed batches as (batch, running edge of detection, number of the failing request) (R155, R159, R160). -/
structure SlotDir where
  batch  : Nat
  isOpen : Bool
  next   : Nat
  beats  : List Beat
  failed : List (Nat × Nat × Nat)
  deriving DecidableEq, Repr, Inhabited

/-- What a matrix or vector port drives: the running edge, dv and status by stripe, and the data bytes by granule. -/
structure SlotOut where
  at_  : Nat
  dv   : List Bool
  st   : List Nat
  data : List Row
  deriving DecidableEq, Repr, Inhabited

/-- Where an outstanding scalar access stands. -/
inductive ScalarStage where
  /-- In the input buffer, held back by a full queue. -/
  | buffered
  /-- Its read lane, or its read half, is queued or issued. -/
  | reading
  /-- The write half is queued or issued. -/
  | writing
  /-- Falls due at a running edge with a status and data. -/
  | due (at_ st : Nat) (data : BitVec 64)
  deriving DecidableEq, Repr, Inhabited

/-- An outstanding scalar access (R156): its request, passport, the BCLK edge since which it is a regulated transaction not
yet complete (R449), its sampling edge, its row, whether its present lane has issued. -/
structure Scalar where
  id    : Nat
  req   : ScalarReq
  pass  : Nat
  ready : Option Nat
  at_   : Nat
  col   : Nat
  acc   : Acc
  issued : Bool
  stage : ScalarStage
  deriving DecidableEq, Repr, Inhabited

/-- What a scalar port drives (R157). -/
structure ScalarOut where
  at_  : Nat
  tag  : Nat
  we   : Bool
  st   : Nat
  data : BitVec 64
  deriving DecidableEq, Repr, Inhabited

/-- The reset of a master: in progress, its line low, the software command not yet completed, completion asserted, line
released early, timed out, the edges (clk, run) at which it started, and the clk edge up to which the master still samples nothing
once both are over (R175 to R180). -/
structure Rst where
  active  : Bool
  lineLow : Bool
  cmd     : Bool
  done    : Bool
  early   : Bool
  timeout : Bool
  at_     : Nat
  runAt   : Nat
  endAt   : Nat
  deriving DecidableEq, Repr, Inhabited

/-! ### Link ports (R169 to R174, R418 to R443) -/

/-- A packet to send: header (SEQ is given to a request as it is sent), the pieces it carries, whether its header has been
sent, flits sent, whether it is an answer, and the clk edge at which it came (R170, R174, R255, R422, R433, R434). -/
structure OutPkt where
  hdr     : Header
  sqs     : List Nat
  hdrSent : Bool
  flits   : Nat
  answer  : Bool
  at_     : Nat
  deriving DecidableEq, Repr, Inhabited

/-- A request sent and not yet answered: type, link, sequence number, window, task and agent, its pieces, the clk edge at
which it was sent, whether its time has run out (R423, R430, R431). -/
structure SentPkt where
  type   : Nat
  link   : Nat
  seq    : Nat
  window : Nat
  task   : Nat
  agent  : Nat
  sqs    : List Nat
  at_    : Nat
  timedOut : Bool
  deriving DecidableEq, Repr, Inhabited

/-- What a link port drives at a clk edge: a header, and up to two flits of eight granules (R170). -/
structure LinkOut where
  at_   : Nat
  hdr   : Option Header
  flits : List (List Row)
  deriving DecidableEq, Repr, Inhabited

/-- A stripe of an inbound packet waiting for a link write lane: the flit it comes from, its P-space address, its rows. -/
structure InStripe where
  flit : Nat
  addr : Nat
  rows : List Row
  deriving DecidableEq, Repr, Inhabited

/-- An inbound packet (R172, R173, R432, R433): its number and header; the clk edge of its checks and whether they are done;
flits still owed and taken; the NACK reason of a refused packet; discarded without an answer; flits kept until the checks;
the P-space address of its first granule; stripes to present; the flits of stripes not yet committed; whether a stripe of it
met a column that no longer serves it (R52). -/
structure InPkt where
  id      : Nat
  hdr     : Header
  at_     : Nat
  checked : Bool
  owed    : Nat
  taken   : Nat
  refused : Option Nat
  drop    : Bool
  kept    : List (List Row)
  addr    : Nat
  stripes : List InStripe
  left    : List Nat
  lost    : Bool
  deriving DecidableEq, Repr, Inhabited

/-- One link port beside its registers: packets to send, requests unanswered, next sequence numbers by link, inbound
packets, credits held outbound, credits the link engine holds, credits to return from the next edge on, the allowance returned after
the last reset, the credits returned at the latest edge, what it drives (R171). -/
structure Link where
  outQ    : List OutPkt
  sent    : List SentPkt
  seq     : Tab Nat
  inQ     : List InPkt
  nextIn  : Nat
  outHdr  : Nat
  outData : Nat
  owedHdr : Nat
  owedData : Nat
  backHdr : Nat
  backData : Nat
  allowHdr : Nat
  allowData : Nat
  crdHdr  : Nat
  crdData : Nat
  tx      : LinkOut
  deriving DecidableEq, Repr, Inhabited

/-- A window entry beside its registers (R424 to R438): the clk edges of its OPEN command and its last OPEN_REQ, whether the
last answer was NOT_READY, the passport it sends, CLOSE_REQs of the peer to answer (link port, link, SEQ), whether its own
CLOSE_REQ has been sent and answered. -/
structure WinX where
  openAt   : Nat
  reqAt    : Nat
  notReady : Bool
  pass     : Nat
  peers    : List (Nat × Nat × Nat)
  reqSent  : Bool
  rspGot   : Bool
  deriving DecidableEq, Repr, Inhabited

/-! ### Satchels (R182 to R206) -/

/-- A satchel read that is held (R185, R333): slots by descriptor with their valid bits, profile, the half it reads,
whether it waits for an exchange pending at its sampling, the running edge from which phj_x_stall is high with the BCLK edge
of its sampling, and the running edge of its delivery once only the time of its escape slots is left. -/
structure SatRead where
  slots : List (Bool × Nat)
  fmt   : Nat
  half  : Bool
  exch  : Bool
  from_ : Nat
  clkAt : Nat
  ready : Option Nat
  deriving DecidableEq, Repr, Inhabited

/-- An escape record to fetch (R329 to R331): half, granule offset of its escape-area place, granules, Annex address, tag,
mismatches so far, the BCLK edge of its repetition while it waits for that, the run it is fetched for, and a P-space address of the
packed block (R76). -/
structure EscJob where
  half  : Bool
  gran  : Nat
  n     : Nat
  addr  : Nat
  tag   : Nat
  tries : Nat
  due   : Option Nat
  task  : Nat
  start : Nat
  off   : Nat
  home  : Nat
  deriving DecidableEq, Repr, Inhabited

/-- A fill stripe or an escape read whose lane has been taken: number, piece, half and slot it lands in, P-space byte
address, granule places, element width of a column aperture, profile, escape record, running edge of its landing. -/
structure Fill where
  id    : Nat
  sq    : Nat
  half  : Bool
  slot  : Nat
  addr  : Nat
  grans : List Nat
  elem  : Nat
  prof  : Nat
  esc   : Option EscJob
  due   : Nat
  deriving DecidableEq, Repr, Inhabited

/-- One satchel beside its registers and contents: front half, fill bits of SH0 and SH1, escape-area granules whose record
has landed and granules taken in each half, the granules landed in each half since it became the back half, each with the P-space
address of its stripe plus 1, the pending engine swap with the running edge of its sampling, the held read,
fills in flight, records waiting for a lane or their repetition, and a member's state after a reset: ready until its engine's first swap, deaf to hops until the
next head exchange (R203). -/
structure Sat where
  front  : Bool
  fill0  : BitVec 1024
  fill1  : BitVec 1024
  esc0   : List Nat
  esc1   : List Nat
  used0  : List Nat
  used1  : List Nat
  land0  : Tab Nat
  land1  : Tab Nat
  swap   : Option Nat
  read   : Option SatRead
  fills  : List Fill
  jobs   : List EscJob
  nextId : Nat
  ready  : Bool
  deaf   : Bool
  deriving DecidableEq, Repr, Inhabited

/-- What a satchel port drives (R185). -/
structure SatOut where
  at_  : Nat
  st   : List Nat
  data : List Row
  deriving DecidableEq, Repr, Inhabited

/-- A caravan hop in flight to member `x` (R199): slot, the granules by place, those that complete an escape record, the P-space address
of the head's stripe, and the running edge of its arrival. -/
structure Hop where
  x     : Nat
  slot  : Nat
  grans : List (Nat × Coded)
  escs  : List Nat
  src   : Nat
  due   : Nat
  deriving DecidableEq, Repr, Inhabited

/-- One caravan chain beside its registers: the head exchanges that some member has still to follow, oldest first, each with its
running edge and the positions that have followed it (R201). -/
structure Caravan where
  rounds : List (Nat × List Nat)
  deriving DecidableEq, Repr, Inhabited

/-! ### Itineraries, porters, aborts (R207 to R274) -/

/-- The page translation an address register keeps (R285). -/
structure Kept where
  slot : Nat
  page : Nat
  base : Nat
  deriving DecidableEq, Repr, Inhabited

/-- An address register: ADDR in granules, SPACE, TAG, MOD (R212). -/
structure AReg where
  addr  : Nat
  space : Nat
  tag   : Nat
  modl  : Nat
  kept  : Option Kept
  deriving DecidableEq, Repr, Inhabited

/-- A loop counter (R212). -/
structure LoopC where
  isOpen : Bool
  init   : Nat
  rem    : Nat
  start  : Nat
  deriving DecidableEq, Repr, Inhabited

/-- What occupies a context's decoder (R237). `before`: the number of the next piece when it decoded. -/
inductive Hold where
  | none
  | move (dst src rem : Nat)
  | wait
  | fence (rd wr : Bool) (before : Nat)
  | swap (before : Nat)
  /-- A fault has been met; the abort ends the run (R236). -/
  | fault
  deriving DecidableEq, Repr, Inhabited

/-- One context of an agent (R207, R212): fetched with its run waiting to start, or its run live; START, task, passport;
buffer and instruction index; registers; format profile; what holds it; the BCLK edge from which it decodes; the slots it
has pinned with the bank; the epoch wait (slot, BCLK edge, flagged); END decoded; HAND executed; started under HAND while
the handing run has not ended; a piece of it lost to a fault, before its read half was complete or at all. -/
structure Ctx where
  loaded : Bool
  live   : Bool
  start  : Nat
  task   : Nat
  pass   : Nat
  buf    : List Word
  pc     : Nat
  regs   : List AReg
  loops  : List LoopC
  nest   : List Nat
  flags  : List Bool
  prof   : Nat
  hold   : Hold
  at_    : Nat
  pins   : List (Nat × Nat)
  ewait  : Option (Nat × Nat × Bool)
  ended  : Bool
  handed : Bool
  behind : Bool
  lostRd : Bool
  lostWr : Bool
  deriving DecidableEq, Repr, Inhabited

/-- A queued launch: START, task, and the descriptor words of a channel. -/
structure Launch where
  start : Nat
  task  : Nat
  d0    : Word
  d1    : Word
  d2    : Word
  d3    : Word
  deriving DecidableEq, Repr, Inhabited

/-- A fetch under way: context, launch, the run's passport as the fetch began (R448), words copied so far (R211). -/
structure Fetching where
  k     : Nat
  l     : Launch
  pass  : Nat
  words : List Word
  deriving DecidableEq, Repr, Inhabited

/-- One agent: its launch queue (a channel's shadow), a channel's active descriptor and whether its run is still to be
fetched, the descriptor activated last, whose credit terms stay in force, the BCLK edge since which it asks for a fetch, the
fetch being served, a fetch that has faulted, credits. -/
structure Agent where
  queue  : List Launch
  act    : Option Launch
  todo   : Bool
  keep   : Option Launch
  reqAt  : Option Nat
  fetch  : Option Fetching
  bad    : Bool
  credit : Nat
  deriving DecidableEq, Repr, Inhabited

/-- One side of a piece: space, address in granules, TAG. -/
structure Side where
  space : Nat
  addr  : Nat
  tag   : Nat
  deriving DecidableEq, Repr, Inhabited

/-- Where half of a piece stands. -/
inductive Half where
  | waiting
  | presented
  | complete
  deriving DecidableEq, Repr, Inhabited

/-- One piece (R221): number; agent, context, task, passport, run START, instruction index; its sides and their P-space
byte addresses after translation; granules; halves; source data; whether it still stands in the piece queue, holds a
reorder slot, has been discarded by an abort; commits and answers owed; atomic bursts still to issue; the BCLK edges at
which its halves became ready (R449); the last of its packet; profile and atomics of its run; the BCLK edge of its generation
(R435); the element width its read turns by, as its presentation decoded it (R92, R96). -/
structure Piece where
  sq     : Nat
  agent  : Nat
  ctx    : Nat
  task   : Nat
  pass   : Nat
  start  : Nat
  off    : Nat
  src    : Side
  dst    : Side
  srcP   : Nat
  dstP   : Nat
  cnt    : Nat
  rd     : Half
  wr     : Half
  data   : List Row
  queued : Bool
  slot   : Bool
  dead   : Bool
  owed   : Nat
  left   : Nat
  rdAt   : Nat
  wrAt   : Nat
  pktEnd : Bool
  prof   : Nat
  atop   : Nat
  aew    : Bool
  gen    : Nat
  elem   : Nat
  deriving DecidableEq, Repr, Inhabited

/-- An AXI burst a porter has issued (R162 to R167, R250): signals driven, the piece it serves, beats still owed, data, and WSTRB by
beat of a write (R163, R176). -/
structure Burst where
  porter : Nat
  id     : Nat
  iface  : Nat
  write  : Bool
  addr   : Nat
  beats  : Nat
  size   : Nat
  atop   : Nat
  qos    : Nat
  user   : Nat
  cache  : Nat
  prot   : Nat
  sq     : Nat
  task   : Nat
  data   : List Row
  strobe : List (BitVec 128)
  deriving DecidableEq, Repr, Inhabited

/-- A tally-buffer export read under way: unit, piece, whether it has been served and the BCLK edge at which it completes
(R354). -/
structure TallyExport where
  x    : Nat
  sq   : Nat
  due  : Option Nat
  data : List Row
  deriving DecidableEq, Repr, Inhabited

/-- A task abort from detection to done (R264 to R269): the record's fields, whether further faults came, whether it has
taken effect, its record, the pins its runs held, the channels whose credits it restores, and the masters whose resets stopped a run of
it (R270). -/
structure Abort where
  task   : Nat
  at_    : Nat
  time   : Nat
  cause  : Nat
  detail : Nat
  agent  : Nat
  start  : Nat
  off    : Nat
  addr   : Nat
  space  : Nat
  multi  : Bool
  fired  : Bool
  recNo  : Option Nat
  pins   : List (Nat × Nat)
  chans  : List (Nat × Nat)
  rsts   : List Nat
  deriving DecidableEq, Repr, Inhabited

/-- A far channel's hold: the clk edge from which it is held, whether the limit has been reported, and the edge from which it is held no
more once its input was low (R260, R262). -/
structure FarHold where
  from_ : Nat
  told  : Bool
  to_   : Option Nat
  deriving DecidableEq, Repr, Inhabited

/-! ### Page maps (R275 to R300) -/

/-- A running COPY (true) or CLEAR of a slot, the clk edge at which it ends, and whether it is the last command (R300). -/
structure PmapOp where
  copy : Bool
  slot : Nat
  done : Nat
  last : Bool
  deriving DecidableEq, Repr, Inhabited

/-- An access to the inactive window held during COPY or CLEAR (R294): none for a read. -/
structure HeldAcc where
  who   : Who
  slot  : Nat
  idx   : Nat
  value : Option Word
  deriving DecidableEq, Repr, Inhabited

/-! ### Changers and Tally (R301 to R355) -/

/-- An escape record waiting in a Changer's queue: number, running edge from which it may enter its pending queue, whether
it has entered, Annex byte address in P-space, a P-space address of the packed block (R76), granules (R327). -/
structure EscRec where
  id     : Nat
  at_    : Nat
  queued : Bool
  addr   : Nat
  home   : Nat
  data   : List Row
  deriving DecidableEq, Repr, Inhabited

/-- A profile's meta buffer: the frame it serves and the entries not yet written, by block (R316, R317). -/
structure MetaBuf where
  tag   : Option Nat
  dirty : Tab Nat
  deriving DecidableEq, Repr, Inhabited

/-- An FP32 pattern. -/
abbrev F32 := BitVec 32

/-- The open row of a Tally unit (R345, R346): N, NF, granules counted, the largest magnitude in units of 2^-133, the
shift, and the two running totals with their compensations. -/
structure TallyRow where
  isOpen : Bool
  n      : Nat
  nf     : Nat
  grans  : Nat
  maxAbs : Nat
  shift  : F32
  s1     : F32
  c1     : F32
  s2     : F32
  c2     : F32
  deriving DecidableEq, Repr, Inhabited

/-- A closed row's record and the running edge at which it is written; none while its batch has not ended (R351). -/
structure TallyPend where
  due   : Option Nat
  index : Nat
  words : List Word
  deriving DecidableEq, Repr, Inhabited

/-- One Tally unit: the setting for new batches and the BCLK edge of its decode, the one before it, whether each is still to be
taken by a batch, the setting of the batch now sampled and that of the requests now counted, the next record index and SEQ, the
open row, records pending. -/
structure Tally where
  set   : TalySet
  setAt : Nat
  old   : TalySet
  fresh : Bool
  oldFresh : Bool
  samp  : TalySet
  cur   : TalySet
  index : Nat
  sq    : Nat
  row   : TallyRow
  pend  : List TallyPend
  deriving DecidableEq, Repr, Inhabited

/-! ### Bells (R356 to R392) -/

/-- One bell: count, origin and edge and scope of its last ring, task of its last ring, whether it was rung. -/
structure Bell where
  count : Nat
  orig  : Nat
  scope : Nat
  task  : Option Nat
  rung  : Bool
  deriving DecidableEq, Repr, Inhabited

/-- What a bell operation does. -/
inductive BellKind where
  | ring
  | take
  | wait
  | init
  deriving DecidableEq, Repr, Inhabited

/-- A bell operation submitted: kind, bell index, origin, scope, count, the context it serves, its task, the clk edge at
which it completes, none while held (R376, R379), and the register access it answers. -/
structure BellOp where
  kind  : BellKind
  bell  : Nat
  orig  : Nat
  scope : Nat
  n     : Nat
  ctx   : Option (Nat × Nat)
  task  : Option Nat
  due   : Option Nat
  after : List Nat
  who   : Option Who
  deriving DecidableEq, Repr, Inhabited

/-! ### Strongbox (R393 to R417) -/

/-- What an access of the Strongbox does (R400, R404, R413); a write or read that is refused with its event (R401), one that names no
operation (R404). -/
inductive SboxOp where
  | read
  | write (v : Word)
  | set (v : Word)
  | clr (v : Word)
  | acq
  | rel
  | brk
  | key (v : Word)
  | deny (write : Bool)
  | bad (write : Bool)
  deriving DecidableEq, Repr, Inhabited

/-- An access waiting for the Strongbox port: requester, operation, word, the clk edge of its presentation (R396, R397). -/
structure SboxReq where
  who  : Who
  op   : SboxOp
  word : Nat
  at_  : Nat
  deriving DecidableEq, Repr, Inhabited

/-- An answer of the Strongbox: requester, data, error, the clk edge at which the access completes (R398), a write's. -/
structure SboxAns where
  who  : Who
  data : Word
  err  : Bool
  due  : Nat
  write : Bool
  deriving DecidableEq, Repr, Inhabited

/-- A requester's held access to TKRES (R380). -/
structure HeldRead where
  who : Who
  t   : Nat
  deriving DecidableEq, Repr, Inhabited

/-! ### Fault units (R462 to R493) -/

/-- One ledger entry (R467 to R469). -/
structure LedgerEnt where
  info : Word
  loc  : Word
  det  : Word
  time : Word
  deriving DecidableEq, Repr, Inhabited

/-- One tracked row of a column unit: its LOC without the fields of DETAIL, count, TCLK of its first event (R474). -/
structure Track where
  loc   : Nat
  count : Nat
  time  : Nat
  deriving DecidableEq, Repr, Inhabited

/-- One fault unit beside its registers: the running curfew (t0, source, forced, detection edge), a curfew that ended
without escalation, escalated with the TCLK of its outcome pending, column quarantined, own parity error, TCLK of the last
escalating event, ledger, data events of the present edge, edge of the latest FIRST, sources of the latest edge with an event,
row tracker. -/
structure Fu where
  curfew  : Option (Nat × Nat × Bool × Nat)
  spent   : Bool
  esc     : Bool
  outcome : Option (Nat × Nat × Nat × Bool)
  quar    : Bool
  quarDone : Bool
  par     : Bool
  lastEsc : Nat
  ledger  : List LedgerEnt
  dataAt  : Nat
  dataN   : Nat
  ctrlAt  : Nat
  nowAt   : Nat
  nowBits : Word
  track   : List Track
  deriving DecidableEq, Repr, Inhabited

/-! ### Control plane, configuration, power (R514 to R563) -/

/-- The answer to a register access: who, data, error, the clk edge at which it completes (R529), the subordinate (R527); a write's; one
that another word of the same burst follows (R163). -/
structure RegAns where
  who  : Who
  data : Word
  err  : Bool
  due  : Nat
  sub  : Nat
  write : Bool
  more : Bool
  deriving DecidableEq, Repr, Inhabited

/-- A requester's capture of a wide register's high word (R15). -/
structure Capture where
  who  : Nat
  id   : Nat
  idx  : Nat
  val  : Word
  deriving DecidableEq, Repr, Inhabited

/-- What the loader does. -/
inductive LoadPhase where
  | idle
  | receiving
  | checking (at_ : Nat)
  | applying (at_ done : Nat)
  deriving DecidableEq, Repr, Inhabited

/-- The image loader: phase with the clk edges of its start and end, partial reload, words received, the state code it rests
in, a wipe since the command, the tag was checked, data words applied so far (R514 to R523). -/
structure Loader where
  phase   : LoadPhase
  part    : Bool
  words   : List Word
  result  : Nat
  wiped   : Bool
  auth    : Bool
  written : Nat
  deriving DecidableEq, Repr, Inhabited

/-- One power domain: the state it is in and the transition in progress to (state, clk edge of its end) (R544 to R549). -/
structure Domain where
  st    : Nat
  moving : Option (Nat × Nat)
  deriving DecidableEq, Repr, Inhabited

/-- The stage of the start-up sequence, block reset or retention (R550 to R556). -/
inductive Life where
  /-- phj_rst_n low with the kind input high (cold) or low (warm). -/
  | coldHeld
  | warmHeld
  /-- After the release of cold reset, before READY. -/
  | starting
  | ready
  /-- phj_rst_n high again, the warm reset not yet complete; whether the wheel has still to start at the next ACLK edge (R100). -/
  | warmBusy (wheel : Bool)
  | entering (done : Nat)
  | retained
  | leaving (done ctrl : Nat)
  deriving DecidableEq, Repr, Inhabited

/-! ### The state -/

/-- The state of the block. -/
structure State where
  /-- Commands waiting, first in, first out. -/
  pending : List Instr
  /-- BCLK edges since the divider's edge 0 (R537, R554); running edges (R117). -/
  clk     : Nat
  run     : Nat
  /-- The two halves of an edge in the model's own time (log entry 1): true once the edge's own events are done. -/
  late    : Bool
  /-- First and last held edge of the skips under way (R117), the edge at which an announced skipped cycle begins. -/
  heldFrom : Nat
  heldTo  : Nat
  skipNext : Option Nat
  /-- The throttle level in force for the group of 8 ACLK now counted, and the one the announcements follow: that of the
  group of the next ACLK cycle (R570); samples below its threshold (R559). -/
  levelNow : Nat
  levelNext : Nat
  dwell   : Nat
  life    : Life
  railsLost : Bool
  /-- An event was latched during block retention (R551); a warm reset waits for the exit from it (R555). -/
  wake    : Bool
  warmNext : Bool
  /-- The register file, and its values at the latest ACLK edge (R149), at the latest ACLK edge at which no load was being applied
  (R198), one and two running edges and one to three MCLK edges ago (R137, R505). -/
  regs    : Tab Word
  regsA   : Tab Word
  chainRegs : Tab Word
  regsB1  : Tab Word
  regsB2  : Tab Word
  regsM1  : Tab Word
  regsM2  : Tab Word
  regsM3  : Tab Word
  /-- The array: byte cells and flipped codeword bits (R34 to R41). -/
  mem     : List Host.Cell
  ups     : Tab (BitVec 136)
  /-- Flipped codeword bits of the other coded memories, by site. -/
  upsOther : Tab (BitVec 136)
  tiles   : Tab Tile
  spares  : Tab SpareRow
  cols    : Tab Col
  /-- Wheel position, turns, set, requested exchange, and both sets' words (R99 to R104). -/
  wheelPos : Nat
  turns   : Nat
  wheelSet : Nat
  wheelPend : Bool
  wheelReq : Nat
  wheels  : Tab Word
  /-- LFSR values of the previous edge, used by the draws (R132). -/
  lfsrPrev : Tab Word
  queues  : Tab LotQueue
  lots    : Tab Lot
  /-- The queue whose head tripped the latest starvation flag, while that head waits (R145 STARVE_LAST.WAIT). -/
  starving : Option Nat
  rdLanes : List RdLane
  wrLanes : List WrLane
  slotRd  : Tab SlotDir
  slotWr  : Tab SlotDir
  slotRdOut : Tab SlotOut
  slotWrOut : Tab SlotOut
  scalars : Tab (List Scalar)
  nextScalar : Nat
  scalarOut : Tab ScalarOut
  rsts    : Tab Rst
  links   : Tab Link
  wins    : Tab WinX
  /-- TCLK edges for which a class's computed level has stayed below its level in force (R457). -/
  decay   : Tab Nat
  sats    : Tab Sat
  satMem  : Tab Coded
  satOut  : Tab SatOut
  hops    : List Hop
  caravans : Tab Caravan
  store   : Tab Word
  agents  : Tab Agent
  ctxs    : Tab Ctx
  pieces  : List Piece
  nextSq  : Nat
  bursts  : List Burst
  exports : List TallyExport
  /-- Round-robin pointers, by arbiter (R211, R242, R243, R286), and the last BCLK edge of an AXI address by interface and
  direction (R247). -/
  rr      : Tab Nat
  axiLast : Tab Nat
  aborts  : List Abort
  farHold : Tab FarHold
  pmaps   : Tab Word
  pmapOp  : Option PmapOp
  pmapHeld : List HeldAcc
  escq    : Tab (List EscRec)
  nextEsc : Nat
  metas   : Tab MetaBuf
  tallies : Tab Tally
  tallyMem : Tab Word
  tallyOut : Tab SatOut
  bells   : Tab Bell
  bellOps : List BellOp
  tkHeld  : List HeldRead
  sbox    : Tab Word
  /-- Accesses waiting for the port, answers on their way, the clk edge from which the port accepts again (R396 to R398). -/
  sboxWait : List SboxReq
  sboxAns : List SboxAns
  sboxBusy : Nat
  /-- The reap set and the origins that enter it at the next MCLK edge, by processor; the next lock of the sweep, the lock to
  mark, the edge from which the reaper waits for the port, the edge at which the sweep is over, the locks marked by it (R408,
  R411). -/
  reapSet : Nat
  reapEnter : Nat
  reapAt  : Option Nat
  reapMark : Option Nat
  reapSince : Nat
  reapEnd : Option Nat
  reapMarked : Nat
  /-- The clk edge at which a wipe ends with its cause (true: life cycle), and whether phj_lc_state has been sampled (R415). -/
  wipeEnd : Option (Nat × Bool)
  lcKnown : Bool
  fus     : Tab Fu
  safe    : Bool
  safeAt  : Option Nat
  errPulse : Option Nat
  errWant : Bool
  /-- Interrupt controller: latched pending bits, lines as last sampled, pulses for the next sample, claimers, selection,
  sleeping targets (R498 to R510). -/
  intPend : BitVec 512
  intLine : BitVec 512
  intPulse : BitVec 512
  intOwner : Tab Nat
  intSel  : Tab Nat
  asleep  : Tab Nat
  caps    : Tab Word
  captures : List Capture
  /-- Captured ledger entries by requester: unit, place, entry (R469). -/
  ledgerCaps : Tab (Nat × Nat × LedgerEnt)
  /-- Answers to register accesses not yet past the edge at which they complete (R529). -/
  answers : List RegAns
  /-- The matrix's grant (R528): parked on the Steward, the clk edge from which it may be given, the edge from which it may
  pass on. -/
  parked  : Bool
  gate    : Nat
  turn    : Nat
  loader  : Loader
  sealed_ : Bool
  sealWant : Bool
  domains : Tab Domain
  /-- The model's own counter from which free values are drawn (a value the spec leaves open). -/
  free    : Nat
  deriving DecidableEq, Repr

/-- The machine at the release of cold reset: BCLK edge 0 of the start-up sequence, before READY (R554). Every register is
at its reset value (an unlisted entry of the register file), the array lists nothing (it holds zeros once the self-test
is over, R60), every queue is empty, every domain ON, the wheel at position 0. -/
def State.reset : State :=
  { pending := [], clk := 0, run := 0, late := false, heldFrom := 0, heldTo := 0, skipNext := none, levelNow := 0,
    levelNext := 0, dwell := 0, life := .starting, railsLost := false, wake := false, warmNext := false, regs := [], regsA := [], chainRegs := [], regsB1 := [],
    regsB2 := [], regsM1 := [], regsM2 := [], regsM3 := [], mem := [], ups := [], upsOther := [], tiles := [],
    spares := [], cols := [], wheelPos := 0, turns := 0, wheelSet := 0, wheelPend := false, wheelReq := 0,
    wheels := [], lfsrPrev := [], queues := [], lots := [], starving := none, rdLanes := [], wrLanes := [],
    slotRd := [], slotWr := [], slotRdOut := [], slotWrOut := [], scalars := [], nextScalar := 0, scalarOut := [],
    rsts := [], links := [], wins := [], decay := [], sats := [], satMem := [], satOut := [], hops := [],
    caravans := [], store := [], agents := [], ctxs := [], pieces := [], nextSq := 0, bursts := [], exports := [],
    rr := [], axiLast := [], aborts := [], farHold := [], pmaps := [], pmapOp := none, pmapHeld := [], escq := [],
    nextEsc := 0, metas := [], tallies := [], tallyMem := [], tallyOut := [], bells := [], bellOps := [],
    tkHeld := [], sbox := [], sboxWait := [], sboxAns := [], sboxBusy := 0, reapSet := 0, reapEnter := 0,
    reapAt := none, reapMark := none, reapSince := 0, reapEnd := none, reapMarked := 0, wipeEnd := none,
    lcKnown := false, fus := [], safe := false, safeAt := none, errPulse := none, errWant := false, intPend := 0,
    intLine := 0, intPulse := 0, intOwner := [], intSel := [], asleep := [], caps := [], captures := [],
    ledgerCaps := [], answers := [], parked := false, gate := 0, turn := 0, loader := ⟨.idle, false, [], 1, false, false, 0⟩, sealed_ := false,
    sealWant := false, domains := [], free := 0 }

end Sys2Proof.Machine
end

