-- ==== Sys2Proof/Machine/Formats.lean ====
section
/-! DEFINITION. The narrow formats: exact values, rounding, the encodings of R302 to R307, block quantising under R318 to
R322 and R335, escape records under R326, and expansion under R313 and R336. -/

namespace Sys2Proof.Machine

/-! ### Exact values -/

/-- An exact fraction; the denominator is positive. -/
structure Frac where
  num : Int
  den : Nat
  deriving DecidableEq, Repr, Inhabited

/-- 2^e. -/
def pow2 (e : Int) : Frac := if 0 ≤ e then ⟨2 ^ e.toNat, 1⟩ else ⟨1, 2 ^ (-e).toNat⟩

def Frac.ofInt (i : Int) : Frac := ⟨i, 1⟩
def Frac.mul (a b : Frac) : Frac := ⟨a.num * b.num, a.den * b.den⟩
def Frac.add (a b : Frac) : Frac := ⟨a.num * b.den + b.num * a.den, a.den * b.den⟩
def Frac.neg (a : Frac) : Frac := ⟨-a.num, a.den⟩
def Frac.sub (a b : Frac) : Frac := a.add b.neg
def Frac.abs (a : Frac) : Frac := ⟨a.num.natAbs, a.den⟩
/-- Division by a positive fraction. -/
def Frac.div (a b : Frac) : Frac := ⟨a.num * b.den, a.den * b.num.toNat⟩
def Frac.lt (a b : Frac) : Bool := decide (a.num * b.den < b.num * a.den)
def Frac.max (a b : Frac) : Frac := if a.lt b then b else a
def Frac.floor (a : Frac) : Int := a.num / a.den

/-- The nearest integer, ties to even. -/
def Frac.round (a : Frac) : Int :=
  let q := a.num / a.den
  let r := 2 * (a.num % a.den)
  if r < a.den then q else if (a.den : Int) < r then q + 1 else if q % 2 = 0 then q else q + 1

/-- ⌊log2 v⌋ of a positive fraction. -/
def Frac.log2 (v : Frac) : Int :=
  let e : Int := (Nat.log2 v.num.toNat : Int) - (Nat.log2 v.den : Int)
  if v.lt (pow2 e) then e - 1 else e

/-! ### Encodings (R303 to R307) -/

/-- A small magnitude encoding: mantissa bits, the exponent of the smallest binade, whether there is only that binade
(fixed point), the code of the largest finite magnitude, and the code width with sign. -/
structure ElFmt where
  mbits : Nat
  emin  : Int
  fixed : Bool
  top   : Nat
  width : Nat
  deriving DecidableEq, Repr, Inhabited

def e4m3 : ElFmt := ⟨3, -6, false, 0x7E, 8⟩
def e5m2 : ElFmt := ⟨2, -14, false, 0x7B, 8⟩
def e3m2 : ElFmt := ⟨2, -2, false, 0x1F, 6⟩
def e2m3 : ElFmt := ⟨3, 0, false, 0x1F, 6⟩
def e2m1 : ElFmt := ⟨1, 0, false, 0x7, 4⟩
def int8 : ElFmt := ⟨6, 0, true, 127, 8⟩
/-- UE5M3, the scale of the Koriviavo formats (R304). -/
def ue5m3 : ElFmt := ⟨3, -14, false, 0xFE, 8⟩
/-- BF16 and FP16 magnitudes. -/
def bf16 : ElFmt := ⟨7, -126, false, 0x7F7F, 16⟩
def fp16 : ElFmt := ⟨10, -14, false, 0x7BFF, 16⟩

/-- The magnitude a code stands for. -/
def ElFmt.val (f : ElFmt) (code : Nat) : Frac :=
  let m := 2 ^ f.mbits
  if f.fixed ∨ code < m then (Frac.ofInt code).mul (pow2 (f.emin - f.mbits))
  else (Frac.ofInt (m + code % m : Nat)).mul (pow2 (((code / m : Nat) : Int) - 1 + f.emin - f.mbits))

/-- The code at or below a magnitude, and how far the magnitude lies on the way to the next code. -/
def ElFmt.below (f : ElFmt) (v : Frac) : Nat × Frac :=
  if v.num ≤ 0 then (0, ⟨0, 1⟩) else
  let e := if f.fixed then f.emin else if v.log2 < f.emin then f.emin else v.log2
  let w := v.mul (pow2 (f.mbits - e))
  let q := w.floor
  ((e - f.emin).toNat * 2 ^ f.mbits + q.toNat, w.sub (Frac.ofInt q))

/-- Choose between a code and the next: nearest with ties to even, or by the random byte of stochastic rounding (R320). -/
def pick (rand : Option Nat) (code : Nat) (part : Frac) : Nat :=
  match rand with
  | none =>
    if decide (2 * part.num < part.den) then code
    else if decide ((part.den : Int) < 2 * part.num) then code + 1 else code + code % 2
  | some r => if decide ((r : Int) < (part.mul (Frac.ofInt 256)).floor) then code + 1 else code

/-- Round a magnitude to a code; true when it lies above the largest finite one, which it then takes (R318). -/
def ElFmt.round (f : ElFmt) (rand : Option Nat) (v : Frac) : Nat × Bool :=
  if (f.val f.top).lt v then (f.top, true)
  else let (c, p) := f.below v; (min f.top (pick rand c p), false)

/-- The stored code of a sign and a magnitude code: sign bit on top, two's complement for INT8. -/
def ElFmt.code (f : ElFmt) (neg : Bool) (c : Nat) : Nat :=
  if f.fixed then (if neg then (2 ^ f.width - c) % 2 ^ f.width else c) else c + (if neg then 2 ^ (f.width - 1) else 0)

/-! ### Input elements (R315, R340) -/

/-- Decode a 16-bit input element. -/
def inVal (half : Bool) (w : Nat) : InVal :=
  let neg := decide (0x8000 ≤ w % 0x10000)
  if half then
    let e := w / 1024 % 32; let m := w % 1024
    if e = 31 then (if m = 0 then .inf neg else .nan neg)
    else if e = 0 then .fin neg (m * 2 ^ 109) else .fin neg ((1024 + m) * 2 ^ (e + 108))
  else
    let e := w / 128 % 256; let m := w % 128
    if e = 255 then (if m = 0 then .inf neg else .nan neg)
    else if e = 0 then .fin neg m else .fin neg ((128 + m) * 2 ^ (e - 1))

/-- The finite magnitude of an element, 0 for the others. -/
def InVal.mag : InVal → Nat
  | .fin _ m => m
  | _ => 0

/-- The finite value of an element in units of 2^-133, 0 for the others. -/
def InVal.int : InVal → Int
  | .fin neg m => if neg then -(m : Int) else m
  | _ => 0

def InVal.neg : InVal → Bool
  | .fin n _ => n
  | .inf n => n
  | .nan n => n

def InVal.isNan : InVal → Bool
  | .nan _ => true
  | _ => false

def InVal.isInf : InVal → Bool
  | .inf _ => true
  | _ => false

def InVal.isFin : InVal → Bool
  | .fin _ _ => true
  | _ => false

/-- A value in units of 2^-133. -/
def units (i : Int) : Frac := ⟨i, 2 ^ 133⟩

/-! ### Formats and frames (R302, R308 to R310) -/

/-- The geometry of a block format: elements, slot bytes, meta bytes of a block, blocks and element stripes of a frame,
granules and elements of a write unit. -/
structure Blk where
  elems  : Nat
  slot   : Nat
  mbytes : Nat
  blocks : Nat
  strs   : Nat
  unit   : Nat
  unitEl : Nat
  deriving DecidableEq, Repr, Inhabited

/-- The table of R308 by FORMAT code; none for RAW, plain FP8 and reserved codes. -/
def blkOf (fmt : Nat) : Option Blk :=
  match fmt with
  | 3 => some ⟨32, 32, 1, 512, 32, 1, 64⟩
  | 4 => some ⟨32, 32, 1, 512, 32, 1, 64⟩
  | 5 => some ⟨32, 24, 1, 512, 24, 3, 256⟩
  | 6 => some ⟨32, 24, 1, 512, 24, 3, 256⟩
  | 7 => some ⟨32, 16, 1, 512, 16, 1, 128⟩
  | 8 => some ⟨32, 32, 1, 512, 32, 1, 64⟩
  | 9 => some ⟨16, 6, 2, 256, 3, 3, 512⟩
  | 10 => some ⟨16, 4, 1, 512, 4, 1, 256⟩
  | 11 => some ⟨80, 16, 1, 512, 16, 1, 320⟩
  | _ => none

/-- Stripes of a frame: one meta stripe and the element stripes. -/
def Blk.frame (b : Blk) : Nat := 1 + b.strs
/-- Elements of a frame. -/
def Blk.epf (b : Blk) : Nat := b.elems * b.blocks

/-- The element encoding of an MX or plain FP8 format. -/
def elOf (fmt : Nat) : ElFmt :=
  match fmt with
  | 1 => e4m3
  | 2 => e5m2
  | 3 => e4m3
  | 4 => e5m2
  | 5 => e3m2
  | 6 => e2m3
  | 7 => e2m1
  | _ => int8

/-- emax_elem of R303. -/
def emaxOf (fmt : Nat) : Int :=
  match fmt with
  | 3 => 8
  | 4 => 15
  | 5 => 4
  | 6 => 2
  | 7 => 2
  | _ => 0

/-- The element encoding has NaN. -/
def hasNan (fmt : Nat) : Bool := decide (fmt ≤ 4)
/-- The element encoding has infinity. -/
def hasInf (fmt : Nat) : Bool := decide (fmt = 2 ∨ fmt = 4)

/-- Element width in bits within a slot (R309). -/
def elWidth (fmt : Nat) : Nat := if fmt = 9 then 3 else if fmt = 10 then 2 else (elOf fmt).width

/-! ### Stochastic rounding (R320) -/

/-- The random byte of element `i` from the LFSR state `l`. -/
def srByte (l : Word) (i : Nat) : Nat :=
  let t := l ^^^ BitVec.ofNat 32 (i * 0x9E3779B9)
  let t := t ^^^ (t >>> 16)
  fld (t * 0x85EBCA6B#32) 31 24

/-- The rounding of element `i`: nearest-even without a state, else its random byte. -/
def srOf (l : Option Word) (i : Nat) : Option Nat := l.map fun w => srByte w i

/-! ### Quantising one block (R318, R319, R322, R335) -/

/-- One stored element: its code, its stored value when it has one, and whether it saturated. -/
structure QEl where
  code : Nat
  val  : Option Frac
  sat  : Bool
  deriving DecidableEq, Repr, Inhabited

/-- A quantised block: slot bytes, meta, saturations, flushes, error code, saturations as R324 counts them, NaN input,
escape called for by R335. -/
structure QBlock where
  slot  : List Byte
  mword : Nat
  sats  : Nat
  flush : Nat
  err   : Nat
  crit  : Nat
  nan   : Bool
  force : Bool
  deriving DecidableEq, Repr, Inhabited

/-- The largest finite magnitude of a block, in units of 2^-133. -/
def amax (xs : List InVal) : Nat := xs.foldl (fun m x => max m x.mag) 0

/-- The exponent of an MX scale (R318). -/
def mxExp (emax : Int) (am : Nat) : Int :=
  if am = 0 then -127 else
  let e := (units am).log2 - emax
  if e < -127 then -127 else if 127 < e then 127 else e

/-- One MX or plain FP8 element under the scale 2^xe. `fr` gives the unstated NaN payload. -/
def mxEl (fmt : Nat) (xe : Int) (rand : Option Nat) (fr : Nat) (x : InVal) : QEl :=
  let f := elOf fmt
  let sgn := if x.neg then -1 else 1
  match x with
  | .fin neg m =>
    let (c, s) := f.round rand ((units m).mul (pow2 (-xe)))
    ⟨f.code neg c, some ((f.val c).mul (pow2 xe) |>.mul (Frac.ofInt sgn)), s⟩
  | .inf neg =>
    if hasInf fmt then ⟨f.code neg 0x7C, none, false⟩
    else ⟨f.code neg f.top, some ((f.val f.top).mul (pow2 xe) |>.mul (Frac.ofInt sgn)), true⟩
  | .nan neg =>
    if hasInf fmt then ⟨f.code neg (0x7D + fr % 3), none, false⟩
    else if hasNan fmt then ⟨f.code neg 0x7F, none, false⟩ else ⟨0, none, false⟩

/-- Quotient x/S in units of 2^-133, S a code of UE5M3 other than 0. -/
def overS (s : Nat) (x : Int) : Frac := (units x).div (ue5m3.val s)

/-- Round a scaled value to an integer level between `lo` and `hi`; magnitudes round by R320. -/
def roundLevel (rand : Option Nat) (lo hi : Int) (v : Frac) : Int :=
  let a := v.abs
  let n : Int := pick rand a.floor.toNat (a.sub (Frac.ofInt a.floor))
  let q := if v.num < 0 then -n else n
  if q < lo then lo else if hi < q then hi else q

/-- One KP3 element: scale code, offset. A NaN is stored as 0 is (R335; DEDUCED, log entry 4). -/
def kp3El (s : Nat) (o : Int) (rand : Option Nat) (fr : Nat) (x : InVal) : QEl :=
  let mk := fun (q : Int) (sat : Bool) =>
    (⟨(q % 8).toNat, some ((ue5m3.val s).mul ((Frac.ofInt q).add ⟨o, 8⟩)), sat⟩ : QEl)
  match x with
  | .inf neg => mk (if neg then -4 else 3) true
  | _ =>
    if s = 0 then { mk (sext 3 fr) (decide (fr / 8 % 2 = 1)) with val := some ⟨0, 1⟩ } else
    let v := (overS s x.int).sub ⟨o, 8⟩
    mk (roundLevel rand (-4) 3 v) (v.lt ⟨-9, 2⟩ || Frac.lt ⟨7, 2⟩ v)

/-- The value of a KP2 code in half scales. -/
def kp2Val (s c : Nat) : Frac := (ue5m3.val s).mul ⟨2 * (c : Int) - 3, 2⟩

/-- One KP2 element: the level nearest x/S (R319); stochastic rounding between the inner levels is not stated. A NaN is
stored as 0 is (R335; DEDUCED, log entry 4). -/
def kp2El (s : Nat) (rand : Option Nat) (fr : Nat) (x : InVal) : QEl :=
  let mk := fun (c : Nat) (sat : Bool) => (⟨c, some (kp2Val s c), sat⟩ : QEl)
  match x with
  | .inf neg => mk (if neg then 0 else 3) true
  | _ =>
    if s = 0 then { mk (fr % 4) (decide (fr / 8 % 2 = 1)) with val := some ⟨0, 1⟩ } else
    let v := overS s x.int
    let sat := Frac.lt ⟨2, 1⟩ v.abs
    match rand with
    | none =>
      let k := (v.add ⟨3, 2⟩).round
      mk (if k < 0 then 0 else if 3 < k then 3 else k.toNat) sat
    | some r =>
      if v.abs.lt ⟨1, 2⟩ then mk (1 + fr % 2) sat else
      let far := if Frac.lt v.abs ⟨3, 2⟩ then
          decide ((r : Int) < ((v.abs.sub ⟨1, 2⟩).mul (Frac.ofInt 256)).floor) else true
      mk (if v.num < 0 then (if far then 0 else 1) else (if far then 3 else 2)) sat

/-- One KPT element, as the trit plus 1. A NaN is stored as 0 is (R335). -/
def kptEl (s : Nat) (rand : Option Nat) (fr : Nat) (x : InVal) : QEl :=
  let mk := fun (t : Int) (sat : Bool) => (⟨(t + 1).toNat, some ((ue5m3.val s).mul (Frac.ofInt t)), sat⟩ : QEl)
  match x with
  | .inf neg => mk (if neg then -1 else 1) true
  | _ =>
    if s = 0 then { mk ((fr % 3 : Nat) - 1 : Int) (decide (fr / 8 % 2 = 1)) with val := some ⟨0, 1⟩ } else
    let v := overS s x.int
    mk (roundLevel rand (-1) 1 v) (Frac.lt ⟨3, 2⟩ v.abs)

/-- A UE5M3 scale rounded to nearest even, at most 0xFE. -/
def scaleNear (v : Frac) : Nat := let (c, p) := ue5m3.below v; min 0xFE (pick none c p)

/-- The smallest UE5M3 scale at or above a value, at most 0xFE. -/
def scaleUp (v : Frac) : Nat := let (c, p) := ue5m3.below v; min 0xFE (if p.num = 0 then c else c + 1)

/-- The finite values of a block, in units of 2^-133. -/
def finInts (xs : List InVal) : List Int := (xs.filter InVal.isFin).map InVal.int

/-- The largest and smallest of a list of integers, 0 for none. -/
def intMax : List Int → Int
  | [] => 0
  | x :: t => t.foldl max x
def intMin : List Int → Int
  | [] => 0
  | x :: t => t.foldl min x

/-- Scale and offset of a KP3 block (R319). `fr` gives the offset where the scale is 0. -/
def kp3Scale (fr : Nat) (xs : List InVal) : Nat × Int :=
  let l := finInts xs
  let hi := intMax l
  let lo := intMin l
  let s := scaleUp ((units (hi - lo)).mul ⟨1, 7⟩)
  if s = 0 then (0, sext 4 fr) else
  let o := ((overS s (hi + lo)).mul (Frac.ofInt 4) |>.add (Frac.ofInt 4)).round
  (s, if o < -8 then -8 else if 7 < o then 7 else o)

/-- Scale of a KP2 block. -/
def kp2Scale (xs : List InVal) : Nat := scaleNear ((units (amax xs)).mul ⟨2, 3⟩)

/-- Scale of a KPT block. -/
def kptScale (xs : List InVal) : Nat :=
  scaleNear ((units ((xs.map InVal.mag).sum : Nat)).mul ⟨1, xs.length⟩)

/-- Pack codes of `w` bits, the first lowest (R309). -/
def packBits (w : Nat) : List Nat → Nat
  | [] => 0
  | c :: t => c + 2 ^ w * packBits w t

/-- Pack trits five to a byte (R307). -/
def packTrits (l : List Nat) : Nat → List Byte
  | 0 => []
  | n + 1 => BitVec.ofNat 8 ((l.take 5).foldr (fun t a => t + 3 * a) 0) :: packTrits (l.drop 5) n

/-- Elements whose non-zero input is stored as zero (R322); an infinity and a NaN are not zero. -/
def flushes (xs : List InVal) (es : List QEl) : Nat :=
  ((xs.zip es).filter fun p => !(p.1.isFin && p.1.mag == 0) && (match p.2.val with | some v => decide (v.num = 0) | none => false)).length

/-- The error code of a block (R322): an infinity stored as a finite level is infinitely far off; a NaN is no distance from anything. -/
def errCode (xs : List InVal) (es : List QEl) : Nat :=
  let am := amax xs
  if am = 0 then 0 else
  if (xs.zip es).any fun p => p.1.isInf && p.2.val.isSome then 255 else
  let worst : Frac := ((xs.zip es).filter fun p => !p.1.isNan).foldl (fun (m : Frac) p => match p.2.val with
    | some v => m.max ((units p.1.int).sub v).abs
    | none => m) ⟨0, 1⟩
  min 255 ((worst.mul (Frac.ofInt 256)).div (units am)).floor.toNat

/-- An input as a number. -/
def InVal.key : InVal → Nat
  | .fin neg m => 4 * m + b2n neg
  | .inf neg => 2 + 4 * b2n neg
  | .nan neg => 3 + 4 * b2n neg

/-- What the free values of a block may depend on: its format and inputs alone with nearest-even rounding; with stochastic rounding also
the LFSR state and the block's place in its request (R323). -/
def freeKey (fmt : Nat) (l : Option Word) (i0 : Nat) (xs : List InVal) : List Nat :=
  (match l with | some w => [fmt, w.toNat, i0] | none => [fmt]) ++ xs.map InVal.key

/-- Quantise one block of a block format, or one element of plain FP8 (R318 to R322, R335). `l` is the LFSR state for
stochastic rounding, `i0` the index of the block's first element in the request. -/
def quantBlock (fmt : Nat) (l : Option Word) (i0 : Nat) (xs : List InVal) : QBlock :=
  let fr := Config.changerFree (freeKey fmt l i0 xs)
  let ix := (List.range xs.length).zip xs
  let nan := xs.any InVal.isNan
  let odd := (xs.filter InVal.isNan).length
  let fin := fun (es : List QEl) (slot : List Byte) (mword : Nat) (force : Bool) =>
    let sats := (es.filter QEl.sat).length
    let kept := ((xs.zip es).filter fun p => p.1.isInf && !p.2.sat).length
    (⟨slot, mword, sats, flushes xs es, errCode xs es, sats + kept + odd, nan, force⟩ : QBlock)
  match fmt with
  | 9 =>
    let (s, o) := kp3Scale (fr 1024) xs
    let es := ix.map fun p => kp3El s o (srOf l (i0 + p.1)) (fr p.1) p.2
    fin es (natBytes 6 (packBits 3 (es.map QEl.code))) (s + 256 * (o % 16).toNat) nan
  | 10 =>
    let s := kp2Scale xs
    let es := ix.map fun p => kp2El s (srOf l (i0 + p.1)) (fr p.1) p.2
    fin es (natBytes 4 (packBits 2 (es.map QEl.code))) s nan
  | 11 =>
    let s := kptScale xs
    let es := ix.map fun p => kptEl s (srOf l (i0 + p.1)) (fr p.1) p.2
    fin es (packTrits (es.map QEl.code) 16) s nan
  | _ =>
    let xe := if fmt ≤ 2 then 0 else mxExp (emaxOf fmt) (amax xs)
    let es := ix.map fun p => mxEl fmt xe (srOf l (i0 + p.1)) (fr p.1) p.2
    let w := (elOf fmt).width
    let slot := w * xs.length / 8
    if nan && !hasNan fmt then
      { fin es (List.replicate slot 0) 0xFF false with
        flush := 0, err := if amax xs = 0 then 0 else fr 2048 % 256 }
    else fin es (natBytes slot (packBits w (es.map QEl.code))) (xe + 127).toNat false

/-! ### Escape records and headers (R325, R326) -/

/-- Runs of 32 elements. -/
def runs32 (xs : List InVal) : List (List InVal) :=
  (List.range ((xs.length + 31) / 32)).map fun r => (xs.drop (32 * r)).take 32

/-- The record of an escaped block: E4M3 elements, which have one NaN, E8M0 scales, zeros, 0xA0 OR TAG (R326). -/
def escRecord (l : Option Word) (i0 tag : Nat) (xs : List InVal) : List Byte :=
  let qs := (runs32 xs).map fun r => (mxExp 8 (amax r), r)
  let els := qs.flatMap fun q => q.2.map fun x => (q.1, x)
  let codes := ((List.range els.length).zip els).map fun p =>
    BitVec.ofNat 8 (mxEl 3 p.2.1 (srOf l (i0 + p.1)) 0 p.2.2).code
  let body := codes ++ qs.map fun q => BitVec.ofNat 8 (q.1 + 127).toNat
  let len := if xs.length ≤ 32 then 64 else 128
  body ++ List.replicate (len - 1 - body.length) 0 ++ [BitVec.ofNat 8 (0xA0 + tag % 16)]

/-- An escape header (R325). -/
def escHeader (tag mark index : Nat) : Nat := tag % 16 + 16 * (mark % 16) + 256 * (index % 2 ^ 24)

/-! ### Reading stored elements (R305 to R307, R313, R334, R336) -/

/-- A stored element's value. -/
inductive OutVal where
  | fin (neg : Bool) (mag : Frac)
  | inf (neg : Bool)
  | nan (neg : Bool)
  /-- A byte no format gives a value: a KPT byte from 243 on (R336). -/
  | bad
  /-- A KP element under the scale 0xFF without an escape mark: no value is stated. -/
  | free
  deriving DecidableEq, Repr, Inhabited

/-- A signed value. -/
def OutVal.ofFrac (v : Frac) : OutVal := .fin (decide (v.num < 0)) v.abs

/-- An MX or plain FP8 element's value under the scale 2^xe. -/
def mxVal (fmt : Nat) (xe : Int) (code : Nat) : OutVal :=
  let f := elOf fmt
  if f.fixed then OutVal.ofFrac (((Frac.ofInt (sext 8 code)).mul (pow2 (-6))).mul (pow2 xe)) else
  let neg := decide (2 ^ (f.width - 1) ≤ code)
  let c := code % 2 ^ (f.width - 1)
  if f.width = 8 ∧ f.top < c then (if hasInf fmt ∧ c = 0x7C then .inf neg else .nan neg)
  else .fin neg ((f.val c).mul (pow2 xe))

/-- A stored code's value in a block with this meta word; MX scale 0xFF is NaN. `five` is the KPT byte. -/
def blkVal (fmt mword code : Nat) : OutVal :=
  match fmt with
  | 9 => if mword % 256 = 0xFF then .free else
    OutVal.ofFrac ((ue5m3.val (mword % 256)).mul ((Frac.ofInt (sext 3 code)).add ⟨sext 4 (mword / 256), 8⟩))
  | 10 => if mword = 0xFF then .free else OutVal.ofFrac (kp2Val mword (code % 4))
  | 11 => if 3 ≤ code then .bad else if mword = 0xFF then .free else
    OutVal.ofFrac ((ue5m3.val mword).mul (Frac.ofInt ((code : Int) - 1)))
  | _ => if fmt ≤ 2 then mxVal fmt 0 code
    else if mword = 0xFF then .nan false else mxVal fmt ((mword : Int) - 127) code

/-- Element `i` of a block's slot, from the slot's bytes as one number; a KPT byte of 243 or more gives 3. -/
def slotCode (fmt slot i : Nat) : Nat :=
  if fmt = 11 then
    let b := slot / 256 ^ (i / 5) % 256
    if 243 ≤ b then 3 else b / 3 ^ (i % 5) % 3
  else slot / 2 ^ (i * elWidth fmt) % 2 ^ elWidth fmt

/-- Expansion to BF16: nearest even, subnormals kept, infinity beyond the range (R313). `fr` fills an unstated value,
which is finite (R336). -/
def toBf16 (fr : Nat) : OutVal → Nat
  | .fin neg v =>
    let (c, p) := bf16.below v
    (if 0x7F80 ≤ pick none c p then 0x7F80 else pick none c p) + (if neg then 0x8000 else 0)
  | .inf neg => 0x7F80 + (if neg then 0x8000 else 0)
  | .nan neg => 0x7FC0 + (if neg then 0x8000 else 0)
  | .bad => 0
  | .free => fr % 0x7F80 + (if fr / 0x10000 % 2 = 1 then 0x8000 else 0)

/-- Expansion to E4M3: beyond 448 becomes 448 and is counted (R313, R336). -/
def toE4m3 (fr : Nat) : OutVal → Nat × Bool
  | .fin neg v =>
    let (c, p) := e4m3.below v
    let k := pick none c p
    ((if 0x7E < k then 0x7E else k) + (if neg then 0x80 else 0), decide (0x7E < k))
  | .inf neg => (0x7E + (if neg then 0x80 else 0), true)
  | .nan neg => (0x7F + (if neg then 0x80 else 0), false)
  | .bad => (0, false)
  | .free => (fr % 0x7F + (if fr / 256 % 2 = 1 then 0x80 else 0), false)

/-- The sentinel's test: a finite non-zero element whose exponent reaches the limit (R334). -/
def sentHit (lim : Int) : OutVal → Bool
  | .fin _ v => decide (0 < v.num ∧ lim ≤ v.log2)
  | _ => false

end Sys2Proof.Machine
end

