-- ==== Sys2Proof/Machine/Ops.lean ====
section
/-! DEFINITION. The shared operations over the register file, the indexed parts of the state, time, the array and its
error correction. -/

namespace Sys2Proof.Machine

/-- The outcome type of every meaning. -/
abbrev Result := Host.Outcome State Fault Refusal

/-- Work that moves no time: clock, wheel position and queue stand, whatever it does. -/
def timeless (f : State → State) (s : State) : State :=
  { f s with
    pending := s.pending, clk := s.clk, run := s.run, late := s.late, wheelPos := s.wheelPos, turns := s.turns,
    railsLost := s.railsLost }

/-- Work that moves no time and does not write the array. -/
def calm (f : State → State) (s : State) : State := { timeless f s with mem := s.mem, ups := s.ups }

/-- A command's effect while the rails are within tolerance (R542); the queue is the step's own. -/
def powered (s : State) (f : State → State) : Result :=
  if s.railsLost then .fault .unguaranteed else .next { f s with pending := s.pending }

/-- The effect of a command that may write the array. -/
def storing (s : State) (f : State → State) : Result := powered s (timeless f)

/-- The effect of a command that neither writes the array nor moves time. -/
def steady (s : State) (f : State → State) : Result := powered s (calm f)

/-! ### The register file (R12 to R15) -/

/-- What an unlisted register holds: its reset value. -/
def regDefault (k : Nat) : Word :=
  match RegId.all[k / 1048576]? with
  | some id => id.reset (k % 1048576)
  | none => 0

/-- A register's stored word in a register file. -/
def rgIn (t : Tab Word) (id : RegId) (i : Nat) : Word := Tab.get (fun _ => id.reset i) t (id.key i)

/-- A register's stored word. -/
def rg (s : State) (id : RegId) (i : Nat := 0) : Word := rgIn s.regs id i

/-- Store a register's word. -/
def setRg (s : State) (id : RegId) (i : Nat) (v : Word) : State :=
  { s with regs := Tab.set (fun _ => id.reset i) s.regs (id.key i) v }

/-- Field [hi:lo] of a register. -/
def rf (s : State) (id : RegId) (i hi lo : Nat) : Nat := fld (rg s id i) hi lo

/-- Set field [hi:lo] of a register. -/
def setRf (s : State) (id : RegId) (i hi lo v : Nat) : State := setRg s id i (setFld (rg s id i) hi lo v)

/-- Add `n` to the saturating counter in field [hi:lo] of a register. -/
def bump (s : State) (id : RegId) (i hi lo : Nat) (n : Nat := 1) : State :=
  setRg s id i (bumpFld (rg s id i) hi lo n)

/-! ### Indexed parts of the state -/

/-- A spare bank never taken into service. -/
def freeSpare : SpareBank := ⟨false, false, 0⟩

/-- A tile with both spare banks free and nothing withdrawn. -/
def freshTile : Tile := ⟨freeSpare, freeSpare, 0⟩

/-- A free spare row. -/
def freshSpareRow : SpareRow := ⟨0, 0, false, false⟩

/-- A column with nothing under way. -/
def idleCol : Col := ⟨[], none, [], ⟨false, false, 0, none⟩, [], []⟩

/-- An empty pending queue. -/
def emptyQueue : LotQueue := ⟨[], 0, false⟩

/-- A read lane of a column that has just been taken: nothing captured yet. -/
def newLane (col : Nat) (use : Use) (master : Nat) (accs : List Acc) (bank due : Nat) : RdLane :=
  ⟨col, use, master, accs, bank, due, none, [], false⟩

/-- A lottery that has granted nothing. -/
def idleLot : Lot := ⟨[], none, 0⟩

/-- A port direction with no batch open. -/
def idleDir : SlotDir := ⟨0, false, 0, [], []⟩

/-- A master not in reset. -/
def idleRst : Rst := ⟨false, false, false, false, false, false, 0, 0, 0⟩

/-- A satchel after reset (R182): SH0 in front, nothing filled. -/
def emptySat : Sat := ⟨false, 0, 0, [], [], [], [], [], [], none, none, [], [], 0, false, false⟩

/-- An address register at the start of a run (R212). -/
def freshReg : AReg := ⟨0, 0, 0, 0, none⟩

/-- A loop counter not open. -/
def freshLoop : LoopC := ⟨false, 0, 0, 0⟩

/-- The number of a requester: the processor AxID names, or 18 for the Steward (R15, R469). -/
def whoNum (w : Who) : Nat := if w.steward then 18 else w.proc

/-- A free context. -/
def idleCtx : Ctx :=
  ⟨false, false, 0, 0, 0, [], 0, List.replicate 8 freshReg, List.replicate 6 freshLoop, [], List.replicate 4 false, 0,
    .none, 0, [], none, false, false, false, false, false⟩

/-- An agent with nothing queued. -/
def idleAgent : Agent := ⟨[], none, false, none, none, none, false, 0⟩

/-- A bell never rung. -/
def freshBell : Bell := ⟨0, 0, 0, none, false⟩

/-- A fault unit with nothing recorded. -/
def freshFu : Fu := ⟨none, false, false, none, false, false, false, 0, [], 0, 0, 0, 0, 0, []⟩

/-- A Tally setting and row with nothing counted, and a unit after reset (R355). -/
def noTaly : TalySet := ⟨false, 0, 0, 0⟩
def emptyRow : TallyRow := ⟨false, 0, 0, 0, 0, 0, 0, 0, 0, 0⟩
def freshTally : Tally := ⟨noTaly, 0, noTaly, false, false, noTaly, noTaly, 0, 0, emptyRow, []⟩

/-- A meta buffer that serves no frame yet. -/
def freshMeta : MetaBuf := ⟨none, []⟩

/-- A link port with nothing queued. -/
def idleLink : Link := ⟨[], [], [], [], 0, 0, 0, 0, 0, 0, 0, 0, 0, 0, 0, ⟨0, none, []⟩⟩

/-- A window entry with nothing under way. -/
def idleWin : WinX := ⟨0, 0, false, 0, [], false, false⟩

/-- The key of a tile. -/
def tileKey (c t : Nat) : Nat := c * 4 + t

def State.tile (s : State) (c t : Nat) : Tile := Tab.get (fun _ => freshTile) s.tiles (tileKey c t)
def State.setTile (s : State) (c t : Nat) (v : Tile) : State :=
  { s with tiles := Tab.set (fun _ => freshTile) s.tiles (tileKey c t) v }
def State.col (s : State) (c : Nat) : Col := Tab.get (fun _ => idleCol) s.cols c
def State.setCol (s : State) (c : Nat) (v : Col) : State := { s with cols := Tab.set (fun _ => idleCol) s.cols c v }
def State.lot (s : State) (k : Nat) : Lot := Tab.get (fun _ => idleLot) s.lots k
def State.setLot (s : State) (k : Nat) (v : Lot) : State := { s with lots := Tab.set (fun _ => idleLot) s.lots k v }
def State.queue (s : State) (k : Nat) : LotQueue := Tab.get (fun _ => emptyQueue) s.queues k
def State.setQueue (s : State) (k : Nat) (v : LotQueue) : State :=
  { s with queues := Tab.set (fun _ => emptyQueue) s.queues k v }
def State.rdDir (s : State) (x : Nat) : SlotDir := Tab.get (fun _ => idleDir) s.slotRd x
def State.setRdDir (s : State) (x : Nat) (v : SlotDir) : State := { s with slotRd := Tab.set (fun _ => idleDir) s.slotRd x v }
def State.wrDir (s : State) (x : Nat) : SlotDir := Tab.get (fun _ => idleDir) s.slotWr x
def State.setWrDir (s : State) (x : Nat) (v : SlotDir) : State := { s with slotWr := Tab.set (fun _ => idleDir) s.slotWr x v }
def State.scalar (s : State) (g : Nat) : List Scalar := Tab.get (fun _ => []) s.scalars g
def State.setScalar (s : State) (g : Nat) (v : List Scalar) : State := { s with scalars := Tab.set (fun _ => []) s.scalars g v }
def State.rst (s : State) (m : Nat) : Rst := Tab.get (fun _ => idleRst) s.rsts m
def State.setRst (s : State) (m : Nat) (v : Rst) : State := { s with rsts := Tab.set (fun _ => idleRst) s.rsts m v }
def State.sat (s : State) (x : Nat) : Sat := Tab.get (fun _ => emptySat) s.sats x
def State.setSat (s : State) (x : Nat) (v : Sat) : State := { s with sats := Tab.set (fun _ => emptySat) s.sats x v }
def State.agent (s : State) (a : Nat) : Agent := Tab.get (fun _ => idleAgent) s.agents a
def State.setAgent (s : State) (a : Nat) (v : Agent) : State := { s with agents := Tab.set (fun _ => idleAgent) s.agents a v }
def State.ctx (s : State) (a k : Nat) : Ctx := Tab.get (fun _ => idleCtx) s.ctxs (a * 2 + k)
def State.setCtx (s : State) (a k : Nat) (v : Ctx) : State :=
  { s with ctxs := Tab.set (fun _ => idleCtx) s.ctxs (a * 2 + k) v }
def State.bell (s : State) (b : Nat) : Bell := Tab.get (fun _ => freshBell) s.bells b
def State.setBell (s : State) (b : Nat) (v : Bell) : State := { s with bells := Tab.set (fun _ => freshBell) s.bells b v }
def State.fu (s : State) (n : Nat) : Fu := Tab.get (fun _ => freshFu) s.fus n
def State.setFu (s : State) (n : Nat) (v : Fu) : State := { s with fus := Tab.set (fun _ => freshFu) s.fus n v }

def State.win (s : State) (w : Nat) : WinX := Tab.get (fun _ => idleWin) s.wins w
def State.setWin (s : State) (w : Nat) (v : WinX) : State := { s with wins := Tab.set (fun _ => idleWin) s.wins w v }
def State.link (s : State) (l : Nat) : Link := Tab.get (fun _ => idleLink) s.links l
def State.setLink (s : State) (l : Nat) (v : Link) : State := { s with links := Tab.set (fun _ => idleLink) s.links l v }
def State.tally (s : State) (x : Nat) : Tally := Tab.get (fun _ => freshTally) s.tallies x
def State.setTally (s : State) (x : Nat) (v : Tally) : State :=
  { s with tallies := Tab.set (fun _ => freshTally) s.tallies x v }
def State.metaBuf (s : State) (x p : Nat) : MetaBuf := Tab.get (fun _ => freshMeta) s.metas (x * 8 + p)
def State.setMetaBuf (s : State) (x p : Nat) (v : MetaBuf) : State :=
  { s with metas := Tab.set (fun _ => freshMeta) s.metas (x * 8 + p) v }
def State.escs (s : State) (x : Nat) : List EscRec := Tab.get (fun _ => []) s.escq x
def State.setEscs (s : State) (x : Nat) (v : List EscRec) : State := { s with escq := Tab.set (fun _ => []) s.escq x v }

/-! ### Time (R8, R9, R117) -/

/-- The present BCLK edge is an ACLK edge. -/
def aclkEdge (s : State) : Bool := s.clk % 2 = 0

/-- The present BCLK edge is an MCLK edge. -/
def mclkEdge (s : State) : Bool := s.clk % 4 = 0

/-- The present BCLK edge is held (R117). -/
def heldEdge (s : State) : Bool := decide (0 < s.heldFrom ∧ s.heldFrom ≤ s.clk ∧ s.clk ≤ s.heldTo)

/-- The BCLK edge after the present one is held: a skip was announced one ACLK ago (R117). -/
def nextHeld (s : State) : Bool := decide (0 < s.heldFrom ∧ s.heldFrom ≤ s.clk + 1 ∧ s.clk + 1 ≤ s.heldTo)

/-- A slot port may sample at this edge (R117). -/
def sampling (s : State) : Bool := aclkEdge s && !nextHeld s

/-- TCLK edges since the release of cold reset (R466). -/
def tclk (s : State) : Nat := s.clk / 12

/-- The timestamp of an event at this edge: FU.TSTAMP at the first TCLK edge at or after it (R466). -/
def stamp (s : State) : Nat := (s.clk + 11) / 12

/-- The first ACLK edge at or after running edge `r`. Running edges pair up by ACLK, so even running edges are ACLK
edges (R100, R117). -/
def aclkAt (r : Nat) : Nat := (r + 1) / 2 * 2

/-! ### The array (R34 to R41) -/

/-- What a byte that is not listed reads as: 0, as the self-test leaves the array (R60). -/
def memDefault : Nat → Byte := fun _ => 0

/-- A byte of the array. -/
def memByte (s : State) (a : Nat) : Byte := Tab.get memDefault s.mem a

/-- Store bytes of the array from address `a` on. -/
def memPut (m : List Host.Cell) (a : Nat) : List Byte → List Host.Cell
  | [] => m
  | b :: t => memPut (Tab.set memDefault m a b) (a + 1) t

/-- The canonical form of the array's cells. -/
abbrev Memory.wf (m : List Host.Cell) : Prop := Tab.wf memDefault m = true

/-- The physical row that bank slot `b` (32, 33 for SB0, SB1) and row slot `r` (2048 on for spare rows) name. -/
def physRow (c t b r : Nat) : Nat := ((t * 64 + c) * 34 + b) * 2064 + r

/-- A physical row as its cells hold it. -/
def readPhys (s : State) (p : Nat) : Coded :=
  ⟨rowOf ((List.range 64).map fun i => memByte s (p * 64 + i)),
   (List.range 4).filterMap fun k =>
     let m := Tab.get (fun _ => 0) s.ups (p * 4 + k)
     if m = 0 then none else some (k, m)⟩

/-- Write a physical row with the codeword it carries (R43, R56). -/
def writePhys (s : State) (p : Nat) (d : Coded) : State :=
  { s with
    mem := memPut s.mem (p * 64) (rowBytes d.data)
    ups := (List.range 4).foldl
      (fun u k => Tab.set (fun _ => 0) u (p * 4 + k) (Tab.get (fun _ => 0) d.ups k)) s.ups }

/-- Fresh check bits: nothing flipped (R43). -/
def fresh (r : Row) : Coded := ⟨r, []⟩

/-! ### Error correction (R39, R42) -/

/-- What a coded word reads as: its data, and whether it was corrected or is uncorrectable. -/
structure WordRead where
  data : BitVec 128
  ce   : Bool
  ue   : Bool
  deriving DecidableEq, Repr

/-- The 8 check bits of a word before they are inverted: a free value (log entry 3) with what R39 and R40 say of the code. Its
columns are of odd weight, so the check bits have the word's parity; the word 0 has check bits 0; those of the word of ones are
not all 0, or a row of ones would pass as valid. -/
def checkBits (d : BitVec 128) : BitVec 8 :=
  let v := if d = 0 then 0 else Config.checkBits d
  let w := if popBits 8 v.toNat % 2 = popBits 128 d.toNat % 2 then v else v ^^^ 1
  if d = BitVec.allOnes 128 ∧ w = 0 then 3 else w

/-- The codeword of a word as its cells hold it: the data in bits [127:0], the check bits inverted above them, and the flips `m`
(R38, R40). -/
def storedWord (d : BitVec 128) (m : BitVec 136) : BitVec 136 := (~~~(checkBits d) ++ d) ^^^ m

/-- The stored codeword of word `k` of a coded row. -/
def Coded.word (r : Coded) (k : Nat) : BitVec 136 := storedWord (rowWord r.data k) (Tab.get (fun _ => 0) r.ups k)

/-- Cell `i` of a row's 544: bit i div 4 of the codeword of word i mod 4 (R41). -/
def Coded.cell (r : Coded) (i : Nat) : Bool := (r.word (i % 4)).getLsbD (i / 4)

/-- Every cell of the row reads 0, or every cell reads 1 (R40). -/
def Coded.blank (r : Coded) : Bool :=
  ((List.range 4).all fun k => r.word k == 0) || (List.range 4).all fun k => r.word k == BitVec.allOnes 136

/-- Flip cell `i` of a row (R41). -/
def Coded.flip (r : Coded) (i : Nat) : Coded :=
  { r with ups := Tab.set (fun _ => 0) r.ups (i % 4) (Tab.get (fun _ => 0) r.ups (i % 4) ^^^ BitVec.ofNat 136 (2 ^ (i / 4))) }

/-- An upset of `n` adjacent cells of a row from cell `i` on (R41). -/
def Coded.upset (r : Coded) (i n : Nat) : Coded := (List.range n).foldl (fun r j => r.flip (i + j)) r

/-- The array after an upset of `n` adjacent cells, from cell `i` on, of physical row `p`: no command brings it about (log entry
46), statements speak of it. -/
def upsetCells (s : State) (p i n : Nat) : State := writePhys s p ((readPhys s p).upset i n)

/-- Read one word through its code (R39): no flip, no error; one flip, corrected; two, uncorrectable; more, free, but for a row
whose cells all read alike (`blank`), every word of which is uncorrectable (R40). -/
def readWord (d : BitVec 128) (m : BitVec 136) (blank : Bool := false) : WordRead :=
  match popBits 136 m.toNat with
  | 0 => ⟨d, false, false⟩
  | 1 => ⟨d, true, false⟩
  | 2 => ⟨d ^^^ m.setWidth 128, false, true⟩
  | _ => if blank then ⟨d ^^^ m.setWidth 128, false, true⟩ else match Config.multiFlip m with
    | .uncorrectable => ⟨d ^^^ m.setWidth 128, false, true⟩
    | .miscorrected x => ⟨d ^^^ m.setWidth 128 ^^^ x, true, false⟩
    | .clean => ⟨d ^^^ m.setWidth 128, false, false⟩

/-- A row read through its four codes: the data, and the masks of corrected and uncorrectable words. -/
structure RowRead where
  data : Row
  ce   : Nat
  ue   : Nat
  deriving DecidableEq, Repr

/-- Read a coded row (R38). -/
def readRow (d : Coded) : RowRead :=
  let w := fun k => readWord (rowWord d.data k) (Tab.get (fun _ => 0) d.ups k) d.blank
  ⟨rowOfWords (w 0).data (w 1).data (w 2).data (w 3).data,
   b2n (w 0).ce + 2 * b2n (w 1).ce + 4 * b2n (w 2).ce + 8 * b2n (w 3).ce,
   b2n (w 0).ue + 2 * b2n (w 1).ue + 4 * b2n (w 2).ue + 8 * b2n (w 3).ue⟩

/-- The row rewritten after correction: corrected words fresh, uncorrectable words as their raw bits (R56). -/
def corrected (d : Coded) : Coded :=
  let w := fun k => readWord (rowWord d.data k) (Tab.get (fun _ => 0) d.ups k) d.blank
  let x := fun k => if (w k).ue then rowWord d.data k else (w k).data
  ⟨rowOfWords (x 0) (x 1) (x 2) (x 3), d.ups.filter fun e => (w e.1).ue⟩

/-! ### Bank map and remap tables (R48, R49, R54, R63) -/

/-- The bank slot that serves bank position `b`: SB0, SB1, or the bank itself. -/
def servingBank (ti : Tile) (b : Nat) : Nat :=
  if ti.sb0.serving ∧ ti.sb0.bank = b then 32 else if ti.sb1.serving ∧ ti.sb1.bank = b then 33 else b

/-- Key of spare row `e` of bank slot `b`. -/
def spareKey (c t b e : Nat) : Nat := ((c * 4 + t) * 34 + b) * 16 + e

/-- Spare row `e` of bank slot `b` of a tile. -/
def spareRow (s : State) (c t b e : Nat) : SpareRow := Tab.get (fun _ => freshSpareRow) s.spares (spareKey c t b e)

/-- Store a spare row's entry. -/
def setSpareRow (s : State) (c t b e : Nat) (v : SpareRow) : State :=
  { s with spares := Tab.set (fun _ => freshSpareRow) s.spares (spareKey c t b e) v }

/-- The spare row that serves a logical row of a bank slot, if one does. -/
def servingSpare (s : State) (c t b r : Nat) : Option Nat :=
  (List.range 16).find? fun e => let x := spareRow s c t b e; x.valid && x.lrow == r

/-- The physical row of a logical row of a bank slot. -/
def rowInBank (s : State) (c t b r : Nat) : Nat :=
  match servingSpare s c t b r with
  | some e => physRow c t b (2048 + e)
  | none => physRow c t b r

/-- The bank slot a granule access reaches: banks 64 and above name a bank slot physically (the Steward's copy writes). -/
def slotOf (s : State) (c : Nat) (a : Acc) : Nat :=
  if 64 ≤ a.bank then a.bank - 64 else servingBank (s.tile c a.tier) a.bank

/-- The physical row of a granule access (R54, R63). -/
def physOf (s : State) (c : Nat) (a : Acc) : Nat :=
  if 64 ≤ a.bank then physRow c a.tier (a.bank - 64) a.row else rowInBank s c a.tier (slotOf s c a) a.row

/-- A granule access named by its bank row: tier, bank slot and row slot, whatever the maps say later. -/
def physAcc (s : State) (c : Nat) (a : Acc) : Acc :=
  if 64 ≤ a.bank then a else
  match servingSpare s c a.tier (slotOf s c a) a.row with
  | some e => ⟨a.tier, 64 + slotOf s c a, 2048 + e⟩
  | none => ⟨a.tier, 64 + slotOf s c a, a.row⟩

/-- Where a copy writes the row it copies: spare row `dst` of the bank, or the row of the spare bank (R48, R49). -/
def copyTarget (s : State) (c : Nat) (k : Copy) (row : Nat) : Acc :=
  if k.retire then ⟨k.tier, 64 + 32 + k.dst, row⟩
  else ⟨k.tier, 64 + servingBank (s.tile c k.tier) k.bank, 2048 + k.dst⟩

/-- The copy destination a client write to this granule also goes to (R53), or none. -/
def copyDest (s : State) (c : Nat) (a : Acc) : Option Acc :=
  match (s.col c).copy with
  | some k =>
    if k.tier = a.tier ∧ k.bank = a.bank ∧ (k.retire ∨ k.row = a.row) then some (copyTarget s c k a.row) else none
  | none => none

/-- The octet of a bank position is withdrawn (R50). -/
def octetOut (s : State) (c t o : Nat) : Bool := ((s.tile c t).octOut >>> o) % 2 = 1

/-! ### The deferral buffer (R111, R112) -/

/-- The entry's granule for a physical row, if the column's buffer holds one. -/
def deferFind (s : State) (c p : Nat) : List DeferEntry → Option Coded
  | [] => none
  | e :: t => match e.grans.find? fun g => physOf s c g.1 == p with
    | some g => some g.2
    | none => deferFind s c p t

/-- The deferral entry's granule for a bank row of column `c` (R112), or none. -/
def deferred (s : State) (c : Nat) (a : Acc) : Option Coded := deferFind s c (physOf s c a) (s.col c).defer

/-- A granule as a lane finds it in the column before any write of the same slot: the deferral entry's, else the bank's. -/
def granNow (s : State) (c : Nat) (a : Acc) : Coded :=
  match deferred s c a with
  | some d => d
  | none => readPhys s (physOf s c a)

/-! ### Other coded memories (R208, R298, R349, R389, R393) -/

/-- Memories of 32-bit words with a (39,32) code; bells and credit counters keep their values elsewhere. -/
inductive Store where
  | itin
  | tally
  | pmap
  | bell
  | sbox
  | credit
  deriving DecidableEq, Repr

/-- The site of a word's flipped codeword bits. -/
def Store.site (k : Store) (i : Nat) : Nat :=
  (match k with | .itin => 0 | .tally => 1 | .pmap => 2 | .bell => 3 | .sbox => 4 | .credit => 5) * 2 ^ 32 + i

/-- A word read through its (39,32) code. -/
structure CodedWord where
  data : Word
  ce   : Bool
  ue   : Bool
  deriving DecidableEq, Repr

/-- The stored words of a memory. -/
def State.words (s : State) : Store → Tab Word
  | .itin => s.store
  | .tally => s.tallyMem
  | .pmap => s.pmaps
  | .bell => []
  | .sbox => s.sbox
  | .credit => []

/-- Read word `i` of a memory: one flip corrected, two uncorrectable, more as R39 leaves them. -/
def loadWord (s : State) (k : Store) (i : Nat) : CodedWord :=
  let r := readWord ((Tab.get (fun _ => 0) (s.words k) i).setWidth 128) (Tab.get (fun _ => 0) s.upsOther (k.site i))
  ⟨r.data.setWidth 32, r.ce, r.ue⟩

/-- Write word `i` of a memory with fresh check bits. -/
def storeWord (s : State) (k : Store) (i : Nat) (v : Word) : State :=
  let s1 := { s with upsOther := Tab.set (fun _ => 0) s.upsOther (k.site i) 0 }
  match k with
  | .itin => { s1 with store := Tab.set (fun _ => 0) s1.store i v }
  | .tally => { s1 with tallyMem := Tab.set (fun _ => 0) s1.tallyMem i v }
  | .pmap => { s1 with pmaps := Tab.set (fun _ => 0) s1.pmaps i v }
  | .bell => s1
  | .credit => s1
  | .sbox => { s1 with sbox := Tab.set (fun _ => 0) s1.sbox i v }

/-! ### Update counts of the capability list (R533) -/

/-- Places of the update counts: the storage and configuration records; the VERSION of the last full image. -/
def genStorage : Nat := 0
def genConfig : Nat := 1
def fullVersion : Nat := 2

/-- A record has changed: its GEN is even again, two on (R533). -/
def genBump (s : State) (i : Nat) : State :=
  { s with caps := Tab.set (fun _ => 0) s.caps i (Tab.get (fun _ => 0) s.caps i + 2) }

/-! ### Round robins -/

/-- Round-robin pointers, by arbiter. -/
def ptr (s : State) (i : Nat) : Nat := Tab.get (fun _ => 0) s.rr i
def setPtr (s : State) (i v : Nat) : State := { s with rr := Tab.set (fun _ => 0) s.rr i v }

/-- The edge at which something last happened, as edge + 1; 0 for never. -/
def lastAt (s : State) (i : Nat) : Nat := Tab.get (fun _ => 0) s.axiLast i
def setLast (s : State) (i : Nat) : State := { s with axiLast := Tab.set (fun _ => 0) s.axiLast i (s.clk + 1) }
/-- It happened at this edge. -/
def doneNow (s : State) (i : Nat) : Bool := lastAt s i == s.clk + 1

/-- The first of `n` members, in round-robin order from the one after `last`, that `ok` accepts. Pointers hold the member
served last plus one, so that 0 starts at member 0. -/
def robin (n last : Nat) (ok : Nat → Bool) : Option Nat := ((List.range n).map fun i => (last + i) % n).find? ok

/-- Arbiters: the store's fetch requesters, a porter's fetching channels, its decoder, its read and write halves, the
page-map store's requesters and a porter's looking-up contexts. -/
def ptrFetch : Nat := 0
def ptrFetchCh (p : Nat) : Nat := 1 + p
def ptrDec (p : Nat) : Nat := 32 + p
def ptrRead (p : Nat) : Nat := 48 + p
def ptrWrite (p : Nat) : Nat := 64 + p
def ptrLook : Nat := 80
def ptrLookCh (p : Nat) : Nat := 96 + p

/-- Edges: of an interface's addresses by direction, a porter's decoder step, its halves, the lookups of a requester and the
count of lookups at the last edge that had one. -/
def lastAxi (p i : Nat) (w : Bool) : Nat := p * 8 + i * 2 + b2n w
def lastDec (p : Nat) : Nat := 1000 + p
def lastRead (p : Nat) : Nat := 1016 + p
def lastWrite (p : Nat) : Nat := 1032 + p
def lastLook (r : Nat) : Nat := 1048 + r
def lookCount : Nat := 200

/-- Edges of tally units: a vector read, a porter read (R354). -/
def lastTallyV (x : Nat) : Nat := 1100 + x
def lastTallyP (x : Nat) : Nat := 1132 + x

/-- Edges of a tile's last drain (R113) and of the last thermal skip announced (R570). -/
def lastDrain (c t : Nat) : Nat := 2000 + tileKey c t
def lastSkip : Nat := 2300

end Sys2Proof.Machine
end

