-- ==== Sys2Proof/Machine/Flags.lean ====
section
/-! DEFINITION. Events: fault-unit sources, ledgers, FIRST, curfews, safe-state causes, the row tracker, storage findings,
interrupt pulses and task faults (R46, R264 to R269, R462 to R490). -/

namespace Sys2Proof.Machine

/-! ### Sources (R464) -/

/-- The number of listed sources of a unit, bits 30 and 31 apart. -/
def srcCount (n : Nat) : Nat :=
  if n < 64 then 8 else if n < 80 then 14 else if n = 80 then 20 else if n = 81 then 2 else if n = 82 then 6
  else if n = 83 then 4 else 5

/-- Source `b` of unit `n` is listed (R464). -/
def srcListed (n b : Nat) : Bool := decide (n < 85 ∧ (b < srcCount n ∨ b = 30 ∨ b = 31))

/-- Source `b` of unit `n` is data-class (R464). -/
def dataClass (n b : Nat) : Bool :=
  if n < 64 then decide (b < 4) else if n < 80 then decide (b < 6) else if n = 80 then decide (b < 4)
  else if n = 81 then decide (b = 0) else if n = 82 then decide (b < 2) else if n = 83 then decide (b = 0)
  else decide (b = 1)

/-- Source `b` of unit `n` takes Phijo to the safe state directly (R464). -/
def safeSource (n b : Nat) : Bool := decide (b = 31 ∨ (n = 80 ∧ b = 3) ∨ (n = 82 ∧ b = 0))

/-- STAT bits of unit `n` with ESC set. -/
def escalating (s : State) (n : Nat) : Word := rg s .fuStat n &&& rg s .fuEsc n

/-- The unit number of port group `g`, and the others (R462). -/
def fuPg (g : Nat) : Nat := 64 + g
def fuPorter : Nat := 80
def fuXbar : Nat := 81
def fuCtrl : Nat := 82
def fuSbox : Nat := 83
def fuStw : Nat := 84

/-- Pulse an interrupt source at the next sample of its line (R496). -/
def pulse (s : State) (src : Nat) : State := { s with intPulse := s.intPulse ||| BitVec.ofNat 512 (2 ^ src) }

/-- A cause of the safe state (R488, R490): the first one is recorded and takes effect at the TCLK edge `at_`. -/
def causeSafe (s : State) (cause unit src : Nat) (forced : Bool) (at_ : Nat) : State :=
  if s.safe || s.safeAt.isSome then s else
  let w := BitVec.ofNat 32 (cause + 8 * b2n forced + 16 * unit + 2048 * src)
  { setRg (setRg s .fuSafeInfo 0 w) .fuSafeTime 0 (BitVec.ofNat 32 at_) with safeAt := some (at_ * 12) }

/-- INFO of an event (R467, R470): source, forced, VALID, task. -/
def eventInfo (b : Nat) (forced : Bool) (task : Option Nat) : Word :=
  BitVec.ofNat 32 (b + 32 * b2n forced + 128 + (match task with | some t => 256 * t + 262144 | none => 0))

/-- Place of a data event among those of its BCLK: by source bit, and in a column by the bank of its LOC (R467, R471). -/
def dataKey (n : Nat) (info loc : Word) : Nat :=
  64 * fld info 4 0 + (if n < 64 then fld loc 15 11 + 32 * fld loc 18 18 else 0)

/-- How many of the newest entries, at most `k`, come after key `q`. -/
def ledgerPast (n q : Nat) : Nat → List LedgerEnt → Nat
  | k + 1, e :: t => if q < dataKey n e.info e.loc then 1 + ledgerPast n q k t else 0
  | _, _ => 0

/-- A data-class event enters the ledger: of the events of one BCLK the first four in the order of R467, newest first. -/
def ledgerEnter (s : State) (n : Nat) (info loc det : Word) : State :=
  let u := s.fu n
  let k := if u.dataAt = s.clk then u.dataN else 0
  let p := ledgerPast n (dataKey n info loc) k u.ledger
  let e : LedgerEnt := ⟨info, loc, det, BitVec.ofNat 32 (stamp s)⟩
  if k < 4 then
    let s1 := if u.ledger.length = 8 then bump s .fuLedgerStat n 31 16 else s
    s1.setFu n { u with ledger := (u.ledger.take p ++ e :: u.ledger.drop p).take 8, dataAt := s.clk, dataN := k + 1 }
  else
    let s1 := bump s .fuLedgerStat n 31 16
    if p = 0 then s1 else s1.setFu n { u with ledger := (u.ledger.take p ++ e :: u.ledger.drop p).drop 1 }

/-- A control-class event is offered to FIRST (R470). -/
def firstOffer (s : State) (n b : Nat) (info loc det : Word) : State :=
  let f := rg s .fuFirst n
  let u := s.fu n
  if bitOf f 7 && !(u.ctrlAt == s.clk && decide (b < fld f 4 0)) then setRg s .fuFirst n (setBit f 6 true)
  else
    let s1 := setRg s .fuFirst n (setBit info 6 (bitOf f 7))
    let s2 := setRg (setRg (setRg s1 .fuFirstLoc n loc) .fuFirstDetail n det) .fuFirstTime n (BitVec.ofNat 32 (stamp s))
    s2.setFu n { u with ctrlAt := s.clk }

/-- Start the curfew of a unit that an escalating event puts in fault (R476, R479). -/
def armCurfew (s : State) (n b : Nat) (forced : Bool) : State :=
  if bitOf (rg s .fuEsc n) b then
    let u := { s.fu n with lastEsc := stamp s }
    match u.curfew with
    | some (t0, src, _, at_) =>
      s.setFu n (if at_ = s.clk ∧ b < src then { u with curfew := some (t0, b, forced, at_) } else u)
    | none =>
      s.setFu n (if u.spent || u.esc || s.safe then u else { u with curfew := some (stamp s, b, forced, s.clk) })
  else s

/-- Note the sources with an event at this edge: a clear of the same edge comes before them (R477). -/
def noteNow (s : State) (n b : Nat) : State :=
  let u := s.fu n
  s.setFu n { u with nowAt := s.clk, nowBits := (if u.nowAt = s.clk then u.nowBits else 0) ||| BitVec.ofNat 32 (2 ^ b) }

/-- An event of source `b` in unit `n` (R463, R466 to R476, R488). -/
def raise (s : State) (n b : Nat) (loc : Nat := 0) (det : Nat := 0) (task : Option Nat := none) (forced : Bool := false) :
    State :=
  if srcListed n b then
    let info := eventInfo b forced task
    let s := if s.life = .retained then { s with wake := true } else s
    let s1 := noteNow (bump (setRg s .fuStat n (setBit (rg s .fuStat n) b true)) .fuEvents n 31 0) n b
    let s2 := if dataClass n b then ledgerEnter s1 n info (BitVec.ofNat 32 loc) (BitVec.ofNat 32 det)
      else firstOffer s1 n b info (BitVec.ofNat 32 loc) (BitVec.ofNat 32 det)
    let s3 := armCurfew s2 n b forced
    if safeSource n b then causeSafe s3 (if b = 31 then 3 else 4) n b forced (tclk s + 1) else s3
  else s

/-! ### Storage findings (R46, R474, R475) -/

/-- The logical row that the Steward's write to a copy's destination carries, with its bank slot (R471, R568). -/
def copyHome (s : State) (c : Nat) (a : Acc) : Nat × Nat :=
  let slot := slotOf s c a
  let kept := if a.row < 2048 then (slot, a.row) else (slot, (spareRow s c a.tier slot (a.row - 2048)).lrow)
  match (s.col c).copy with
  | some k =>
    if k.tier = a.tier ∧ k.retire ∧ slot = 32 + k.dst then (k.bank, a.row)
    else if k.tier = a.tier ∧ !k.retire ∧ slot = servingBank (s.tile c k.tier) k.bank ∧ a.row = 2048 + k.dst then (slot, k.row)
    else kept
  | none => kept

/-- LOC of a storage event (R471). -/
def storLoc (s : State) (c : Nat) (a : Acc) : Nat :=
  let (b, r) := if 64 ≤ a.bank then copyHome s c a else (slotOf s c a, a.row)
  if b < 32 then r + 2048 * b + 65536 * a.tier else r + 2048 * (b - 32) + 65536 * a.tier + 262144

/-- Column `c` is quarantined (R481). -/
def quarantined (s : State) (c : Nat) : Bool := (s.fu c).quar

/-- A lasting judgement reaches the column's queue, or is discarded or dropped (R57). -/
def judge (s : State) (c : Nat) (a : Acc) : State :=
  if quarantined s c || octetOut s c a.tier (a.bank / 8) then s else
  let k := s.col c
  if k.remapQ.length < 4 then s.setCol c { k with remapQ := k.remapQ ++ [⟨false, a.tier, a.bank, a.row, false⟩] }
  else raise (bump s .colStorStat c 31 16) c 6 (storLoc s c a)

/-- The tracker's threshold and window of a column unit (R493 WIN). -/
def trackThr (s : State) (c : Nat) : Nat := max 2 (rf s .fuWin c 19 16)
def trackWin (s : State) (c : Nat) : Nat := max 1 (rf s .fuWin c 15 0) * 1000

/-- The oldest tracked row. -/
def oldestTrack : List Track → Option Track
  | [] => none
  | e :: t => match oldestTrack t with
    | some f => some (if f.time < e.time then f else e)
    | none => some e

/-- The row tracker takes one correcting access (R474, R475). An entry whose window is over at the access's timestamp is freed
at that TCLK edge, so the access is the first of a new one. -/
def trackRow (s : State) (c : Nat) (a : Acc) (det : Nat) : State :=
  let loc := storLoc s c a
  let u := s.fu c
  match u.track.find? fun e => e.loc == loc with
  | some e =>
    if trackWin s c < stamp s - e.time then
      s.setFu c { u with track := (u.track.filter fun f => f.loc != loc) ++ [⟨loc, 1, stamp s⟩] }
    else if trackThr s c ≤ e.count + 1 then
      let s1 := s.setFu c { u with track := u.track.filter fun f => f.loc != loc }
      judge (raise (bump s1 .fuJudged c 31 0) c 3 loc det) c a
    else s.setFu c { u with track := u.track.map fun f => if f.loc = loc then { f with count := f.count + 1 } else f }
  | none =>
    if u.track.length < 16 then s.setFu c { u with track := u.track ++ [⟨loc, 1, stamp s⟩] }
    else
      let keep := match oldestTrack u.track with
        | some o => u.track.filter fun f => f.loc != o.loc
        | none => []
      (bump s .fuTrack c 31 16).setFu c { u with track := keep ++ [⟨loc, 1, stamp s⟩] }

/-- Who finds an error (R471 DETAIL). -/
inductive Finder where
  | client
  | rmw
  | scrub
  | copy
  | drain
  deriving DecidableEq, Repr

def Finder.code : Finder → Nat
  | .client => 0
  | .rmw => 1
  | .scrub => 2
  | .copy => 3
  | .drain => 4

/-- Count and report what a read of one bank row found (R46, R468, R474). -/
def found (s : State) (c : Nat) (a : Acc) (r : RowRead) (f : Finder) (task : Option Nat := none) : State :=
  let i := c * 4 + a.tier
  let loc := storLoc s c a
  let s1 := if r.ce = 0 then s else
    raise (bump s .colTierCeCnt i 31 0 (popBits 4 r.ce)) c 0 loc (r.ce + 16 * f.code) task
  let s2 := if r.ue = 0 then s1 else
    raise (bump s1 .colTierUeCnt i 15 0 (popBits 4 r.ue)) c (if f = .drain then 2 else 1) loc (r.ue + 16 * f.code) task
  if r.ce ≠ 0 ∧ f ≠ .drain then trackRow s2 c a (r.ce + 16 * f.code) else s2

/-- `found` over the granules of an access. -/
def foundAll (s : State) (c : Nat) (l : List (Acc × Coded)) (f : Finder) (task : Option Nat := none) : State :=
  l.foldl (fun s g => found s c g.1 (readRow g.2) f task) s

/-! ### Task faults (R236, R264, R268) -/

/-- A fault of a run of `task` met by an agent at this edge; the abort takes effect two BCLK edges later (R264). A further fault sets
MULTI, in the record too once that is filled (R268, R274). -/
def faultTask (s : State) (task agent start off cause detail addr space : Nat) : State :=
  match s.aborts.find? fun b => b.task == task with
  | some b0 =>
    let s := match b0.recNo with
      | some i => setRf s .tabtRecInfo i 2 2 1
      | none => s
    { s with aborts := s.aborts.map fun b =>
        if b.task = task then
          if b.at_ = s.clk ∧ agent < b.agent then
            { b with multi := true, cause := cause, detail := detail, agent := agent, start := start, off := off,
                     addr := addr, space := space }
          else { b with multi := true }
        else b }
  | none =>
    { s with aborts := s.aborts ++
        [⟨task, s.clk, stamp s, cause, detail, agent, start, off, addr, space, false, false, none, [], [], []⟩] }

/-- The task's abort is under way and not done (R266). -/
def aborting (s : State) (task : Nat) : Bool := s.aborts.any fun b => b.task == task

/-- The task's abort has taken effect and is not done. -/
def abortFired (s : State) (task : Nat) : Bool := s.aborts.any fun b => b.task == task && b.fired

/-! ### Status codes (R158, R269) -/

/-- The fault-unit source of a status in a port group's unit; none where another unit records it. -/
def statusBit (st : Nat) : Option Nat :=
  match st with
  | 2 => some 6
  | 3 => some 7
  | 4 => some 8
  | 6 => some 9
  | 8 => some 3
  | 9 => some 2
  | _ => none

/-- The abort cause of a status met by a piece (R269). -/
def statusCause (st : Nat) : Nat :=
  match st with
  | 2 => 0x06
  | 3 => 0x07
  | 4 => 0x08
  | 5 => 0x09
  | 7 => 0x0A
  | _ => 0x10

/-- The porter-cluster source of a refused piece of a porter or link port (R86, R87). -/
def porterBit (st : Nat) : Option Nat :=
  match st with
  | 2 => some 4
  | 3 => some 5
  | 4 => some 6
  | _ => none

/-! ### Coded credit counters (R389) -/

/-- Numbers of the coded credit counters: the channels' by 16p + k, then four for each link port. -/
def linkCredit (l k : Nat) : Nat := 256 + 4 * l + k

/-- A credit counter changes: its new value has fresh check bits. -/
def freshCredit (s : State) (i : Nat) : State := { s with upsOther := Tab.set (fun _ => 0) s.upsOther (Store.credit.site i) 0 }

/-- The credit counter's code finds it uncorrectable. -/
def creditUe (s : State) (i : Nat) : Bool := (readWord 0 (Tab.get (fun _ => 0) s.upsOther (Store.credit.site i))).ue

/-- A credit counter meets its code at a spend or a return: where it cannot be corrected nothing is counted and CRD_UE takes Phijo to
the safe state (R389). -/
def creditMeets (s : State) (i loc : Nat) (f : State → State) : State :=
  if creditUe s i then raise s fuPorter 3 loc else freshCredit (f s) i

end Sys2Proof.Machine
end

