-- ==== Sys2Proof/Machine/Operands.lean ====
section
/-! DEFINITION. Where an access goes: region descriptors, address decode, access checks, physical coordinates, the Crossroads
turn, wheel ownership, masters and requesters, passports (R70 to R98, R99 to R104, R116, R123, R444). -/

namespace Sys2Proof.Machine

/-! ### Region descriptors (R74, R95 to R97) -/

/-- A region descriptor as its registers give it. -/
structure Region where
  n : Nat
  valid : Bool
  kind : Nat
  k : Nat
  owner : Nat
  elem : Nat
  annex : Nat
  annexEn : Bool
  pbase : Nat
  xbase : Nat
  rowBase : Nat
  rowCount : Nat
  mask : Nat
  perm : Nat
  deriving DecidableEq, Repr, Inhabited

/-- Read descriptor `n`. -/
def region (s : State) (n : Nat) : Region :=
  let c := rg s .regionCtrl n
  let r := rg s .regionRows n
  ⟨n, bitOf c 0, fld c 3 1, fld c 6 4, fld c 11 8, fld c 13 12, fld c 21 16, bitOf c 22,
   rf s .regionPbase n 16 0 * 8192, rf s .regionXbase n 16 0 * 8192, fld r 10 0, fld r 27 16,
   (rg s .regionColmaskLo n).toNat + (rg s .regionColmaskHi n).toNat * 2 ^ 32, rf s .regionPerm n 9 0⟩

/-- Bit `i` of a permission or class mask. -/
def nbit (v i : Nat) : Bool := (v >>> i) % 2 = 1

/-- The rules of R95 on a descriptor's own fields, the Annex rule apart. -/
def Region.own (r : Region) : Bool :=
  decide (r.kind ≤ 4) && decide (r.k ≤ 6) && popBits 64 r.mask == 2 ^ r.k &&
  decide (1 ≤ r.rowCount) && decide (r.rowBase + r.rowCount ≤ 2048) &&
  (if r.kind = 2 then
     decide (r.rowBase % 8 = 0) && decide (r.rowCount % 8 = 0) && decide ((r.perm >>> 2) % 16 = 0) && !nbit r.perm 8 &&
     nbit r.perm 9
   else decide (r.elem = 0) && decide (r.xbase = 0)) &&
  (nbit r.perm 8 == decide (r.kind = 4))

/-- A valid Annex region (R95). -/
def annexValid (s : State) (n : Nat) : Bool := let r := region s n; r.valid && decide (r.kind = 3) && r.own

/-- The descriptor breaks a rule of R95 on its own fields (R96). -/
def Region.bad (s : State) (r : Region) : Bool :=
  !(r.own && (decide (r.kind = 3) || !r.annexEn || annexValid s r.annex))

/-- REGION[n].STAT.BAD (R96, R97). -/
def regionBad (s : State) (n : Nat) : Bool := (region s n).valid && (region s n).bad s

/-- Capacity in bytes, which is also the aperture's length (R73). -/
def Region.cap (r : Region) : Nat := r.rowCount * 2 ^ (13 + r.k)

/-- The region offset and aperture (true: column aperture) at which a descriptor holds an address. One that lies in both apertures
of a Crossroads, which only writes before the seal can bring about, is taken in the row aperture (DESIGN CHOICE, log entry 52). -/
def Region.holds (r : Region) (a : Nat) : Option (Nat × Bool) :=
  if r.pbase ≤ a ∧ a < r.pbase + r.cap then some (a - r.pbase, false)
  else if r.kind = 2 ∧ r.xbase ≤ a ∧ a < r.xbase + r.cap then some (a - r.xbase, true)
  else none

/-- Decode an address through the lowest-numbered valid descriptor that holds it (R70, R96). -/
def decodeAddr (s : State) (a : Nat) : Option (Region × Nat × Bool) :=
  (List.range 64).findSome? fun n =>
    let r := region s n
    if r.valid && !r.bad s then (r.holds a).map fun p => (r, p.1, p.2) else none

/-! ### Coordinates (R71, R72, R88 to R90) -/

/-- The stripe of a region offset: column index, octet, tier and the row of granule position `j` with its bank. -/
structure Place where
  col  : Nat
  tier : Nat
  oct  : Nat
  deriving DecidableEq, Repr, Inhabited

/-- The column, tier and octet of a region offset. -/
def Region.place (r : Region) (off : Nat) : Place :=
  let sh := if r.kind = 2 then 12 else 9
  ⟨nthSet r.mask ((off >>> sh) % 2 ^ r.k), (off >>> (sh + 2 + r.k)) % 4, (off >>> (sh + r.k)) % 4⟩

/-- The granule access of the granule at position `j` of the 512-byte block at a region offset. -/
def Region.acc (r : Region) (off : Nat) (colAp : Bool) (j : Nat) : Acc :=
  let p := r.place off
  if r.kind = 2 then
    let g := (off >>> 9) % 8
    let i := if colAp then j else g
    let jj := if colAp then g else j
    ⟨p.tier, p.oct * 8 + (i + jj) % 8, r.rowBase + 8 * (off >>> (16 + r.k)) + i⟩
  else ⟨p.tier, p.oct * 8 + j, r.rowBase + (off >>> (13 + r.k))⟩

/-! ### Clients and access checks (R75 to R79, R81, R84, R87) -/

/-- Who reaches P-space, as the checks of R87 see it. -/
inductive Client where
  | matrix (g : Nat)
  | vector (g : Nat)
  | scalar (g : Nat)
  | porter (priv : Bool)
  | linkRead (priv : Bool)
  | linkWrite
  deriving DecidableEq, Repr

/-- The client of slot port `x` (0 to 15 matrix, 16 to 31 vector). -/
def slotClient (x : Nat) : Client := if x < 16 then .matrix x else .vector (x - 16)

/-- Check 3: the class may reach the region's kind (R74, R75, R78, R94). R74 names link reads for a Lodging and every class for a
Hall; a Window's local ports include the outbound reads of a link port; Crossroads and Annex rows name none. -/
def kindAllows (r : Region) (c : Client) : Bool :=
  match r.kind, c with
  | 4, .linkWrite => true
  | _, .linkWrite => false
  | 0, .matrix g => decide (r.owner = g)
  | 0, .vector g => decide (r.owner = g)
  | 0, .scalar g => decide (r.owner = g)
  | 2, .matrix _ => true
  | 2, .porter p => p
  | 2, _ => false
  | 3, .porter _ => true
  | 3, _ => false
  | _, _ => true

/-- Check 4: the permission bit of the class and direction, and P_PRIV (R87, R97). -/
def permAllows (r : Region) (c : Client) (write : Bool) : Bool :=
  let w := b2n write
  match c with
  | .matrix _ => nbit r.perm w
  | .vector _ => nbit r.perm (2 + w)
  | .scalar _ => nbit r.perm (4 + w)
  | .porter p => nbit r.perm (6 + w) && (p || !nbit r.perm 9)
  | .linkRead p => nbit r.perm 6 && (p || !nbit r.perm 9)
  | .linkWrite => nbit r.perm 8

/-- A power domain; reset state ON (R543, R563). -/
def dom (s : State) (d : Nat) : Domain := Tab.get (fun _ => ⟨0, none⟩) s.domains d

/-- The tile's domain and its column's crossbar sector are ON (R546): otherwise the tile serves no access. -/
def tileOn (s : State) (c t : Nat) : Bool := decide ((dom s (64 * t + c)).st = 0 ∧ (dom s (292 + c / 8)).st = 0)

/-- The outcome of the checks: status 0 and the granules (stripe place, access), or the failing status. -/
structure Checked where
  st    : Nat
  quar  : Bool
  reg   : Region
  colAp : Bool
  col   : Nat
  tier  : Nat
  grans : List (Nat × Acc)
  deriving DecidableEq, Repr, Inhabited

/-- A check that failed with a status before a region was found. -/
def refusedAt (st : Nat) : Checked := ⟨st, false, default, false, 0, 0, []⟩

/-- Checks 2 to 5 of R87, with R93's, on `cnt` granules from a byte address. `packed`: the format select names a packed
or MX format. R93's refusal, an access violation, is met before check 5 (DESIGN CHOICE, log entry 52). -/
def checkMapped (s : State) (c : Client) (write packed : Bool) (a cnt : Nat) : Checked :=
  match decodeAddr s a with
  | none => refusedAt 3
  | some (r, off, colAp) =>
    let p := r.place off
    let gs := (List.range cnt).map fun i => let j := (off >>> 6) % 8 + i; (j, r.acc (off / 512 * 512) colAp j)
    let out : Checked := ⟨0, false, r, colAp, p.col, p.tier, gs⟩
    if !kindAllows r c then { out with st := 4 }
    else if !permAllows r c write then { out with st := 4 }
    else if colAp && packed && decide (r.elem ≠ 0) then { out with st := 4 }
    else if quarantined s p.col then { out with st := 5, quar := true }
    else if octetOut s p.col p.tier p.oct || !tileOn s p.col p.tier then { out with st := 5 }
    else out

/-- The five checks on a wide access (R81, R87). -/
def checkWide (s : State) (c : Client) (write packed : Bool) (a cnt : Nat) : Checked :=
  if a % 64 ≠ 0 ∨ cnt = 0 ∨ 8 < (a >>> 6) % 8 + cnt then refusedAt 2 else checkMapped s c write packed a cnt

/-- The five checks on a narrow access of `size` bytes (R84, R87). -/
def checkNarrow (s : State) (c : Client) (write : Bool) (a size : Nat) : Checked :=
  if size = 0 ∨ a % size ≠ 0 then refusedAt 2 else checkMapped s c write false a 1

/-- The checks of R87 on an access of `n` granules to an escape record at `a`, by the Changer of client `c`, for a block packed at
`home`: the Annex reached is the one that the packed block's region names, and the permission bits are that region's (R76, R329). -/
def checkAnnex (s : State) (c : Client) (write : Bool) (home a n : Nat) : Checked :=
  if a % 64 ≠ 0 ∨ n = 0 ∨ 8 < (a >>> 6) % 8 + n then refusedAt 2 else
  match decodeAddr s a, decodeAddr s home with
  | some (r, off, _), some (h, _, _) =>
    let p := r.place off
    let gs := (List.range n).map fun i => let j := (off >>> 6) % 8 + i; (j, r.acc (off / 512 * 512) false j)
    let out : Checked := ⟨0, false, r, false, p.col, p.tier, gs⟩
    if r.kind ≠ 3 ∨ r ≠ region s h.annex then { out with st := 4 }
    else if !permAllows h c write then { out with st := 4 }
    else if quarantined s p.col then { out with st := 5, quar := true }
    else if octetOut s p.col p.tier p.oct || !tileOn s p.col p.tier then { out with st := 5 }
    else out
  | _, _ => refusedAt 3

/-- LOC of an access event: address bits [29:6] (R471). -/
def addrLoc (a : Nat) : Nat := (a >>> 6) % 2 ^ 24

/-- Count or report a refusal at the column: QHITS in quarantine, a mapped-out access otherwise (R52, R481). -/
def mappedOut (s : State) (k : Checked) (a : Nat) (task : Option Nat) : State :=
  if k.quar then bump s .fuQhits k.col 31 0 else raise s k.col 4 (addrLoc a) 5 task

/-! ### The element turn (R91, R92) -/

/-- Element width in bytes of an ELEM code; 0 for none. -/
def elemWidth (code : Nat) : Nat := if code = 0 then 0 else 2 ^ (code - 1)

/-- The element width an access turns by: that of a column aperture, else 0 (R92). -/
def turnOf (k : Checked) : Nat := if k.colAp then elemWidth k.reg.elem else 0

/-- Byte `q` of a stripe of eight granules. -/
def stripeByte (rows : List Row) (q : Nat) : Byte := rowByte (rows.getD (q / 64) 0) (q % 64)

/-- A stripe as a column-aperture access with element width `e` delivers it from its granules by logical row (R92). -/
def turnOut (e : Nat) (rows : List Row) : List Row :=
  if e = 0 then rows else
  (List.range 8).map fun r => rowOf ((List.range 64).map fun b =>
    let q := r * 64 + b
    rowByte (rows.getD (q / e % 8) 0) (q / e / 8 * e + q % e))

/-- The granules by logical row of a stripe given in a column aperture's order (R92). -/
def turnIn (e : Nat) (rows : List Row) : List Row :=
  if e = 0 then rows else
  (List.range 8).map fun i => rowOf ((List.range 64).map fun b =>
    stripeByte rows ((8 * (b / e) + i) * e + b % e))

/-- The eight granule places of a stripe from the granules read, unread places 0 (R150). -/
def stripeRows (gs : List (Nat × Row)) : List Row :=
  (List.range 8).map fun j => match gs.find? fun g => g.1 == j with
    | some g => g.2
    | none => 0

/-! ### Wheels (R99 to R104) -/

/-- The word of slot `p` of column `c` in a wheel set. -/
def wheelWord (s : State) (set c p : Nat) : Word := Tab.get (fun _ => 0) s.wheels (set * 4096 + c * 64 + p)

/-- The set in force `n` running edges ahead: an exchange asked for takes effect at the advance to position 0 (R103). -/
def wheelSetIn (s : State) (n : Nat) : Nat :=
  if s.wheelPend ∧ 64 ≤ s.wheelPos + n then 1 - s.wheelSet else s.wheelSet

/-- The owner of the lane of column `c` that issues `n` running edges ahead (R101, R105, R107). -/
def ownerIn (s : State) (c : Nat) (d : Dir) (n : Nat) : Nat :=
  let w := wheelWord s (wheelSetIn s n) c ((s.wheelPos + n) % 64)
  match d with
  | .rd => fld w 6 0
  | .wr => fld w 22 16

/-- The owner codes of R102. -/
def ownerLegal (v : Nat) : Bool := decide (v = 0 ∨ (0x10 ≤ v ∧ v < 0x40) ∨ (0x40 ≤ v ∧ v < 0x44))

/-- The owner code of slot port `x`. -/
def slotOwner (x : Nat) : Nat := if x < 16 then 0x10 + x else 0x20 + (x - 16)

/-- The owner code of porter `p` and of link port `l`. -/
def porterOwner (p : Nat) : Nat := 0x30 + p
def linkOwner (l : Nat) : Nat := 0x40 + l

/-! ### Masters and requesters (R116, R123) -/

/-- Conflict-counter masters of porters, scalar ports, link ports and the Steward; slot port `x` is master `x`. -/
def masterScalar (g : Nat) : Nat := 32 + g
def masterPorter (p : Nat) : Nat := 48 + p
def masterLink (l : Nat) : Nat := 64 + l
def masterSteward : Nat := 68

/-- The master a lottery requester counts as (R116, R123). -/
def masterOf (r : Nat) : Nat :=
  if r < 16 then masterPorter r else if r < 20 then masterLink (r - 16) else if r < 36 then masterScalar (r - 20)
  else masterSteward

/-- Key of the pending queue of a column, direction and requester, and of a column's lottery. -/
def lotKey (c : Nat) (d : Dir) : Nat := c * 2 + (match d with | .rd => 0 | .wr => 1)
def queueKey (c : Nat) (d : Dir) (r : Nat) : Nat := lotKey c d * 37 + r

/-! ### Pending queues (R124 to R126, R138) -/

/-- An entry enters a requester's pending queue; none when the queue is full (R124, R125). A port's or porter's entry is placed
as it is presented, three running edges before it enters (`at_`): fullness is tested then, and entries on their way count toward
the 8 (DESIGN CHOICE, log entry 50). -/
def enqueue (s : State) (c : Nat) (d : Dir) (r : Nat) (e : QEntry) : Option State :=
  let k := queueKey c d r
  let q := s.queue k
  if q.entries.length < 8 then
    some (s.setQueue k (if q.entries.isEmpty then ⟨[e], e.at_, false⟩ else { q with entries := q.entries ++ [e] }))
  else none

/-- The pending queue of a column, direction and requester has room (R125). -/
def queueRoom (s : State) (c : Nat) (d : Dir) (r : Nat) : Bool := decide ((s.queue (queueKey c d r)).entries.length < 8)

/-- The wait of a queue's head, in running BCLK, saturating (R138). -/
def headWait (s : State) (q : LotQueue) : Nat := min 65535 (s.run - q.since)

/-- A queue's head leaves: its wait enters LOT_MAXWAIT and, if it tripped the latest flag, STARVE_LAST (R145). -/
def headLeft (s : State) (k : Nat) : State :=
  let w := headWait s (s.queue k)
  let c := k / 74
  let (hi, lo) := if k / 37 % 2 = 0 then (15, 0) else (31, 16)
  let s1 := if rf s .colLotMaxwait c hi lo < w then setRf s .colLotMaxwait c hi lo w else s
  if s1.starving = some k then { setRf s1 .lotStarveLast 0 31 16 w with starving := none } else s1

/-- A queue whose head is new at this edge: its wait starts now, or at the head's entry where that is still to come (R138). -/
def headQueue (s : State) (es : List QEntry) : LotQueue :=
  ⟨es, match es with | e :: _ => max s.run e.at_ | [] => s.run, false⟩

/-- Remove the entries of a queue that `keep` rejects; a new head's wait starts at this edge (R138). -/
def filterQueue (s : State) (k : Nat) (keep : QEntry → Bool) : State :=
  let q := s.queue k
  let es := q.entries.filter keep
  if es.head? = q.entries.head? then s.setQueue k { q with entries := es }
  else (headLeft s k).setQueue k (headQueue s es)

/-- Remove from every listed queue the entries that `keep` rejects. -/
def filterQueues (s : State) (keep : Nat → QEntry → Bool) : State :=
  (s.queues.map Prod.fst).foldl (fun s k => filterQueue s k (keep k)) s

/-! ### Passports (R444) -/

/-- Class, privileged bit and task of a passport. -/
def passClass (p : Nat) : Nat := (p >>> 13) % 8
def passPriv (p : Nat) : Bool := nbit p 12
def passScope (p : Nat) : Nat := (p >>> 10) % 4
def passTask (p : Nat) : Nat := p % 1024

/-- The passport of port group `g` (R445). -/
def pgPass (s : State) (g : Nat) : Nat := rf s .regPassPg g 15 0

/-- The port group of slot port `x`. -/
def groupOf (x : Nat) : Nat := x % 16

/-! ### Agents (R207, R268) -/

/-- Agent number of channel `k` of porter `p`; 0 to 31 are the fill sequencers. -/
def chanAgent (p k : Nat) : Nat := 32 + 16 * p + k

/-- The agent is a porter channel; its porter and channel. -/
def isChan (a : Nat) : Bool := decide (32 ≤ a)
def agentPorter (a : Nat) : Nat := (a - 32) / 16
def agentChan (a : Nat) : Nat := (a - 32) % 16

/-- The fault unit of an agent (R238). -/
def agentFu (a : Nat) : Nat := if a < 32 then fuPg (a % 16) else fuPorter

end Sys2Proof.Machine
end

