-- ==== Sys2Proof/Machine/Storage.lean ====
section
/-! DEFINITION. Columns at work: the bank stage, commits, the deferral buffer, drains, copies, remaps, withdrawals and
scrubbing (R43 to R66, R101, R108 to R116, R365, R568, R569). -/

namespace Sys2Proof.Machine

/-! ### Conflict counters (R116) -/

/-- One more read (or write) conflict of master `m`, with its sticky overflow bit. -/
def confInc (s : State) (d : Dir) (m : Nat) : State :=
  let (lo, hi) := match d with
    | .rd => (RegId.xbarConfRdLo, RegId.xbarConfRdHi)
    | .wr => (RegId.xbarConfWrLo, RegId.xbarConfWrHi)
  if rg s lo m = 0xFFFFFFFF then setRg s hi m 1 else bump s lo m 31 0

/-- Clear both counters and OVF bits of master `m`. -/
def confClear (s : State) (m : Nat) : State :=
  setRg (setRg (setRg (setRg s .xbarConfRdLo m 0) .xbarConfRdHi m 0) .xbarConfWrLo m 0) .xbarConfWrHi m 0

/-! ### The bank stage (R101, R110, R112) -/

/-- Two granule accesses of one slot reach the same bank at different rows (R110). -/
def clash (s : State) (c : Nat) (a b : Acc) : Bool :=
  decide (a.tier = b.tier) && slotOf s c a == slotOf s c b && physOf s c a != physOf s c b

/-- Some granules of two lanes of one slot clash. -/
def clashes (s : State) (c : Nat) (l m : List Acc) : Bool := l.any fun a => m.any fun b => clash s c a b

/-- The lane is a Steward lane, whose write is no client write (R53, R55). -/
def stewardUse : Use → Bool
  | .copyWr => true
  | .scrubWb => true
  | _ => false

/-- The lane is a Steward read whose row is written again later. -/
def stewardRead : Use → Bool
  | .copyRd => true
  | .scrub _ => true
  | _ => false

/-- The lane's row write was cancelled (R55, R66). -/
def laneVoid (s : State) (w : WrLane) : Bool :=
  stewardUse w.use && w.accs.any fun a => (s.col w.col).wbCancel.contains a

/-- The bytes a scalar write merges onto the newer row (R43, R365). -/
def narrowBytes (q : ScalarReq) : List Byte := natBytes q.size q.wdata.toNat

/-- A granule with a narrow write's bytes merged on: corrected words beneath, the bytes prevailing (R44, R365). -/
def narrowMerge (d : Coded) (q : ScalarReq) : Coded :=
  let f := corrected d
  ⟨rowMerge f.data (q.addr % 64) (narrowBytes q), f.ups.filter fun e => decide (e.1 ≠ q.addr % 64 / 16)⟩

/-- The data a write lane commits to a granule: a narrow write merges onto the row as it stands at the commit. -/
def commitData (s : State) (w : WrLane) (a : Acc) (d : Coded) : Coded :=
  match w.narrow with
  | some q => narrowMerge (granNow s w.col a) q
  | none => d

/-- The write lane that reaches the banks in the slot of a read lane; a cancelled one writes nothing (R55, R110). -/
def writeBeside (s : State) (l : RdLane) : Option WrLane :=
  s.wrLanes.find? fun w => decide (w.col = l.col ∧ w.bank = l.bank) && !laneVoid s w

/-- The granule a read takes at its bank stage: the row a write of the same slot writes there, else the deferral entry's
or the bank's (R110, R112). -/
def readGran (s : State) (c : Nat) (w : Option WrLane) (a : Acc) : Coded :=
  match w with
  | some w => match (w.accs.zip w.data).find? fun g => physOf s c g.1 == physOf s c a with
    | some g => commitData s w g.1 g.2
    | none => granNow s c a
  | none => granNow s c a

/-- The bank rows under the deferral entries that a read's granules come from: what they hold is found too (R46, R112). -/
def replacedRows (s : State) (c : Nat) (accs : List Acc) : List (Acc × Coded) :=
  (accs.filter fun a => (deferred s c a).isSome).map fun a => (a, readPhys s (physOf s c a))

/-- One read lane at its bank stage takes its granules; a conflict counts for its master (R110, R112, R116). -/
def captureLane (s : State) (l : RdLane) : State :=
  let w := writeBeside s l
  let got := l.accs.map (readGran s l.col w)
  let und := replacedRows s l.col l.accs
  let s1 := { s with rdLanes := s.rdLanes.map fun m => if m = l then { m with got := some got, under := und } else m }
  match w with
  | some w => if clashes s l.col l.accs w.accs then confInc s1 .rd l.master else s1
  | none => s1

/-- Every read lane whose bank stage is this running edge takes its granules. -/
def captureReads (s : State) : State :=
  (s.rdLanes.filter fun l => decide (l.bank = s.run) && l.got.isNone).foldl captureLane s

/-! ### Commits (R53, R55, R108, R111, R112, R365) -/

/-- Replace or merge the granule of a bank row in its deferral entry. -/
def deferMerge (s : State) (c : Nat) (a : Acc) (d : Coded) : State :=
  let p := physOf s c a
  let k := s.col c
  s.setCol c { k with defer := k.defer.map fun e =>
    { e with grans := e.grans.map fun g => if physOf s c g.1 = p then (g.1, d) else g } }

/-- Write one bank row where it belongs: into its deferral entry, or into its bank. -/
def putGran (s : State) (c : Nat) (a : Acc) (d : Coded) : State :=
  match deferred s c a with
  | some _ => deferMerge s c a d
  | none => writePhys s (physOf s c a) d

/-- A Steward write to the row `t`, read from the row `a`, is under way: read, waiting, queued or in its lane. -/
def stewardPending (s : State) (c : Nat) (a t : Acc) : Bool :=
  (s.rdLanes.any fun l => decide (l.col = c) && stewardRead l.use && l.got.isSome && l.accs.contains a) ||
  ((s.col c).wbWait.any fun g => g.1 == t) ||
  ((s.queue (queueKey c .wr 36)).entries.any fun e => e.accs.contains t) ||
  (s.wrLanes.any fun w => decide (w.col = c) && stewardUse w.use && w.accs.contains t)

/-- A client write of row `a` cancels the Steward write to row `t` under way (R55, R66). -/
def cancelNote (s : State) (c : Nat) (a t : Acc) : State :=
  let k := s.col c
  if stewardPending s c a t && !k.wbCancel.contains t then s.setCol c { k with wbCancel := k.wbCancel ++ [t] } else s

/-- A client write of row `a` cancels the pending write-back of the row, and during a copy the pending copy write (R55, R66). -/
def clientNote (c : Nat) (s : State) (a : Acc) : State :=
  let s1 := cancelNote s c a a
  match copyDest s c a with
  | some t => cancelNote s1 c a t
  | none => s1

/-- The granules a write lane writes, each with what it commits: its own and, for a client lane during a copy, those of the
copy's destination (R53, R108). -/
def laneGrans (s : State) (w : WrLane) : List (Acc × Coded) :=
  let own := (w.accs.zip w.data).map fun g => (g.1, commitData s w g.1 g.2)
  if stewardUse w.use then own
  else own ++ own.filterMap fun g => (copyDest s w.col g.1).map fun t => (t, g.2)

/-- Write the granules of a lane that is not deferred (R108, R112). -/
def commitDirect (s : State) (w : WrLane) : State := (laneGrans s w).foldl (fun s g => putGran s w.col g.1 g.2) s

/-- Defer a lane whole: granules merge into their entries, the others form one new entry (R111). -/
def commitDeferred (s : State) (w : WrLane) : State :=
  let gs := laneGrans s w
  let held := gs.filter fun g => (deferred s w.col g.1).isSome
  let news := (gs.filter fun g => (deferred s w.col g.1).isNone).map fun g => (physAcc s w.col g.1, g.2)
  let s1 := held.foldl (fun s g => deferMerge s w.col g.1 g.2) s
  let k := s1.col w.col
  let s2 := if news.isEmpty then s1 else
    s1.setCol w.col { k with defer := k.defer ++ [⟨((w.accs.head?).map Acc.tier).getD 0, news, s.clk⟩] }
  bump s2 .colDeferCnt w.col 31 0

/-- COL[c].DEFER_STAT.HIGH follows the occupancy after an edge's entries and drains (R114, R122). -/
def deferHigh (c : Nat) (s : State) : State :=
  let occ := (s.col c).defer.length
  if rf s .colDeferStat c 12 8 < occ then setRf s .colDeferStat c 12 8 occ else s

/-- A piece's write half has committed: the piece is complete in both halves (R229). -/
def pieceWriteDone (s : State) (sq : Nat) : State :=
  { s with pieces := s.pieces.filter fun p => p.sq != sq }

/-- One stripe of an inbound packet has committed: after the last of its flit the data credit returns (R172). `id`: the
packet's number and the flit's, 16 to a packet. -/
def inboundDone (s : State) (l id : Nat) : State :=
  let v := s.link l
  let rest := fun (q : InPkt) => if q.id = id / 16 then { q with left := q.left.erase (id % 16) } else q
  let whole := v.inQ.any fun q => decide (q.id = id / 16) && !(q.left.erase (id % 16)).contains (id % 16)
  s.setLink l { v with inQ := v.inQ.map rest, backData := v.backData + b2n whole }

/-- What the end of a write lane completes (R157, R172, R229, R568). -/
def laneDone (s : State) (w : WrLane) : State :=
  match w.use with
  | .scalarWr g id => s.setScalar g ((s.scalar g).map fun x =>
      if x.id = id then { x with stage := .due (aclkAt s.run) 0 0 } else x)
  | .piece sq => pieceWriteDone s sq
  | .inbound l id => inboundDone s l id
  | .copyWr => match (s.col w.col).copy with
    | some k => if k.phase = .writeIssued ∧ (!k.retire ∨ k.row = 2047)
      then s.setCol w.col { s.col w.col with copy := some { k with phase := .done } } else s
    | none => s
  | _ => s

/-- Forget the cancellations a finished Steward lane has met. -/
def clearCancel (s : State) (w : WrLane) : State :=
  if stewardUse w.use then
    s.setCol w.col { s.col w.col with wbCancel := (s.col w.col).wbCancel.filter fun a => !w.accs.contains a }
  else s

/-- A write lane reaches its banks (R108, R110, R111, R116). -/
def commitLane (s : State) (w : WrLane) : State :=
  let s0 := { s with wrLanes := s.wrLanes.filter fun v => decide (v ≠ w) }
  if laneVoid s w then laneDone (clearCancel s0 w) w else
  let met := s.rdLanes.any fun l => decide (l.col = w.col ∧ l.bank = w.bank) && clashes s w.col w.accs l.accs
  let s1 := if met then confInc (commitDeferred s0 w) .wr w.master else commitDirect s0 w
  let s2 := if stewardUse w.use then clearCancel s1 w else w.accs.foldl (clientNote w.col) s1
  laneDone s2 w

/-- STRIPE_COMMIT: the write lane of column `c` whose bank stage has come commits. -/
def doStripeCommit (c : Nat) (s : State) : State :=
  match s.wrLanes.find? fun w => decide (w.col = c ∧ w.bank ≤ s.run) with
  | some w => commitLane s w
  | none => s

/-! ### Drains (R113) -/

/-- A lane of this BCLK reads or writes the bank of a granule access; a cancelled write leaves its bank free. -/
def bankBusy (s : State) (c : Nat) (a : Acc) : Bool :=
  let hit := fun (l : List Acc) => l.any fun b => decide (b.tier = a.tier) && slotOf s c b == slotOf s c a
  !heldEdge s && ((s.rdLanes.any fun l => decide (l.col = c ∧ l.bank = s.run) && hit l.accs) ||
    (s.wrLanes.any fun l => decide (l.col = c ∧ l.bank = s.run) && !laneVoid s l && hit l.accs))

/-- The entry that drains in tile (t, c) at this edge, if none of the tile's has: the oldest eligible one whose banks are all
free. -/
def drainable (s : State) (c t : Nat) : Option DeferEntry :=
  if doneNow s (lastDrain c t) then none else
  (s.col c).defer.find? fun e => decide (e.tier = t ∧ e.at_ < s.clk) && !e.grans.any fun g => bankBusy s c g.1

/-- One granule of a draining entry goes to its bank row, raw where uncorrectable (R113). -/
def drainGran (s : State) (c : Nat) (g : Acc × Coded) : State :=
  let s1 := found s c g.1 (readRow g.2) .drain
  writePhys s1 (physOf s1 c g.1) (corrected g.2)

/-- DEFERRAL_DRAIN: one entry of a tile drains. -/
def doDrain (c t : Nat) (s : State) : State :=
  match drainable s c t with
  | some e =>
    let k := s.col c
    let s1 := setLast (s.setCol c { k with defer := k.defer.filter fun f => decide (f ≠ e) }) (lastDrain c t)
    e.grans.foldl (fun s g => drainGran s c g) s1
  | none => s

/-! ### Remaps (R48 to R59, R568) -/

/-- The lowest free spare row of a bank slot. -/
def freeSpareRow (s : State) (c t b : Nat) : Option Nat :=
  (List.range 16).find? fun e => let x := spareRow s c t b e; !x.valid && !x.dead

/-- The spare bank a retirement takes: SB0 if never taken, else SB1 if never taken (R48, R49). -/
def freeSpareBank (ti : Tile) : Option Nat :=
  if !ti.sb0.taken then some 0 else if !ti.sb1.taken then some 1 else none

/-- The generation a logical row is at: 0 in its own row (R48). -/
def rowGen (s : State) (c t b r : Nat) : Nat :=
  let sl := servingBank (s.tile c t) b
  match servingSpare s c t sl r with
  | some e => (spareRow s c t sl e).gen
  | none => 0

/-- A row step of the chain is open to this row: below generation 2 with a free spare row (R48, R59). -/
def rowStep (s : State) (c t b r : Nat) : Option Nat :=
  if rowGen s c t b r < 2 then freeSpareRow s c t (servingBank (s.tile c t) b) else none

/-- The refusal of a software request, at its write and again at its start (R59). -/
def remapRefusal (s : State) (c : Nat) (retire : Bool) (t b r : Nat) : Option Nat :=
  if quarantined s c then some 8
  else if octetOut s c t (b / 8) then some 7
  else if retire then (if (freeSpareBank (s.tile c t)).isNone then some 3 else none)
  else if (rowStep s c t b r).isNone then some 2 else none

/-- REMAP_RESULT of a column. -/
def remapResult (s : State) (c code : Nat) : State := setRf s .colRemapResult c 7 0 code

/-- A software request is refused, refused on a full queue, or queued (R59). -/
def remapRequest (c : Nat) (retire : Bool) (t b r : Nat) (s : State) : State :=
  match remapRefusal s c retire t b r with
  | some code => remapResult s c code
  | none =>
    let k := s.col c
    if k.remapQ.length < 4 then
      remapResult (s.setCol c { k with remapQ := k.remapQ ++ [⟨retire, t, b, r, true⟩] }) c 5
    else remapResult s c 1

/-- An octet leaves service (R50, R51). `cause`: 0 lasting judgement, 1 self-test; none where no event is raised (R482). -/
def withdraw (s : State) (c t o : Nat) (cause : Option Nat) : State :=
  let ti := s.tile c t
  let s1 := genBump (s.setTile c t { ti with octOut := ti.octOut ||| (1 <<< o) }) genStorage
  match cause with
  | some k => raise s1 c 5 (o * 8 * 2048 + t * 65536) (k * 16)
  | none => s1

/-- The queue entry of a copy read (R568). -/
def copyReadEntry (s : State) (t b r : Nat) : QEntry := ⟨.copyRd, [⟨t, b, r⟩], [], 8, none, s.run, none⟩

/-- Start a copy: its first row's read enters the Steward's read queue (R568). -/
def startCopy (s : State) (c : Nat) (k : Copy) : State :=
  match enqueue s c .rd 36 (copyReadEntry s k.tier k.bank k.row) with
  | some s1 => s1.setCol c { s1.col c with copy := some k }
  | none => s

/-- Retire a bank to a free spare bank, or withdraw its octet (R48, R50). -/
def retireBank (s : State) (c t b : Nat) (sw : Bool) : State :=
  match freeSpareBank (s.tile c t) with
  | some d => startCopy s c ⟨true, t, b, 0, d, 0, sw, .readQueued⟩
  | none => if sw then remapResult s c 3 else withdraw s c t (b / 8) (some 0)

/-- REMAP_START: the Steward, which runs on MCLK (R27), takes the next request of the column's queue (R48, R57, R59). -/
def doRemapStart (c : Nat) (s : State) : State :=
  let k := s.col c
  match k.copy, k.remapQ with
  | none, q :: rest =>
    if !mclkEdge s || s.safe || s.life != .ready || !tileOn s c q.tier || !queueRoom s c .rd 36 then s else
    let s1 := s.setCol c { k with remapQ := rest }
    if q.sw then
      match remapRefusal s c q.retire q.tier q.bank q.row with
      | some code => remapResult s1 c code
      | none =>
        if q.retire then retireBank s1 c q.tier q.bank true else
        match rowStep s c q.tier q.bank q.row with
        | some e => startCopy s1 c
            ⟨false, q.tier, q.bank, q.row, e, rowGen s c q.tier q.bank q.row + 1, true, .readQueued⟩
        | none => s1
    else if quarantined s c || octetOut s c q.tier (q.bank / 8) then s1
    else match rowStep s c q.tier q.bank q.row with
      | some e => startCopy s1 c
          ⟨false, q.tier, q.bank, q.row, e, rowGen s c q.tier q.bank q.row + 1, false, .readQueued⟩
      | none => retireBank s1 c q.tier q.bank false
  | _, _ => s

/-- The copy's read lane has issued: its data is due in the merge buffer 10 BCLK later (R568). -/
def copyReadIssued (s : State) (c : Nat) : State :=
  match (s.col c).copy with
  | some k => s.setCol c { s.col c with copy := some { k with phase := .readIssued } }
  | none => s

/-- The copy's write lane has issued: a bank retirement's next row read enters the queue at this edge (R568). -/
def copyWriteIssued (s : State) (c : Nat) : State :=
  match (s.col c).copy with
  | some k =>
    if k.retire ∧ k.row < 2047 then
      startCopy s c { k with row := k.row + 1, phase := .readQueued }
    else s.setCol c { s.col c with copy := some { k with phase := .writeIssued } }
  | none => s

/-- The captured granules of a lane with their accesses, and with them the bank rows that entries replaced: all that the lane
finds (R46, R112). -/
def RdLane.grans (l : RdLane) : List (Acc × Coded) := l.accs.zip (l.got.getD [])
def RdLane.finds (l : RdLane) : List (Acc × Coded) := l.grans ++ l.under

/-- Remove a read lane. -/
def dropLane (s : State) (l : RdLane) : State := { s with rdLanes := s.rdLanes.filter fun m => decide (m ≠ l) }

/-- COPY_ROW_MERGED: the copied row stands in the merge buffer, corrected, and its write enters the queue (R56, R568). -/
def doCopyMerged (c : Nat) (s : State) : State :=
  match s.rdLanes.find? fun l => decide (l.col = c ∧ l.use = .copyRd ∧ l.due ≤ s.run) && l.got.isSome with
  | some l =>
    let s1 := foundAll (dropLane s l) c l.finds .copy
    match (s.col c).copy, l.grans with
    | some k, (a, d) :: _ =>
      match enqueue s1 c .wr 36 ⟨.copyWr, [copyTarget s c k a.row], [corrected d], 8, none, s.run, none⟩ with
      | some s2 =>
        s2.setCol c { s2.col c with copy := some { k with phase := .writeQueued } }
      | none => s
    | _, _ => s1
  | none => s

/-- The spare rows of a bank that leaves service, or of a spare bank that takes one over, are free of entries; the dead stay
dead (R49). -/
def clearBank (c t b : Nat) (s : State) : State :=
  (List.range 16).foldl (fun s e => if (spareRow s c t b e).valid then setSpareRow s c t b e freshSpareRow else s) s

/-- REMAP_SWITCH: the copy is complete and lookups go to its destination from now on (R54), a spare bank with an empty remap
table (R49). The spec says only that the switch falls between two BCLKs: the model switches at the edge at which the last copy
write has committed or is cancelled (DESIGN CHOICE, log entry 49). -/
def doRemapSwitch (c : Nat) (s : State) : State :=
  match (s.col c).copy with
  | some k =>
    if k.phase ≠ .done then s else
    let ti := s.tile c k.tier
    let sl := servingBank ti k.bank
    let s1 := s.setCol c { s.col c with copy := none, wbCancel := (s.col c).wbCancel.filter fun a => decide (a.bank < 64) }
    let s2 :=
      if k.retire then
        let nb : SpareBank := ⟨true, true, k.bank⟩
        let t1 := if sl = 32 then { ti with sb0 := { ti.sb0 with serving := false } }
          else if sl = 33 then { ti with sb1 := { ti.sb1 with serving := false } } else ti
        clearBank c k.tier (32 + k.dst)
          (genBump (s1.setTile c k.tier (if k.dst = 0 then { t1 with sb0 := nb } else { t1 with sb1 := nb })) genStorage)
      else
        let s2 := match servingSpare s c k.tier sl k.row with
          | some e => setSpareRow s1 c k.tier sl e { spareRow s c k.tier sl e with valid := false, dead := true }
          | none => s1
        setSpareRow s2 c k.tier sl k.dst ⟨k.row, k.gen, true, false⟩
    if k.sw then remapResult s2 c 0 else s2
  | none => s

/-- Abandon a running copy without its switch; its queued lanes and the cancellations of its writes go, and the software request
it served ends with `code`, where the spec gives one (R58, R59, R68, R481). -/
def abandonCopy (code : Option Nat) (s : State) (c : Nat) : State :=
  let steward := fun (d : Dir) (s : State) => filterQueue s (queueKey c d 36) fun e => decide (e.use ≠ Use.copyRd ∧ e.use ≠ Use.copyWr)
  let s1 := steward .wr (steward .rd s)
  let s2 := { s1 with rdLanes := s1.rdLanes.filter fun l => decide (l.col ≠ c ∨ l.use ≠ Use.copyRd) }
  let s3 := s2.setCol c
    { s2.col c with copy := none, wbCancel := (s2.col c).wbCancel.filter fun a => decide (a.bank < 64) }
  match code, (s.col c).copy with
  | some v, some k => if k.sw then remapResult s3 c v else s3
  | _, _ => s3

/-! ### Scrubbing (R64 to R66, R569) -/

/-- The tier, octet and row of a stripe index. -/
def stripeTier (i : Nat) : Nat := i / 8192
def stripeOct (i : Nat) : Nat := i / 2048 % 4

/-- The stripe is scrubbed: its octet in service and its tile ON. -/
def scrubbable (s : State) (c i : Nat) : Bool := !octetOut s c (stripeTier i) (stripeOct i) && tileOn s c (stripeTier i)

/-- The first scrubbed stripe at or after `i`, octet by octet, and whether the pointer wrapped on the way. -/
def scrubSettle (s : State) (c : Nat) : Nat → Nat → Bool → Option (Nat × Bool)
  | 0, _, _ => none
  | n + 1, i, w =>
    if 32768 ≤ i then scrubSettle s c n 0 true
    else if scrubbable s c i then some (i, w)
    else scrubSettle s c n ((i / 2048 + 1) * 2048) w

/-- Move the scrub pointer to the next stripe from `i` on; a wrap completes a pass (R569). -/
def scrubMove (s : State) (c i : Nat) : State :=
  match scrubSettle s c 18 i false with
  | none => s
  | some (p, w) =>
    let s1 := setRf s .colScrubPtr c 14 0 p
    if w then
      let k := s1.col c
      let dur := match k.scrub.passAt with
        | some t => min 65535 ((s.clk - t) / 12 / 1024)
        | none => 0
      setRf ((bump s1 .colScrubPasses c 31 0).setCol c { k with scrub := { k.scrub with passAt := some s.clk } })
        .colScrubLast c 15 0 dur
    else s1

/-- The scrub interval in running BCLK: 2^INTERVAL, 6 to 16 (R68). -/
def scrubInterval (s : State) (c : Nat) : Nat := 2 ^ (min 16 (max 6 (rf s .colScrubCtrl c 11 8)))

/-- A scrub request is due in a column (R569). -/
def scrubDue (s : State) (c : Nat) : Bool :=
  let k := (s.col c).scrub
  decide (s.life = .ready) && !s.safe && !quarantined s c && bitOf (rg s .colScrubCtrl c) 0 && !k.queued &&
  (!k.started || decide (k.entered + scrubInterval s c ≤ s.run)) &&
  (scrubSettle s c 18 (rf s .colScrubPtr c 14 0) false).isSome && queueRoom s c .rd 36

/-- The queue entry of the scrub read of stripe `i` (R65). -/
def scrubEntry (i at_ : Nat) : QEntry :=
  ⟨.scrub i, (List.range 8).map fun j => ⟨stripeTier i, stripeOct i * 8 + j, i % 2048⟩, [], 8, none, at_, none⟩

/-- The request for the next stripe enters the Steward's read queue; stripes that have left service since the pointer moved are
passed over (R65, R569). -/
def scrubEnter (c : Nat) (s : State) : State :=
  if scrubDue s c then
    let s1 := scrubMove s c (rf s .colScrubPtr c 14 0)
    match enqueue s1 c .rd 36 (scrubEntry (rf s1 .colScrubPtr c 14 0) s1.run) with
    | some s2 =>
      let k := s2.col c
      s2.setCol c { k with scrub := ⟨true, true, s.run,
        if (s.col c).scrub.started then k.scrub.passAt else some s.clk⟩ }
    | none => s
  else s

/-- SCRUB_REQUEST: the request for the next stripe enters at a running edge (R569). -/
def doScrubRequest (c : Nat) (s : State) : State := if heldEdge s then s else scrubEnter c s

/-- A waiting scrub request whose stripe has left service goes to the next stripe, or away where none is left: such stripes are
not read (R569). -/
def scrubRetarget (c : Nat) (s : State) : State :=
  let k := queueKey c .rd 36
  let i := rf s .colScrubPtr c 14 0
  if !(s.col c).scrub.queued || scrubbable s c i then s else
  let s1 := scrubMove s c i
  let j := rf s1 .colScrubPtr c 14 0
  let isScrub := fun (e : QEntry) => match e.use with | .scrub _ => true | _ => false
  if scrubbable s1 c j then
    let q := s1.queue k
    s1.setQueue k { q with entries := q.entries.map fun e => if isScrub e then scrubEntry j e.at_ else e }
  else
    let s2 := filterQueue s1 k fun e => !isScrub e
    s2.setCol c { s2.col c with scrub := { (s2.col c).scrub with queued := false } }

/-- The scrub read of a stripe has issued: the pointer moves past it (R569). -/
def scrubIssued (s : State) (c i : Nat) : State :=
  let s1 := s.setCol c { s.col c with scrub := { (s.col c).scrub with queued := false } }
  scrubMove s1 c (i + 1)

/-- Write-backs enter the Steward's write queue in order; those that find it full wait (R66, R125). -/
def wbEnter (s : State) (c : Nat) : List (Acc × Coded) → State
  | [] => s.setCol c { s.col c with wbWait := [] }
  | g :: t => match enqueue s c .wr 36 ⟨.scrubWb, [g.1], [g.2], 8, none, s.run, none⟩ with
    | some s1 => wbEnter s1 c t
    | none => s.setCol c { s.col c with wbWait := g :: t }

/-- Waiting write-backs try the queue again. -/
def wbRetry (c : Nat) (s : State) : State := if (s.col c).wbWait.isEmpty then s else wbEnter s c (s.col c).wbWait

/-- Queue a write-back of each corrected row of a scrub read (R66). -/
def writeBack (s : State) (c : Nat) (l : List (Acc × Coded)) : State :=
  wbEnter s c ((s.col c).wbWait ++ (l.filter fun g => decide ((readRow g.2).ce ≠ 0)).map fun g => (g.1, corrected g.2))

/-- SCRUB_READ_RESULT: the scrub read's words are checked, counted and written back where corrected (R65, R66). -/
def doScrubResult (c : Nat) (s : State) : State :=
  match s.rdLanes.find? fun l => decide (l.col = c ∧ l.due ≤ s.run) && l.got.isSome &&
      (match l.use with | .scrub _ => true | _ => false) with
  | some l =>
    let s1 := foundAll (dropLane s l) c l.finds .scrub
    let ok := l.grans.filter fun g => !(s.col c).wbCancel.contains g.1
    let s2 := if bitOf (rg s .colScrubCtrl c) 16 then writeBack s1 c ok else s1
    s2.setCol c { s2.col c with wbCancel := (s2.col c).wbCancel.filter fun a => decide (64 ≤ a.bank) || stewardPending s2 c a a }
  | none => s

end Sys2Proof.Machine
end

