-- ==== Sys2Proof/Machine/Lottery.lean ====
section
/-! DEFINITION. The open-slot lottery: tickets, draws, long-road grants, issue in open lanes, starvation (R123 to R145,
R246). -/

namespace Sys2Proof.Machine

/-- The part of a word pair of registers that belongs to a direction: read in [15:0], write in [31:16]. -/
def dirHi : Dir → Nat
  | .rd => 15
  | .wr => 31
def dirLo : Dir → Nat
  | .rd => 0
  | .wr => 16

/-! ### Tickets (R128, R129, R246) -/

/-- The multiplier in force for a passport class (R129, R455, R457). -/
def classMult (t : Tab Word) (cls : Nat) : Nat :=
  if bitOf (rgIn t .regCtrl 0) 0 then 2 ^ fld (rgIn t .regMult 0) (2 * cls + 1) (2 * cls) else 1

/-- A requester's ticket count (R128). -/
def tickets (t : Tab Word) (r : Nat) : Nat := fld (rgIn t .lotTicket r) 5 0

/-- The tickets of a requester for its head entry in a direction: a porter's part by traffic, its remote part at a link
port, the plain count otherwise (R246). -/
def ticketPart (t : Tab Word) (r : Nat) (d : Dir) (e : QEntry) : Nat :=
  if r < 16 then
    let w := rgIn t .porterSplit r
    tickets t r * (match d with | .rd => fld w 4 0 | .wr => fld w 12 8) / 16
  else match e.remote with
    | some p => tickets t p * fld (rgIn t .porterSplit p) 20 16 / 16
    | none => tickets t r

/-- The effective tickets of a candidate (R129), from the register values that reach this draw (R137). -/
def effTickets (s : State) (r : Nat) (d : Dir) (e : QEntry) : Nat :=
  ticketPart s.regsB2 r d e * classMult s.regsB2 e.cls

/-- The long-road period (R140, R145 LR_N): 0 disables, 1 to 3 act as 4, above 256 as 256. -/
def longRoadN (s : State) : Nat :=
  let n := fld (rgIn s.regsB2 .lotCtrl 0) 8 0
  if n = 0 then 0 else min 256 (max 4 n)

/-! ### Candidates (R134, R135) -/

/-- The head entry of a requester that a draw at this edge sees: it entered before this edge. -/
def candidate (s : State) (c : Nat) (d : Dir) (r : Nat) : Option QEntry :=
  match (s.queue (queueKey c d r)).entries with
  | e :: _ => if e.at_ < s.run then some e else none
  | [] => none

/-- The candidates of a draw as (requester, effective tickets, head wait one edge ago), in requester order (R134). -/
def candidates (s : State) (c : Nat) (d : Dir) : List (Nat × Nat × Nat) :=
  (List.range 37).filterMap fun r =>
    (candidate s c d r).map fun e => (r, effTickets s r d e, headWait { s with run := s.run - 1 } (s.queue (queueKey c d r)))

/-- Walk the candidates, summing tickets, to the first whose running sum exceeds `x` (R132). -/
def walk (x : Nat) : Nat → List (Nat × Nat × Nat) → Option Nat
  | _, [] => none
  | sum, (r, t, _) :: l => if x < sum + t then some r else walk x (sum + t) l

/-- The candidate with the longest head wait, the lowest requester on a tie (R141). -/
def longest : List (Nat × Nat × Nat) → Option (Nat × Nat)
  | [] => none
  | (r, _, w) :: l => match longest l with
    | some (q, v) => some (if w < v then (q, v) else (r, w))
    | none => some (r, w)

/-- The long-road pick: the longest waiter, passing over the requester granted last unless it is alone (R141). -/
def longRoadPick (last : Option Nat) (l : List (Nat × Nat × Nat)) : Option Nat :=
  let rest := l.filter fun e => decide (last ≠ some e.1)
  (longest (if rest.isEmpty then l else rest)).map Prod.fst

/-- A grant for the lane that issues at the next running edge is registered and counted (R134, R140). Its requester is the one
R141 passes over from then on: where an open lane had no grant, the last grant ever registered for the column and direction
stands (DESIGN CHOICE, log entry 50). -/
def register (s : State) (c : Nat) (d : Dir) (r : Nat) : State :=
  let k := lotKey c d
  let l := s.lot k
  let s1 := s.setLot k ⟨l.grants ++ [(s.run + 1, r)], some r, l.count + 1⟩
  bump s1 (match d with | .rd => .colLotGrantsRd | .wr => .colLotGrantsWr) c 31 0

/-- A draw falls due: the next lane of the column and direction is open, not yet granted, and a candidate stands. -/
def drawDue (s : State) (c : Nat) (d : Dir) : Bool :=
  ownerIn s c d 1 == 0 && !quarantined s c && !((s.lot (lotKey c d)).grants.any fun g => g.1 == s.run + 1) &&
  !(candidates s c d).isEmpty

/-- The next open grant of the column and direction is a long-road grant (R140). -/
def longRoadTurn (s : State) (c : Nat) (d : Dir) : Bool :=
  decide (longRoadN s ≠ 0 ∧ ((s.lot (lotKey c d)).count + 1) % longRoadN s = 0)

/-- The value a draw takes from the LFSR (R132). -/
def drawValue (s : State) (c : Nat) (d : Dir) : Nat :=
  let w := Tab.get (fun _ => 1) s.lfsrPrev c
  fld w (dirHi d) (dirLo d)

/-- The draw of R132 and R133: the ticket winner, or the long-road pick when the total is 0. -/
def drawWinner (s : State) (c : Nat) (d : Dir) : Option Nat × Bool :=
  let l := candidates s c d
  let t := (l.map fun e => e.2.1).sum
  if t = 0 then (longRoadPick (s.lot (lotKey c d)).last l, true)
  else (walk (drawValue s c d * t / 65536) 0 l, false)

/-- LOTTERY_DRAW. -/
def doDraw (c : Nat) (d : Dir) (s : State) : State :=
  if drawDue s c d && !longRoadTurn s c d then
    match drawWinner s c d with
    | (some r, zero) =>
      let s1 := register s c d r
      if zero then bump s1 .colLotZero c (dirHi d) (dirLo d) else s1
    | (none, _) => s
  else s

/-- LONG_ROAD_GRANT. -/
def doLongRoad (c : Nat) (d : Dir) (s : State) : State :=
  if drawDue s c d && longRoadTurn s c d then
    match longRoadPick (s.lot (lotKey c d)).last (candidates s c d) with
    | some r => bump (register s c d r) .colLotLr c (dirHi d) (dirLo d)
    | none => s
  else s

/-! ### Issue (R126, R136, R142) -/

/-- Two accesses share a bank row (R126). -/
def sameRow (l m : List Acc) : Bool := l.any fun a => m.contains a

/-- The other direction. -/
def otherDir : Dir → Dir
  | .rd => .wr
  | .wr => .rd

/-- An earlier narrow write of the scalar port to the same row has not issued its write half (R126, R127, R368). -/
def narrowBefore (s : State) (c : Nat) (e : QEntry) : Bool :=
  match e.use with
  | .scalar g id => (s.scalar g).any fun y => y.req.we && decide (y.id < id ∧ y.col = c) && e.accs.contains y.acc &&
      (match y.stage with
       | .buffered => true
       | .reading => true
       | .writing => !y.issued
       | .due _ _ _ => false)
  | _ => false

/-- Entry `f` of a requester comes before entry `e`: by request at a scalar port, whose write half is as old as its request
(R126, R368). -/
def entryBefore (f e : QEntry) : Bool :=
  match f.use, e.use with
  | .scalar _ i, .scalarWr _ j => decide (i < j)
  | .scalarWr _ i, .scalar _ j => decide (i < j)
  | _, _ => decide (f.at_ < e.at_)

/-- The entry waits behind an earlier one of its requester to the same row in the other direction, one issued at this very
edge included (R126). -/
def rowBlocked (s : State) (c : Nat) (d : Dir) (r : Nat) (e : QEntry) : Bool :=
  narrowBefore s c e ||
  ((s.queue (queueKey c (otherDir d) r)).entries.any fun f => entryBefore f e && sameRow e.accs f.accs) ||
  (match d with
   | .rd => s.wrLanes.any fun l => decide (l.col = c ∧ l.bank = s.run + 4 ∧ l.master = masterOf r) && sameRow e.accs l.accs
   | .wr => s.rdLanes.any fun l => decide (l.col = c ∧ l.bank = s.run + 4 ∧ l.master = masterOf r) && sameRow e.accs l.accs)

/-- Running edges from a read lane's issue to the edge at which its data is due where it is used: the port or porter at
+13, the merge buffer at +10, the Steward at the column's crossbar output at +11 (R127, R142, R568). -/
def readDelay (s : State) (u : Use) : Nat :=
  match u with
  | .scalar g id => match (s.scalar g).find? fun x => x.id == id with
    | some x => if x.req.we then 10 else 13
    | none => 13
  | .copyRd => 10
  | .scrub _ => 11
  | _ => 13

/-- The scalar access whose lane issues (R157, R490). -/
def scalarIssued (s : State) (g id : Nat) : State :=
  s.setScalar g ((s.scalar g).map fun x => if x.id = id then { x with issued := true } else x)

/-- The narrow write whose write half a use is (R127). -/
def narrowOf (s : State) (u : Use) : Option ScalarReq :=
  match u with
  | .scalarWr g id => ((s.scalar g).find? fun x => x.id == id).map Scalar.req
  | _ => none

/-- An entry issues in its lane at this edge (R101, R142). -/
def issueEntry (s : State) (c : Nat) (d : Dir) (r : Nat) (e : QEntry) : State :=
  match d with
  | .rd =>
    let s1 := { s with rdLanes := s.rdLanes ++
      [newLane c e.use (masterOf r) e.accs (s.run + 4) (s.run + readDelay s e.use)] }
    match e.use with
    | .scrub i => scrubIssued s1 c i
    | .copyRd => copyReadIssued s1 c
    | .scalar g id => scalarIssued s1 g id
    | _ => s1
  | .wr =>
    let s1 := { s with wrLanes := s.wrLanes ++ [⟨c, e.use, masterOf r, e.accs, e.data, s.run + 4, narrowOf s e.use⟩] }
    match e.use with
    | .copyWr => copyWriteIssued s1 c
    | .scalarWr g id => scalarIssued s1 g id
    | .annex x id => s1.setEscs x ((s1.escs x).filter fun e => e.id != id)
    | _ => s1

/-- Take the head off a queue; the next head's wait starts at this edge, or at its entry where that is still to come (R138). -/
def popQueue (s : State) (k : Nat) : State :=
  (headLeft s k).setQueue k (headQueue s (s.queue k).entries.tail)

/-- OPEN_LANE_ISSUE: the granted requester's head entry issues, or the grant is stale (R136). A lane that a wheel exchange has
given an owner since its draw issues nothing for the lottery (R103). -/
def doIssue (c : Nat) (d : Dir) (s : State) : State :=
  let k := lotKey c d
  let l := s.lot k
  match l.grants.find? fun g => decide (g.1 ≤ s.run) with
  | some g =>
    let s1 := s.setLot k { l with grants := l.grants.filter fun h => decide (s.run < h.1) }
    let r := g.2
    match candidate s c d r with
    | some e =>
      if rowBlocked s c d r e || quarantined s c || ownerIn s c d 0 != 0 then bump s1 .colLotStale c (dirHi d) (dirLo d)
      else issueEntry (popQueue s1 (queueKey c d r)) c d r e
    | none => bump s1 .colLotStale c (dirHi d) (dirLo d)
  | none => s

/-! ### Starvation (R138, R139) -/

/-- A head has waited to the threshold without having tripped the flag (R139). Heads that issue at the edge have left the queue
by then and trip nothing (DESIGN CHOICE, log entry 50). -/
def starveDue (s : State) (k : Nat) : Bool :=
  let q := s.queue k
  let thr := rf s .lotStarveThr 0 15 0
  !q.entries.isEmpty && !q.tripped && decide (thr ≠ 0 ∧ thr ≤ headWait s q)

/-- STARVATION_FLAG. Of several heads that trip at one edge STARVE_LAST keeps the last by column, direction and requester (DESIGN
CHOICE, log entry 50). -/
def doStarve (c : Nat) (d : Dir) (r : Nat) (s : State) : State :=
  let k := queueKey c d r
  if starveDue s k then
    let q := s.queue k
    let s1 := s.setQueue k { q with tripped := true }
    let s2 := if r < 32 then setRf s1 .lotStarveLo 0 r r 1 else setRf s1 .lotStarveHi 0 (r - 32) (r - 32) 1
    let w := BitVec.ofNat 32 (r + 64 * c + 4096 * (match d with | .rd => 0 | .wr => 1) + 65536 * headWait s q)
    { setRg s2 .lotStarveLast 0 w with starving := some k }
  else s

/-- The LFSR of every column steps (R130). -/
def stepLfsrs (s : State) : State :=
  (List.range 64).foldl (fun s c =>
    let v := rg s .colLotLfsr c
    { setRg s .colLotLfsr c (lfsrStep v) with lfsrPrev := Tab.set (fun _ => 1) s.lfsrPrev c v }) s

end Sys2Proof.Machine
end

