-- ==== Sys2Proof/Machine/Changer.lean ====
section
/-! DEFINITION. The Changer's write side: profiles, meta buffers, quantising writes, escape records (R301, R315 to R328). -/

namespace Sys2Proof.Machine

/-! ### Profiles (R301, R338) -/

/-- Register index of profile `p` of Changer `x`. -/
def profIx (x p : Nat) : Nat := x * 8 + p % 8

/-- A profile as its registers give it. -/
structure Prof where
  format   : Nat
  rdMode   : Nat
  inFp16   : Bool
  sr       : Bool
  escEn    : Bool
  sentEn   : Bool
  sentAct  : Bool
  sentLim  : Nat
  sbase    : Nat
  escBase  : Nat
  escSlots : Nat
  fbase    : Nat
  satThr   : Nat
  flushThr : Nat
  errThr   : Nat
  deriving DecidableEq, Repr

/-- Profile `p` of Changer `x`; SBASE bit 9 is ignored on vector ports. -/
def prof (s : State) (x p : Nat) : Prof :=
  let i := profIx x p
  let c := rg s .chgProfCtrl i
  let g := rg s .chgProfGeom i
  let e := rg s .chgProfEsc i
  ⟨fld c 3 0, fld c 5 4, bitOf c 6, bitOf c 7, bitOf c 8, bitOf c 9, bitOf c 10, fld c 23 16,
   (if x < 16 then fld g 9 0 else fld g 8 0), fld g 19 10, fld g 29 20, rf s .chgProfFbase i 20 0,
   fld e 7 0, fld e 15 8, fld e 23 16⟩

/-- The profile's format is reserved (R302). -/
def Prof.reserved (p : Prof) : Bool := decide (12 ≤ p.format)
/-- The profile names a packed or MX format (R93). -/
def Prof.packed (p : Prof) : Bool := (blkOf p.format).isSome

/-- Count a format or escape fault (R337). -/
def countFmtFault (s : State) (x st : Nat) : State :=
  if st = 9 then bump s .chgFmtFaults x 15 0 else if st = 8 then bump s .chgFmtFaults x 31 16 else s

/-! ### What a write request stores (R315 to R317) -/

/-- How a write request's granules are made. -/
inductive WritePlan where
  | fail
  | raw
  | plain
  /-- Element write into frame `f` from granule `pos` of its element stream. -/
  | elems (f pos : Nat)
  /-- Meta write of the tagged frame. -/
  | metas
  deriving DecidableEq, Repr

/-- The named granule addresses in descriptor order (R315). -/
def namedGrans (ds : List Desc) : List Nat :=
  ds.flatMap fun q => if q.valid then (List.range q.gcnt).map fun i => q.gaddr + i else []

/-- The numbers rise one by one. -/
def consecutive : List Nat → Bool
  | [] => true
  | [_] => true
  | a :: b :: t => decide (b = a + 1) && consecutive (b :: t)

/-- Place of a granule address in a profile's frames: frame, stripe within it, granule (R310). -/
def framePlace (p : Prof) (b : Blk) (g : Nat) : Option (Nat × Nat × Nat) :=
  if g / 8 < p.fbase then none else
  let rel := g / 8 - p.fbase
  some (rel / b.frame, rel % b.frame, g % 8)

/-- The largest number of input elements on the write bus (R315). -/
def busElems (x : Nat) : Nat := if x < 16 then 512 else 256

/-- The conditions of R315 to R317 on a request. -/
def writePlan (s : State) (x k : Nat) (ds : List Desc) : WritePlan :=
  let p := prof s x k
  let gs := namedGrans ds
  if p.reserved then .fail
  else if p.format = 0 then .raw
  else match blkOf p.format with
  | none => if consecutive gs && decide (gs.length * 64 ≤ busElems x) then .plain else .fail
  | some b =>
    let m := s.metaBuf x (k % 8)
    match gs.mapM (framePlace p b) with
    | none => .fail
    | some pl =>
      if pl.all fun e => e.2.1 == 0 then (if pl.all fun e => m.tag == some e.1 then .metas else .fail)
      else if pl.any fun e => e.2.1 == 0 then .fail
      else match pl with
      | [] => .fail
      | (f, st, j) :: _ =>
        let pos := (st - 1) * 8 + j
        if (pl.all fun e => e.1 == f) && consecutive (pl.map fun e => (e.2.1 - 1) * 8 + e.2.2) &&
            decide (pos % b.unit = 0 ∧ gs.length % b.unit = 0 ∧ gs.length / b.unit * b.unitEl ≤ busElems x) &&
            (m.dirty.isEmpty || m.tag == some f) then .elems f pos
        else .fail

/-- The bytes of the write bus, descriptor k in bytes 512k on (R150). -/
def busBytes (ds : List Desc) : List Byte :=
  ds.flatMap fun q => (List.range 8).flatMap fun j => rowBytes (q.data.getD j 0)

/-- 16-bit little-endian values of a byte string. -/
def halves : List Byte → List Nat
  | a :: b :: t => (a.toNat + 256 * b.toNat) :: halves t
  | _ => []

/-- The input elements of a quantising request (R315). -/
def inputElems (p : Prof) (n : Nat) (ds : List Desc) : List InVal := ((halves (busBytes ds)).take n).map (inVal p.inFp16)

/-- Cut a byte string into granules. -/
def toRows : Nat → List Byte → List Row
  | 0, _ => []
  | n + 1, bs => rowOf bs :: toRows n (bs.drop 64)

/-! ### Escapes on write (R324 to R328) -/

/-- A block meets its escape criteria (R324, R335). -/
def escapes (p : Prof) (q : QBlock) : Bool :=
  p.packed && p.escEn && (q.force || decide (p.satThr ≠ 0 ∧ p.satThr ≤ q.crit) ||
    decide (p.flushThr ≠ 0 ∧ p.flushThr ≤ q.flush) || decide (p.errThr ≠ 0 ∧ p.errThr ≤ q.err))

/-- Where the next record of `n` granules would start (R327). -/
def recStart (s : State) (x n : Nat) : Nat :=
  let a := rf s .chgAnxNext x 23 0
  if n = 2 ∧ a % 2 = 1 then a + 1 else a

/-- An escape is refused (R328): no Annex, the record passes ANX_END, or the queue is full. -/
def escRefused (s : State) (x n : Nat) (r : Option Region) : Bool :=
  (match r with | some r => !r.annexEn | none => true) ||
  decide (rf s .chgAnxEnd x 23 0 < recStart s x n + n) || decide (16 ≤ (s.escs x).length)

/-- Allocate a record, advance ANX_NEXT and TAG, queue the record (R327). Answers the header's index and tag. -/
def allocRecord (s : State) (x : Nat) (r : Region) (home n : Nat) (data : Nat → List Byte) : State × Nat × Nat :=
  let start := recStart s x n
  let tag := rf s .chgEscqStat x 11 8
  let e : EscRec := ⟨s.nextEsc, s.run + 10, false, (region s r.annex).pbase + start * 64, home, toRows n (data tag)⟩
  let s1 := setRf (setRf s .chgAnxNext x 23 0 (start + n)) .chgEscqStat x 11 8 (tag + 1)
  (bump { s1.setEscs x (s1.escs x ++ [e]) with nextEsc := s1.nextEsc + 1 } .chgQEsc x 31 0, start, tag)

/-- Count a quantised block's figures (R322, R335). -/
def countBlock (s : State) (x : Nat) (q : QBlock) : State :=
  let s1 := bump (bump (bump s .chgQBlocks x 31 0) .chgQSat x 31 0 q.sats) .chgQFlush x 31 0 q.flush
  let s2 := if q.nan then bump s1 .chgQNan x 31 0 else s1
  if rf s2 .chgQMaxerr x 7 0 < q.err then setRf s2 .chgQMaxerr x 7 0 q.err else s2

/-- Quantise block `i` of a request: its slot bytes and meta, escaped where R324 to R328 say so. `home` is the P-space
address of the block's element slot. -/
def quantStep (s : State) (x k : Nat) (l : Option Word) (i0 home : Nat) (xs : List InVal) :
    State × List Byte × Nat :=
  let p := prof s x k
  let q := quantBlock p.format l i0 xs
  let s1 := countBlock s x q
  if escapes p q then
    let n := if xs.length ≤ 32 then 1 else 2
    match (decodeAddr s home).map Prod.fst with
    | some r =>
      if escRefused s1 x n (some r) then (bump s1 .chgQRefused x 31 0, q.slot, q.mword) else
      let (s2, idx, tag) := allocRecord s1 x r home n fun tag => escRecord l i0 tag xs
      (s2, natBytes q.slot.length (escHeader tag 0xA idx), 0xFF)
    | none => (bump s1 .chgQRefused x 31 0, q.slot, q.mword)
  else (s1, q.slot, q.mword)

/-- Quantise a request's blocks in order: slot bytes and metas. -/
def quantBlocks (s : State) (x k : Nat) (l : Option Word) (elems slot : Nat) (gs : List Nat) :
    Nat → Nat → List InVal → State × List Byte × List Nat
  | 0, _, _ => (s, [], [])
  | n + 1, i, xs =>
    let (s1, b, m) := quantStep s x k l (i * elems) (gs.getD (i * slot / 64) 0 * 64) (xs.take elems)
    let (s2, bs, ms) := quantBlocks s1 x k l elems slot gs n (i + 1) (xs.drop elems)
    (s2, b ++ bs, m :: ms)

/-- Store metas of consecutive blocks in the profile's buffer, which takes the frame's tag (R316). -/
def storeMetas (s : State) (x k f b0 : Nat) (ms : List Nat) : State :=
  let m := s.metaBuf x (k % 8)
  let d := ((List.range ms.length).zip ms).foldl (fun d e => Tab.put (b0 + e.1) e.2 d) m.dirty
  s.setMetaBuf x (k % 8) ⟨some f, d⟩

/-- Meta granule `j` of the buffer: entries not filled since their last meta write are 0 (R317). -/
def metaGran (m : MetaBuf) (mb j : Nat) : Row :=
  rowOf ((List.range (64 / mb)).flatMap fun e => natBytes mb (Tab.get (fun _ => 0) m.dirty (j * (64 / mb) + e)))

/-- A meta write marks the entries of its granules written. -/
def metaWritten (m : MetaBuf) (mb : Nat) (js : List Nat) : MetaBuf :=
  { m with dirty := m.dirty.filter fun e => !js.contains (e.1 / (64 / mb)) }

/-- The granules a request stores, in the order it names them, with the state after quantising (R315 to R328). `l`: the
LFSR state at the sampling edge under a stochastic profile. -/
def changeWrite (s : State) (x k : Nat) (l : Option Word) (plan : WritePlan) (ds : List Desc) : State × List Row :=
  let p := prof s x k
  let gs := namedGrans ds
  match plan with
  | .fail => (s, [])
  | .raw => (s, ds.flatMap fun q => if q.valid then
      (List.range q.gcnt).map fun i => q.data.getD (q.gaddr % 8 + i) 0 else [])
  | .plain =>
    let (s1, bs, _) := quantBlocks s x k l 1 1 gs (gs.length * 64) 0 (inputElems p (gs.length * 64) ds)
    (s1, toRows gs.length bs)
  | .elems f pos =>
    match blkOf p.format with
    | none => (s, [])
    | some b =>
      let n := gs.length * 64 / b.slot
      let (s1, bs, ms) := quantBlocks s x k l b.elems b.slot gs n 0 (inputElems p (n * b.elems) ds)
      (storeMetas s1 x k f (pos * 64 / b.slot) ms, toRows gs.length bs)
  | .metas =>
    match blkOf p.format with
    | none => (s, [])
    | some b =>
      let m := s.metaBuf x (k % 8)
      (s.setMetaBuf x (k % 8) (metaWritten m b.mbytes (gs.map (· % 8))), gs.map fun g => metaGran m b.mbytes (g % 8))

/-! ### The escape queue (R327) -/

/-- A refused record is lost, with the event of R87 in its port group's fault unit or at the column (R52, R87). -/
def escRefuse (s : State) (x : Nat) (e : EscRec) (k : Checked) : State :=
  let g := groupOf x
  let s1 := s.setEscs x ((s.escs x).filter fun f => f.id != e.id)
  match statusBit k.st with
  | some b => raise s1 (fuPg g) b (addrLoc e.addr) k.st (some (passTask (pgPass s g)))
  | none => mappedOut s1 k e.addr (some (passTask (pgPass s g)))

/-- One record enters the write queue of its column as the scalar port's requester, if the checks of R87 pass, with the permissions of
the destination region (R327). -/
def escEnter (s : State) (x : Nat) (e : EscRec) : State :=
  let g := groupOf x
  let k := checkAnnex s (slotClient x) true e.home e.addr e.data.length
  if k.st ≠ 0 then escRefuse s x e k else
  match enqueue s k.col .wr (20 + g)
    ⟨.annex x e.id, k.grans.map Prod.snd, e.data.map fresh, passClass (pgPass s g), some (passTask (pgPass s g)), s.run, none⟩ with
  | some s1 => s1.setEscs x ((s1.escs x).map fun f => if f.id = e.id then { f with queued := true } else f)
  | none => s

/-- Records whose header has committed enter their queues. -/
def escDrain (s : State) (x : Nat) : State :=
  ((s.escs x).filter fun e => !e.queued && decide (e.at_ ≤ s.run)).foldl (fun s e => escEnter s x e) s

/-- CHANGER_CNT_CLR: clear every counter of Changer `x` and SENT_LAST (R338). -/
def doChangerClr (x : Nat) (s : State) : State :=
  [RegId.chgQBlocks, .chgQSat, .chgQFlush, .chgQEsc, .chgQRefused, .chgQNan, .chgQMaxerr, .chgREsc, .chgRRetry, .chgRSat,
    .chgSentCnt, .chgSentLast, .chgFmtFaults].foldl (fun s id => setRg s id x 0) s

/-- SR_SEED_WRITE: load the LFSR, 1 for a seed of 0 (R321). -/
def doSrSeed (x : Nat) (v : Word) (s : State) : State :=
  setRg (setRg s .chgSrSeed x v) .chgSrState x (if v = 0 then 1 else v)

/-- The LFSR steps at a stochastic write (R321). -/
def stepSr (s : State) (x : Nat) : State := setRg s .chgSrState x (lfsrStep (rg s .chgSrState x))

end Sys2Proof.Machine
end

