-- ==== Sys2Proof/Machine/Tally.lean ====
section
/-! DEFINITION. Tally units: FP32 arithmetic, rows, records, reads by the vector engine (R339 to R355). -/

namespace Sys2Proof.Machine

/-! ### FP32 (R346) -/

def fp32 : ElFmt := ⟨23, -126, false, 0x7F7FFFFF, 32⟩

def f32Inf : F32 := 0x7F800000
def f32NaN : F32 := 0x7FC00000
def f32Neg (a : F32) : Bool := a.getLsbD 31
def f32Code (a : F32) : Nat := a.toNat % 2 ^ 31
def f32IsNaN (a : F32) : Bool := decide (0x7F800000 < f32Code a)
def f32IsInf (a : F32) : Bool := decide (f32Code a = 0x7F800000)

/-- A pattern with a sign. -/
def f32Sign (neg : Bool) (code : Nat) : F32 := BitVec.ofNat 32 (code + (if neg then 2 ^ 31 else 0))

/-- Round a magnitude to FP32, nearest even, infinity beyond the range. -/
def roundF32 (neg : Bool) (v : Frac) : F32 :=
  let (c, p) := fp32.below v
  f32Sign neg (min 0x7F800000 (pick none c p))

/-- The exact value of a finite pattern. -/
def f32Val (a : F32) : Frac :=
  let m := fp32.val (f32Code a)
  if f32Neg a then m.neg else m

/-- FP32 negation. -/
def f32Flip (a : F32) : F32 := a ^^^ 0x80000000#32

/-- FP32 addition. -/
def f32Add (a b : F32) : F32 :=
  if f32IsNaN a || f32IsNaN b then f32NaN
  else if f32IsInf a then (if f32IsInf b && f32Neg a != f32Neg b then f32NaN else a)
  else if f32IsInf b then b
  else
    let v := (f32Val a).add (f32Val b)
    if v.num = 0 then f32Sign (f32Neg a && f32Neg b) 0 else roundF32 (decide (v.num < 0)) v.abs

/-- FP32 subtraction. -/
def f32Sub (a b : F32) : F32 := f32Add a (f32Flip b)

/-- FP32 multiplication. -/
def f32Mul (a b : F32) : F32 :=
  let neg := f32Neg a ^^ f32Neg b
  if f32IsNaN a || f32IsNaN b then f32NaN
  else if f32IsInf a || f32IsInf b then
    (if f32Code a = 0 ∨ f32Code b = 0 then f32NaN else f32Sign neg 0x7F800000)
  else roundF32 neg ((f32Val a).mul (f32Val b)).abs

/-- FP32 division by a positive finite number. -/
def f32Div (a b : F32) : F32 :=
  if f32IsNaN a then f32NaN else if f32IsInf a then a
  else roundF32 (f32Neg a) ((f32Val a).abs.div (f32Val b))

/-- |a| ≥ |b|; false where either is NaN. -/
def f32AbsGe (a b : F32) : Bool := !f32IsNaN a && !f32IsNaN b && decide (f32Code b ≤ f32Code a)

/-- a < 0. -/
def f32Lt0 (a : F32) : Bool := !f32IsNaN a && f32Neg a && decide (f32Code a ≠ 0)

/-- A NaN's bits in a record are not stated. -/
def f32Out (a : F32) : Word :=
  if f32IsNaN a then (if f32IsNaN Config.tallyNan then Config.tallyNan else f32NaN) else a

/-- Neumaier's step: total and compensation with a granule sum added (R346). -/
def neumaier (s c g : F32) : F32 × F32 :=
  let t := f32Add s g
  (t, if f32AbsGe s g then f32Add c (f32Add (f32Sub s t) g) else f32Add c (f32Add (f32Sub g t) s))

/-! ### Counting (R340 to R346) -/

/-- A finite pattern in units of 2^-133; exact for every BF16 and FP16 value. -/
def f32Units (a : F32) : Int := ((f32Val a).mul (pow2 133)).floor

/-- The FP32 pattern of a finite input element. -/
def f32OfIn (x : InVal) : F32 := roundF32 x.neg (units x.mag)

/-- Count a granule of 32 elements into the row. -/
def rowGran (r : TallyRow) (xs : List InVal) : TallyRow :=
  let fin := xs.filter InVal.isFin
  let shift := if r.n = 0 then ((fin.head?).map f32OfIn).getD 0 else r.shift
  let ds := fin.map fun x => x.int - f32Units shift
  let g1 : Int := ds.sum
  let g2 : Int := (ds.map fun d => d * d).sum
  let (s1, c1) := neumaier r.s1 r.c1 (roundF32 (decide (g1 < 0)) (units g1).abs)
  let (s2, c2) := neumaier r.s2 r.c2 (roundF32 false ⟨g2, 2 ^ 266⟩)
  ⟨true, r.n + fin.length, min 255 (r.nf + (xs.length - fin.length)), r.grans + 1, max r.maxAbs (amax fin), shift,
    s1, c1, s2, c2⟩

/-- The record's eight words (R347, R350). -/
def recordWords (r : TallyRow) (part abort : Bool) (sq task : Nat) : List Word × Bool :=
  let n := roundF32 false (Frac.ofInt r.n)
  let s1 := f32Add r.s1 r.c1
  let s2 := f32Add r.s2 r.c2
  let m := f32Sub s2 (f32Div (f32Mul s1 s1) n)
  let clamp := decide (r.n ≠ 0) && f32Lt0 m
  let m2 := if clamp then 0 else m
  let w0 := BitVec.ofNat 32 (r.n + r.nf * 2 ^ 14 + b2n clamp * 2 ^ 22 + b2n part * 2 ^ 23 + b2n abort * 2 ^ 24 + 2 ^ 31)
  let w7 := BitVec.ofNat 32 (sq % 65536 + task % 1024 * 65536)
  (if r.n = 0 then [w0, 0, 0, 0, 0, 0, 0, w7] else
    [w0, f32Out r.shift, roundF32 false (units r.maxAbs), f32Out s1, f32Out s2, f32Out (f32Add r.shift (f32Div s1 n)),
     if r.n = 1 then 0 else f32Out (f32Div m2 n), w7], clamp)

/-- Word index in the tally memory. -/
def tallyWord (x i j : Nat) : Nat := (x * 1024 + i % 1024) * 8 + j

/-- Close the open row of unit `x` (R343, R344, R347). `due`: the running edge at which its record is written. -/
def closeRow (s : State) (x : Nat) (part abort : Bool) (due : Option Nat) : State :=
  let u := s.tally x
  if !u.row.isOpen then s else
  let (ws, clamp) := recordWords u.row part abort u.sq u.cur.task
  let s1 := s.setTally x { u with
    row := emptyRow, index := (u.index + 1) % 1024, sq := (u.sq + 1) % 65536, pend := u.pend ++ [⟨due, u.index, ws⟩] }
  let s2 := bump s1 .tallyRows x 31 0
  let s3 := if clamp then bump s2 .tallyClamps x 31 0 else s2
  let s4 := if part then bump s3 .tallyParts x 15 0 else s3
  if abort then bump s4 .tallyParts x 31 16 else s4

/-- A row opens: VALID of its record clears (R351). -/
def openRow (s : State) (x : Nat) : State :=
  let u := s.tally x
  if u.row.isOpen then s else
  let i := tallyWord x u.index 0
  (storeWord s .tally i (setBit (loadWord s .tally i).data 31 false)).setTally x { u with row := { emptyRow with isOpen := true } }

/-- Count granules of elements; a row closes with its last element (R341, R343). -/
def countGrans (x due : Nat) : List (List InVal) → State → State
  | [], s => s
  | g :: t, s =>
    let s1 := openRow s x
    let u := s1.tally x
    let s2 := s1.setTally x { u with row := rowGran u.row g }
    countGrans x due t
      (if (if u.cur.rowg = 0 then 256 else u.cur.rowg) ≤ u.row.grans + 1 then closeRow s2 x false false (some due) else s2)

/-- A write batch of port `x` begins: it takes the setting in force, and with a setting not yet taken the record index restarts
at its TREC (R344). -/
def tallyBatch (s : State) (x : Nat) : State × Bool :=
  let u := s.tally x
  if u.setAt < s.clk then (s.setTally x { u with samp := u.set, fresh := false }, u.fresh)
  else (s.setTally x { u with samp := u.old, oldFresh := false }, u.oldFresh)

/-- Records that waited for their batch's last request fall due (R351). -/
def tallyEnd (s : State) (x due : Nat) : State :=
  let s1 := closeRow s x true false (some due)
  let u := s1.tally x
  s1.setTally x { u with pend := u.pend.map fun p => if p.due = none then { p with due := some due } else p }

/-- The input elements of a request as granules of 32 (R340). -/
def tallyElems (s : State) (x k : Nat) (plan : WritePlan) (ds : List Desc) : List (List InVal) :=
  let p := prof s x k
  match plan with
  | .fail => []
  | .metas => []
  | .raw => ds.flatMap fun q => if q.valid then
      (List.range q.gcnt).map fun i => (halves (rowBytes (q.data.getD (q.gaddr % 8 + i) 0))).map (inVal p.inFp16) else []
  | .plain => runs32 (inputElems p ((namedGrans ds).length * 64) ds)
  | .elems _ _ => match blkOf p.format with
    | some b => runs32 (inputElems p ((namedGrans ds).length * 64 / b.slot * b.elems) ds)
    | none => []

/-- A write request is sampled: what it brings to its unit, and a request the setting ignores is counted as such (R344). -/
def tallySample (s : State) (x : Nat) (tly restart : Bool) (gs : List (List InVal)) : State × TallyJob :=
  let set := (s.tally x).samp
  (if tly && !set.en then bump s .tallyIgnored x 31 0 else s, ⟨set, restart, tly, if tly && set.en then gs else []⟩)

/-- A write request's stripes have met their fate, `ok` where every one has committed: its elements are counted, or its batch has
aborted (R342, R343). `n`: its sampling edge. The edge of the count, that of the response, is the model's (log entry 51). -/
def tallyRequest (s : State) (x n : Nat) (ok last : Bool) (j : TallyJob) : State :=
  let u := s.tally x
  let s1 := s.setTally x { u with cur := j.set, index := if j.restart then j.set.trec else u.index }
  let s2 := if ok then countGrans x (n + 12) j.grans s1 else closeRow s1 x true true none
  if last then tallyEnd s2 x (n + 12) else s2

/-- TALLY[x].NEXT.INDEX: the record of the open row, else of the row that the next request to be counted, or the next batch, would
open (R344, R355). -/
def tallyNext (s : State) (x : Nat) : Nat :=
  let u := s.tally x
  let v := s.wrDir x
  if u.row.isOpen then u.index else
  match (v.beats.filterMap Beat.tally).head? with
  | some j => if j.restart then j.set.trec else u.index
  | none => if u.fresh && !v.isOpen then u.set.trec else u.index

/-- TALY in a fill sequencer's run: the setting for batches that begin later (R232, R344). -/
def setTaly (s : State) (x : Nat) (v : TalySet) : State :=
  let u := s.tally x
  let past := decide (u.setAt < s.clk)
  s.setTally x { u with
    set := v, setAt := s.clk, fresh := true
    old := if past then u.set else u.old
    oldFresh := if past then u.fresh else u.oldFresh }

/-- Write one record, VALID included (R351). -/
def writeRecord (s : State) (x : Nat) (p : TallyPend) : State :=
  ((List.range p.words.length).zip p.words).foldl (fun s e => storeWord s .tally (tallyWord x p.index e.1) e.2) s

/-- TALLY_RECORD_WRITE: the records due are written. -/
def doTallyWrite (x : Nat) (s : State) : State :=
  let due := fun (p : TallyPend) => match p.due with | some d => decide (d ≤ s.run) | none => false
  let u := s.tally x
  (u.pend.filter due).foldl (fun s p => writeRecord s x p) (s.setTally x { u with pend := u.pend.filter fun p => !due p })

/-- Read words of a tally buffer: data, corrected words, uncorrectable words, the record of the first of these. -/
def readTally (s : State) (is : List Nat) : List Word × Nat × Nat × Nat :=
  let ws := is.map fun i => (i, loadWord s .tally i)
  let bad := ws.filter fun w => w.2.ue
  (ws.map fun w => w.2.data, (ws.filter fun w => w.2.ce).length, bad.length,
    ((bad.head?).map fun w => w.1 / 8 % 1024).getD 0)

/-- Count what a tally buffer read found; an uncorrectable word raises a data-class event (R352). -/
def countTally (s : State) (x ce ue loc : Nat) : State :=
  let s1 := bump (bump s .tallyEcc x 15 0 ce) .tallyEcc x 31 16 ue
  if ue = 0 then s1 else raise s1 (fuPg (groupOf x)) 1 loc 7

/-- Words as granules. -/
def wordsToRows : Nat → List Word → List Row
  | 0, _ => []
  | n + 1, ws => rowOf ((ws.take 16).flatMap fun w => natBytes 4 w.toNat) :: wordsToRows n (ws.drop 16)

/-- TALLY_CNT_CLR. -/
def doTallyClr (x : Nat) (s : State) : State :=
  [RegId.tallyRows, .tallyClamps, .tallyParts, .tallyIgnored, .tallyEcc].foldl (fun s id => setRg s id x 0) s

end Sys2Proof.Machine
end

