-- ==== Sys2Proof/Machine/Ports.lean ====
section
/-! DEFINITION. Slot-port reads and scalar ports: sampling, checks, lanes, batches, aborts, delivery, tags and responses
(R146 to R161). -/

namespace Sys2Proof.Machine

/-! ### Ready (R148, R149, R156) -/

/-- Index of a master's reset: port group, porter, link port (R175). -/
def rstPg (g : Nat) : Nat := g
def rstPorter (p : Nat) : Nat := 16 + p
def rstLink (l : Nat) : Nat := 32 + l

/-- The master is in reset: from edge 0 until completion and the release of its line (R175, R180). -/
def inReset (s : State) (m : Nat) : Bool := (s.rst m).active || (s.rst m).lineLow || decide (s.clk < (s.rst m).endAt)

/-- The port group takes requests: READY, not in the safe state, not in reset, its domain ON (R148). -/
def groupUp (s : State) (g : Nat) : Bool :=
  decide (s.life = .ready) && !s.safe && !inReset s (rstPg g) && decide ((dom s (256 + g)).st = 0)

/-- Enable bit `b` of a port group's ports as it is in force at this edge: a write takes effect at the first ACLK edge
after its acceptance, a held one included (R149). -/
def pgEnabled (s : State) (g b : Nat) : Bool := bitOf (rgIn s.regsA .pgCtrl g) b

/-- phj_x_rdy of matrix or vector port `x` (R148). -/
def slotReady (s : State) (x : Nat) : Bool :=
  groupUp s (groupOf x) && pgEnabled s (groupOf x) (if x < 16 then 0 else 1)

/-! ### Failures of a batch (R158, R161) -/

/-- The first failure of a batch or a failed scalar access: event, LAST_ABORT and ABORTS (R161). `port`: 0 matrix,
1 vector, 2 scalar. -/
def portFailure (s : State) (g port : Nat) (d : Dir) (st a : Nat) (k : Checked) : State :=
  let s1 := match statusBit st with
    | some b => raise s (fuPg g) b (addrLoc a) st
    | none => if st = 5 then mappedOut s k a none else s
  let s1 := if port = 2 then s1 else countFmtFault s1 (16 * port + g) st
  let s2 := if port = 2 then bump s1 .pgAborts g 31 16 else bump s1 .pgAborts g 15 0
  if bitOf (rg s2 .pgLastAbort g) 7 then s2 else
  setRg s2 .pgLastAbort g (BitVec.ofNat 32
    (st + 16 * port + 64 * (match d with | .rd => 0 | .wr => 1) + 128 + 256 * addrLoc a))

/-- A refused stripe of an already failed batch: only the quarantine counts it (R161, R481). -/
def laterFailure (s : State) (st : Nat) (k : Checked) : State :=
  if st = 5 && k.quar then bump s .fuQhits k.col 31 0 else s

/-- A further failing stripe of the request that fails the batch: its column counts a quarantine's refusal or reports a mapped-out
access, each one of them (R52, R481); nothing else is raised or latched (R161). -/
def besideFailure (s : State) (st a : Nat) (k : Checked) : State := if st = 5 then mappedOut s k a none else s

/-- The failure of request `n` of a batch is known at edge `e`; an earlier request's stands (R159). -/
def noteFailed (v : SlotDir) (batch e n : Nat) : SlotDir :=
  if v.failed.any fun f => decide (f.1 = batch ∧ f.2.2 ≤ n) then v else { v with failed := v.failed ++ [(batch, e, n)] }

/-- Class 0 matrix, 1 vector of slot port `x`. -/
def slotClass (x : Nat) : Nat := if x < 16 then 0 else 1

/-- Running edge offset of a half's lane: reads n+3, n+4; writes n+5, n+6 (R105, R107). -/
def laneOffset (d : Dir) (half : Bool) : Nat := (match d with | .rd => 3 | .wr => 5) + b2n half

/-! ### Reads (R105, R109, R150 to R152, R159) -/

/-- The status of one descriptor: the checks of R87, then the slot miss (R109, R151), 0 where it is not valid. `used`:
(column, half) pairs taken by lower descriptors of the request. -/
def descCheck (s : State) (x : Nat) (d : Dir) (packed : Bool) (used : List (Nat × Bool)) (q : Desc) : Checked :=
  if !q.valid then refusedAt 0 else
  let k := checkWide s (slotClient x) (match d with | .rd => false | .wr => true) packed (q.gaddr * 64) q.gcnt
  if k.st ≠ 0 then k
  else if used.contains (k.col, q.half) || ownerIn s k.col d (laneOffset d q.half) != slotOwner x then { k with st := 6 }
  else k

/-- The checks of a request's descriptors in order. A valid descriptor whose region is known takes its column's half, whether or
not its checks pass (R151). -/
def descChecks (s : State) (x : Nat) (d : Dir) (packed : Bool) : List (Nat × Bool) → List Desc → List (Desc × Checked)
  | _, [] => []
  | used, q :: t =>
    let k := descCheck s x d packed used q
    (q, k) :: descChecks s x d packed (if q.valid && k.st != 2 && k.st != 3 then (k.col, q.half) :: used else used) t

/-- A stripe fails as uncorrectable: an uncorrectable word in a requested granule, or a parity error in the crossbar's return path
(R45, R465). -/
def laneUe (l : RdLane) : Bool := l.par || l.grans.any fun g => decide ((readRow g.2).ue ≠ 0)

/-- The running edge and number at which the port knows its open read batch has failed: a check, or an uncorrectable word
of an earlier request by its edge n+12 (R159). -/
def readFailed (s : State) (x : Nat) (v : SlotDir) : Bool :=
  (v.failed.any fun f => decide (f.1 = v.batch ∧ f.2.1 < s.run)) ||
  (v.beats.any fun b => decide (b.batch = v.batch ∧ b.at_ + 12 < s.run) &&
    s.rdLanes.any fun l => (match l.use with | .slot y n _ => decide (y = x ∧ n = b.id) | _ => false) && laneUe l)

/-- Begin a request: the batch it belongs to (R155). -/
def openBatch (v : SlotDir) : SlotDir := if v.isOpen then v else { v with batch := v.batch + 1, isOpen := true }

/-- Record a descriptor's state in its beat. -/
def descState (q : Desc) (k : Checked) (st : Nat) : DescSt :=
  ⟨q.valid, st, q.gaddr * 64, k.grans.map Prod.fst, k.col, turnOf k⟩

/-- The read lanes of the descriptors that pass (R105). -/
def readLanes (s : State) (x beat : Nat) : Nat → List (Desc × Checked) → List RdLane
  | _, [] => []
  | i, (q, k) :: t =>
    if q.valid && k.st == 0 then
      newLane k.col (.slot x beat i) x (k.grans.map Prod.snd) (s.run + laneOffset .rd q.half + 4) (s.run + 16) ::
        readLanes s x beat (i + 1) t
    else readLanes s x beat (i + 1) t

/-- What is done with the failing stripes of a request: those of the request that fails its batch, the first of them apart; those
of a request whose batch has failed. -/
def restFailure (known : Bool) (s : State) (q : Desc) (k : Checked) : State :=
  if known then laterFailure s k.st k else besideFailure s k.st (q.gaddr * 64) k

/-- The events of a request's failing descriptors: the first failure of the batch is reported (R161). -/
def reportChecks (s : State) (x : Nat) (d : Dir) (known : Bool) (ks : List (Desc × Checked)) : State :=
  match ks.filter fun e => e.2.st != 0 with
  | [] => s
  | (q, k) :: t =>
    let s1 := if known then restFailure known s q k else portFailure s (groupOf x) (slotClass x) d k.st (q.gaddr * 64) k
    t.foldl (fun s e => restFailure known s e.1 e.2) s1

/-- A descriptor that passed its checks fails the request's format check (R302, R311, R315). -/
def formatFail (ks : List (Desc × Checked)) : List (Desc × Checked) :=
  ks.map fun e => if e.1.valid && e.2.st == 0 then (e.1, { e.2 with st := 9 }) else e

/-- SLOT_READ_REQUEST. A column read takes only a pass-through profile with a format of R302 (R311). -/
def doSlotRead (x : Nat) (ds : List Desc) (fmt : Nat) (last : Bool) (s : State) : State :=
  if !(slotReady s x && sampling s) then s else
  let p := prof s x fmt
  let ds := ds.take (if x < 16 then 4 else 1)
  let v := openBatch (s.rdDir x)
  let beat := v.next
  let keep := fun (v : SlotDir) (b : Beat) => { v with next := v.next + 1, isOpen := !last, beats := v.beats ++ [b] }
  if readFailed s x v then
    s.setRdDir x (keep v ⟨beat, v.batch, s.run, s.run + 16, fmt, ds.map fun q => ⟨q.valid, 1, q.gaddr * 64, [], 0, 0⟩, last, none⟩)
  else
    let ks := descChecks s x .rd p.packed [] ds
    let ks := if p.reserved || p.rdMode != 0 then formatFail ks else ks
    let bad := ks.any fun e => e.2.st != 0
    let known := v.failed.any fun f => f.1 == v.batch
    let s1 := reportChecks s x .rd known ks
    let v1 := if bad then noteFailed v v.batch (s.run + 2) beat else v
    let s2 := s1.setRdDir x
      (keep v1 ⟨beat, v.batch, s.run, s.run + 16, fmt, ks.map fun e => descState e.1 e.2 e.2.st, last, none⟩)
    { s2 with rdLanes := s2.rdLanes ++ readLanes s x beat 0 ks }

/-- The lane of descriptor `i` of a beat. -/
def slotLane (s : State) (x beat i : Nat) : Option RdLane :=
  s.rdLanes.find? fun l => decide (l.use = .slot x beat i)

/-- The data bus of one delivered stripe: granules in their places, through the element turn (R150, R92). -/
def descData (d : DescSt) (l : RdLane) : List Row :=
  turnOut d.elem (stripeRows (d.grans.zip ((l.got.getD []).map fun g => (readRow g).data)))

/-- The status a stripe is delivered with: its check's, 0x7 on an uncorrectable word, 0x1 in a batch failed earlier
(R45, R159). -/
def deliverSt (aborted : Bool) (d : DescSt) (l : Option RdLane) : Nat :=
  if !d.valid then 0 else if aborted then 1 else if d.st ≠ 0 then d.st else
  match l with
  | some l => if laneUe l then 7 else 0
  | none => 0

/-- Close a batch whose last request is answered (R155, R161). -/
def closeBatch (v : SlotDir) (b : Beat) : SlotDir :=
  if b.last then { v with failed := v.failed.filter fun f => f.1 != b.batch } else v

/-- READ_DELIVERY: the oldest request whose edge n+16 has come is delivered (R152, R159). -/
def doReadDelivery (x : Nat) (s : State) : State :=
  let v := s.rdDir x
  match v.beats.find? fun b => decide (b.due ≤ s.run) with
  | none => s
  | some b =>
    let aborted := v.failed.any fun f => decide (f.1 = b.batch ∧ f.2.2 < b.id)
    let known := v.failed.any fun f => decide (f.1 = b.batch)
    let es := (List.range b.descs.length).zip b.descs |>.map fun e =>
      let l := slotLane s x b.id e.1
      (e.2, l, deliverSt aborted e.2 l)
    let lanes := es.filterMap fun e => e.2.1
    let s1 := lanes.foldl (fun s l => foundAll s l.col l.finds .client) s
    let s2 := match es.find? fun e => decide (e.2.2 = 7) with
      | some e => if known then s1 else portFailure s1 (groupOf x) (slotClass x) .rd 7 e.1.addr default
      | none => s1
    let v1 := if es.any (fun e => decide (e.2.2 = 7)) then noteFailed v b.batch (b.at_ + 12) b.id else v
    let v2 := closeBatch { v1 with beats := v1.beats.filter fun c => c.id != b.id } b
    let out : SlotOut := ⟨b.due, es.map fun e => e.1.valid && decide (e.2.2 = 0), es.map fun e => e.2.2,
      es.flatMap fun e => match e.2.1 with
        | some l => if e.2.2 = 0 then descData e.1 l else List.replicate 8 0
        | none => List.replicate 8 0⟩
    let s3 := { s2 with rdLanes := s2.rdLanes.filter fun l => match l.use with
      | .slot y n _ => decide (y ≠ x ∨ n ≠ b.id)
      | _ => true }
    { s3.setRdDir x v2 with slotRdOut := Tab.set (fun _ => ⟨0, [], [], []⟩) s3.slotRdOut x out }

/-! ### Scalar ports (R156, R157) -/

/-- phj_s_rdy of scalar port `g` (R148, R156). A request holds an entry of the input buffer from the edge at which its column's
queue is found full until it enters; one still in its checks holds none (DESIGN CHOICE, log entry 50). -/
def scalarReady (s : State) (g : Nat) : Bool :=
  groupUp s g && pgEnabled s g 2 && decide ((s.scalar g).length < 16) &&
  decide (((s.scalar g).filter fun x => decide (x.stage = .buffered)).length < 4)

/-- The read lane of a scalar access, or the read half of a narrow write (R84, R127). -/
def scalarEntry (g : Nat) (x : Scalar) (at_ : Nat) : QEntry :=
  ⟨.scalar g x.id, [x.acc], [], passClass x.pass, some (passTask x.pass), at_, none⟩

/-- Replace an outstanding access. -/
def setScalarAt (s : State) (g : Nat) (x : Scalar) : State :=
  s.setScalar g ((s.scalar g).map fun y => if y.id = x.id then x else y)

/-- The S_LIM of a passport class keeps the port's requests of that class in the input buffer (R454, R455). -/
def scalarHeld (s : State) (g : Nat) (x : Scalar) : Bool :=
  let lim := min 16 (rf s .regClassLimit (passClass x.pass) 20 16)
  bitOf (rg s .regCtrl) 0 && decide (lim ≠ 0) &&
  decide (lim ≤ ((s.scalar g).filter fun y => y.ready.isSome && decide (y.stage ≠ .buffered) &&
    passClass y.pass == passClass x.pass).length)

/-- An access that passed its checks leaves the input buffer for its column's read queue in the buffer's
order within a column (R125, R156, R454). -/
def scalarEnter (s : State) (g : Nat) (x : Scalar) (at_ : Nat) : State :=
  let before := (s.scalar g).any fun y => decide (y.stage = .buffered ∧ y.id < x.id ∧ y.col = x.col)
  if before || scalarHeld s g x then s else
  match enqueue s x.col .rd (20 + g) (scalarEntry g x at_) with
  | some s1 => setScalarAt s1 g { x with stage := .reading }
  | none => s

/-- SCALAR_REQUEST (R156, R157): tag reuse and failed checks fall due at n+4; the others enter the queue at n+3. The passport
is the one in force before the commands of this edge (R448). -/
def doScalarRequest (g : Nat) (q : ScalarReq) (s : State) : State :=
  if !(scalarReady s g && sampling s) then s else
  let add := fun (s : State) (x : Scalar) => { s.setScalar g (s.scalar g ++ [x]) with nextScalar := s.nextScalar + 1 }
  let id := s.nextScalar
  let pass := fld (rgIn s.regsA .regPassPg g) 15 0
  if (s.scalar g).any fun x => x.req.tag == q.tag then
    add (portFailure s g 2 (if q.we then .wr else .rd) 2 q.addr default)
      ⟨id, q, pass, none, s.run, 0, default, false, .due (s.run + 4) 2 0⟩
  else
    let k := checkNarrow s (.scalar g) q.we q.addr q.size
    if k.st ≠ 0 then
      add (portFailure s g 2 (if q.we then .wr else .rd) k.st q.addr k)
        ⟨id, q, pass, none, s.run, 0, default, false, .due (s.run + 4) k.st 0⟩
    else
      let x : Scalar := ⟨id, q, pass, some s.clk, s.run, k.col, ((k.grans.head?).map Prod.snd).getD default, false, .buffered⟩
      scalarEnter (add s x) g x (s.run + 3)

/-- Buffered accesses try their queues again (R125). -/
def scalarRetry (s : State) (g : Nat) : State :=
  ((s.scalar g).filter fun x => decide (x.stage = .buffered ∧ x.at_ + 3 ≤ s.run)).foldl
    (fun s x => scalarEnter s g x s.run) s

/-- The bytes of a scalar read, aligned to bit 0 (R157). -/
def scalarData (q : ScalarReq) (r : Row) : BitVec 64 :=
  BitVec.ofNat 64 (leNat (((rowBytes r).drop (q.addr % 64)).take q.size))

/-- The 16-byte word of a scalar access is uncorrectable in its row (R45). -/
def scalarUe (q : ScalarReq) (r : RowRead) : Bool := nbit r.ue (q.addr % 64 / 16)

/-- The lane of a scalar access whose data is due. -/
def scalarLane (s : State) (g id : Nat) : Option RdLane :=
  s.rdLanes.find? fun l => decide (l.use = .scalar g id ∧ l.due ≤ s.run) && l.got.isSome

/-- Turn the reads of scalar port `g` whose data is valid into responses due (R157): the row is checked and counted. -/
def scalarSettle (s : State) (g : Nat) : State :=
  ((s.scalar g).filter fun x => decide (x.stage = .reading) && !x.req.we).foldl (fun s x =>
    match scalarLane s g x.id with
    | some l =>
      let s1 := foundAll (dropLane s l) l.col l.finds .client
      let r := readRow ((l.got.getD []).headD default)
      let ue := scalarUe x.req r || l.par
      let s2 := if ue then portFailure s1 g 2 .rd 7 x.req.addr default else s1
      setScalarAt s2 g { x with stage := .due (aclkAt l.due) (if ue then 7 else 0) (if ue then 0 else scalarData x.req r.data) }
    | none => s) s

/-- The response presented at this edge: the oldest request among those due (R157). -/
def scalarDue (s : State) (g : Nat) : Option (Scalar × Nat × BitVec 64) :=
  (s.scalar g).findSome? fun x => match x.stage with
    | .due at_ st d => if at_ ≤ s.run then some (x, st, d) else none
    | _ => none

/-- SCALAR_RESPONSE: one response per ACLK edge (R157). -/
def doScalarResponse (g : Nat) (s : State) : State :=
  if !aclkEdge s then s else
  let s1 := scalarSettle s g
  match scalarDue s1 g with
  | some (x, st, d) =>
    { s1.setScalar g ((s1.scalar g).filter fun y => y.id != x.id) with
      scalarOut := Tab.set (fun _ => ⟨0, 0, false, 0, 0⟩) s1.scalarOut g ⟨s.run, x.req.tag, x.req.we, st, d⟩ }
  | none => s1

/-- The lane is the read half of a narrow write of column `c` that is due in the merge buffer (R127). -/
def narrowHit (s : State) (c : Nat) (l : RdLane) : Bool :=
  decide (l.col = c ∧ l.due ≤ s.run) && l.got.isSome &&
  (match l.use with
   | .scalar g id => match (s.scalar g).find? fun x => x.id == id with
     | some x => x.req.we
     | none => false
   | _ => false)

/-- A narrow write's merge need not wait for room in its port's write queue, as one that finds it full does (R125). -/
def narrowReady (s : State) (c : Nat) (l : RdLane) : Bool :=
  narrowHit s c l &&
  (match l.use with
   | .scalar g id =>
     queueRoom s c .wr (20 + g) || quarantined s c ||
     (s.scalar g).any fun x => x.id == id && scalarUe x.req (readRow ((l.got.getD []).headD default))
   | _ => false)

/-- An access that the quarantine of column `c` refuses. -/
def quarCheck (c : Nat) : Checked := { refusedAt 5 with quar := true, col := c }

/-- The refusal of an access whose tile is no longer in ON (R546): a mapped-out access. -/
def holeCheck (c t : Nat) : Checked := { refusedAt 5 with col := c, tier := t }

/-- Why an access to a tile can no longer issue, if it cannot: its column is quarantined, or the tile is not in ON (R481, R546). -/
def outCheck (s : State) (c t : Nat) : Option Checked :=
  if quarantined s c then some (quarCheck c) else if tileOn s c t then none else some (holeCheck c t)

/-- A scalar access that can no longer issue is refused after its sampling: it falls due once its checks are over (R157, R481). -/
def refuseScalar (s : State) (k : Checked) (g : Nat) (x : Scalar) : State :=
  setScalarAt (portFailure s g 2 (if x.req.we then .wr else .rd) 5 x.req.addr k) g
    { x with stage := .due (aclkAt (max s.run (x.at_ + 3))) 5 0, ready := none }

/-- NARROW_WRITE_MERGE: the read half of a narrow write in column `c` is due in the merge buffer; the write half enters the
write queue, or the write is abandoned on an uncorrectable word (R44, R127) or where its tile serves no more (R481, R546). -/
def doNarrowMerge (c : Nat) (s : State) : State :=
  match s.rdLanes.find? (narrowReady s c) with
  | some l => match l.use with
    | .scalar g id => match (s.scalar g).find? fun x => x.id == id with
      | some x =>
        let d := (l.got.getD []).headD default
        let r := readRow d
        let s1 := foundAll (dropLane s l) c l.finds .rmw
        if scalarUe x.req r then
          setScalarAt (portFailure s1 g 2 .wr 7 x.req.addr default) g { x with stage := .due (aclkAt l.due) 7 0 }
        else if let some k := outCheck s c x.acc.tier then refuseScalar s1 k g x
        else
          let e : QEntry := ⟨.scalarWr g id, [x.acc], [narrowMerge d x.req], passClass x.pass,
            some (passTask x.pass), s.run, none⟩
          match enqueue s1 c .wr (20 + g) e with
          | some s2 => setScalarAt s2 g { x with stage := .writing, issued := false }
          | none => s
      | none => s
    | _ => s
  | none => s

end Sys2Proof.Machine
end

