-- ==== Sys2Proof/Machine/Writes.lean ====
section
/-! DEFINITION. Slot-port writes, their responses, tally reads, port enables (R107, R149 to R155, R160, R342, R352). -/

namespace Sys2Proof.Machine

/-- The granules of one descriptor as its lane carries them: in their places, through the element turn (R92, R150). What a
column aperture's named granules take stands all over the descriptor's bus place. -/
def laneData (q : Desc) (k : Checked) (raw : Bool) (rows : List Row) : List Coded :=
  let places := (List.range 8).map fun j =>
    if raw then q.data.getD j 0
    else if q.gaddr % 8 ≤ j ∧ j < q.gaddr % 8 + q.gcnt then rows.getD (j - q.gaddr % 8) 0 else 0
  let cells := turnIn (turnOf k) places
  k.grans.map fun g => fresh (cells.getD g.1 0)

/-- The write lanes of a request's descriptors, taking the stored granules in order (R107). -/
def writeLanes (s : State) (x beat : Nat) (raw : Bool) : Nat → List (Desc × Checked) → List Row → List WrLane
  | _, [], _ => []
  | i, (q, k) :: t, rows =>
    if q.valid then
      ⟨k.col, .slot x beat i, x, k.grans.map Prod.snd, laneData q k raw (rows.take q.gcnt), s.run + laneOffset .wr q.half + 4, none⟩ ::
        writeLanes s x beat raw (i + 1) t (rows.drop q.gcnt)
    else writeLanes s x beat raw (i + 1) t rows

/-- A sampled write request joins its batch. -/
def addWrite (s : State) (x : Nat) (v : SlotDir) (fmt : Nat) (descs : List DescSt) (last : Bool) (j : TallyJob) : State :=
  s.setWrDir x { v with
    next := v.next + 1, isOpen := !last, beats := v.beats ++ [⟨v.next, v.batch, s.run, s.run + 10, fmt, descs, last, some j⟩] }

/-- SLOT_WRITE_REQUEST (R107, R160, R315, R342). -/
def doSlotWrite (x : Nat) (ds : List Desc) (fmt : Nat) (tly last : Bool) (s : State) : State :=
  if !(slotReady s x && sampling s) then s else
  let p := prof s x fmt
  let ds := ds.take (if x < 16 then 2 else 1)
  let v := openBatch (s.wrDir x)
  let (s0, restart) := if (s.wrDir x).isOpen then (s, false) else tallyBatch s x
  let l := if p.sr then some (rg s .chgSrState x) else none
  let s1 := if p.sr then stepSr s0 x else s0
  if v.failed.any fun f => f.1 == v.batch then
    let (s2, j) := tallySample s1 x tly restart []
    addWrite s2 x v fmt (ds.map fun q => ⟨q.valid, 1, q.gaddr * 64, [], 0, 0⟩) last j
  else
    let plan := writePlan s1 x fmt ds
    let ks := descChecks s1 x .wr p.packed [] ds
    let ks := if plan = .fail then formatFail ks else ks
    if ks.any fun e => e.2.st != 0 then
      let (s2, j) := tallySample (reportChecks s1 x .wr false ks) x tly restart []
      addWrite s2 x { v with failed := v.failed ++ [(v.batch, s.run + 3, v.next)] } fmt
        (ks.map fun e => descState e.1 e.2 (if e.2.st = 0 then 1 else e.2.st)) last j
    else
      let (s2, rows) := changeWrite s1 x fmt l plan ds
      let (s3, j) := tallySample s2 x tly restart (tallyElems s1 x fmt plan ds)
      let s4 := addWrite s3 x v fmt (ks.map fun e => descState e.1 e.2 0) last j
      { s4 with wrLanes := s4.wrLanes ++ writeLanes s x v.next (plan == .raw) 0 ks rows }

/-! ### Stripes that fail after their sampling (R159, R160, R481) -/

/-- The lane of a write stripe has issued before this edge (R107, R481). -/
def laneIssued (s : State) (x : Nat) (b : Beat) (k : Nat) : Bool :=
  decide (b.at_ + 7 ≤ s.run) || s.wrLanes.any fun l => decide (l.use = .slot x b.id k ∧ l.bank < s.run + 4)

/-- A beat's descriptors once stripe `k` of request `beat` has failed with `st`: no stripe of that request, nor of a later one of
its batch, whose lane had not issued is written (R160). -/
def voidWrites (s : State) (x : Nat) (b : Beat) (k st : Nat) (c : Beat) : Beat :=
  if c.batch ≠ b.batch ∨ c.id < b.id then c else
  { c with descs := ((List.range c.descs.length).zip c.descs).map fun p =>
      if c.id = b.id ∧ p.1 = k then { p.2 with st := st }
      else if p.2.valid && p.2.st == 0 && !laneIssued s x c p.1 then { p.2 with st := 1 } else p.2 }

/-- Stripe `k` of read request `b` fails with `st`: the requests after it are aborted (R159). -/
def failRead (s : State) (x : Nat) (b : Beat) (k st : Nat) : State :=
  let v := s.rdDir x
  let hit := fun (c : Beat) => if c.id = b.id then
      { c with descs := ((List.range c.descs.length).zip c.descs).map fun p => if p.1 = k then { p.2 with st := st } else p.2 }
    else c
  s.setRdDir x (noteFailed { v with beats := v.beats.map hit } b.batch s.run b.id)

/-- Stripe `k` of write request `b` fails with `st`, 0x1 where an earlier request of the batch has failed (R160). -/
def failWrite (s : State) (x : Nat) (b : Beat) (k st : Nat) : State :=
  let v := s.wrDir x
  let st := if v.failed.any fun f => decide (f.1 = b.batch ∧ f.2.2 < b.id) then 1 else st
  let s1 := s.setWrDir x (noteFailed { v with beats := v.beats.map (voidWrites s x b k st) } b.batch s.run b.id)
  let gone := fun (l : WrLane) => match l.use with
    | .slot y n _ => decide (y = x ∧ b.id ≤ n ∧ s.run + 4 ≤ l.bank) && v.beats.any fun c => decide (c.id = n ∧ c.batch = b.batch)
    | _ => false
  { s1 with wrLanes := s1.wrLanes.filter fun l => !gone l }

/-- Descriptor `k` of a sampled request of port `x`, its lane not issued, fails with `st`; the first failure of the batch is
reported, a later one only counted where a quarantine refuses it (R161, R481). -/
def stripeFails (s : State) (d : Dir) (x beat k st : Nat) (chk : Checked) : State :=
  let v := match d with | .rd => s.rdDir x | .wr => s.wrDir x
  match v.beats.find? fun b => b.id == beat with
  | none => s
  | some b =>
    let addr := (((b.descs[k]?).map DescSt.addr).getD 0)
    let s1 := match d with | .rd => failRead s x b k st | .wr => failWrite s x b k st
    if v.failed.any fun f => f.1 == b.batch then laterFailure s1 st chk
    else portFailure s1 (groupOf x) (slotClass x) d st addr chk

/-- WRITE_RESPONSE: the oldest request whose edge n+10 has come is answered, and its Tally unit counts it (R153, R342). -/
def doWriteResponse (x : Nat) (s : State) : State :=
  let v := s.wrDir x
  match v.beats.find? fun b => decide (b.due ≤ s.run) with
  | none => s
  | some b =>
    let out : SlotOut := ⟨b.due, b.descs.map DescSt.valid, b.descs.map fun d => if d.valid then d.st else 0, []⟩
    let s1 := { s.setWrDir x (closeBatch { v with beats := v.beats.filter fun c => c.id != b.id } b) with
      slotWrOut := Tab.set (fun _ => ⟨0, [], [], []⟩) s.slotWrOut x out }
    match b.tally with
    | some j => tallyRequest s1 x b.at_ (b.descs.all fun d => !d.valid || d.st == 0) b.last j
    | none => s1

/-! ### Tally reads (R352) -/

/-- TALLY_READ at the vector port of group `g`: 16 records of TALLY[g] or TALLY[16 + g], valid at edge e+2. -/
def doTallyRead (g : Nat) (sel : Bool) (idx : Nat) (s : State) : State :=
  if !(slotReady s (16 + g) && sampling s) then s else
  let x := if sel then 16 + g else g
  let (ws, ce, ue, loc) := readTally s ((List.range 128).map fun j => tallyWord x (idx + j / 8) (j % 8))
  let s1 := countTally s x ce ue loc
  let out : SatOut :=
    ⟨s.run + 2, [if ue = 0 then 0 else 7], if ue = 0 then wordsToRows 8 ws else List.replicate 8 0⟩
  { setLast s1 (lastTallyV x) with tallyOut := Tab.set (fun _ => ⟨0, [], []⟩) s1.tallyOut g out }

/-! ### Port enables (R149) -/

/-- A write of PG[g].CTRL. -/
def doPortCtrl (g : Nat) (v : Word) (s : State) : State :=
  setRg s .pgCtrl g (v &&& RegId.pgCtrl.row.rw)

/-- A batch ends at its last sampled request (R149). -/
def endBatch (v : SlotDir) : SlotDir :=
  if !v.isOpen then v else
  match v.beats.getLast? with
  | some b =>
    if b.batch = v.batch then
      { v with isOpen := false, beats := v.beats.map fun c => if c.id = b.id then { c with last := true } else c }
    else { v with isOpen := false, failed := v.failed.filter fun f => f.1 != v.batch }
  | none => { v with isOpen := false, failed := v.failed.filter fun f => f.1 != v.batch }

/-- A request of the open batch is still to be answered. -/
def batchWaits (v : SlotDir) : Bool := v.beats.any fun b => b.batch == v.batch

/-- The open batches of a disabled slot port end (R149); a row that its requests, all answered, left open closes now (R343). -/
def closePort (s : State) (x : Nat) : State :=
  let w := s.wrDir x
  let s1 := if w.isOpen && !batchWaits w then tallyEnd s x s.run else s
  let s2 := if w.isOpen then s1.setWrDir x (endBatch w) else s1
  if (s.rdDir x).isOpen then s2.setRdDir x (endBatch (s.rdDir x)) else s2

end Sys2Proof.Machine
end

