-- ==== Sys2Proof/Machine/SatRead.lean ====
section
/-! DEFINITION. Satchel contents and reads: slots, the Changer's read side, expansion, the range sentinel, held reads
(R182 to R188, R311 to R314, R333 to R337). -/

namespace Sys2Proof.Machine

/-! ### Contents (R182 to R184) -/

/-- Stripe slots of a half of satchel `x`. -/
def satSlots (x : Nat) : Nat := if x < 16 then 1024 else 256

/-- Key of a granule of a half. -/
def satKey (x : Nat) (half : Bool) (g : Nat) : Nat := x * 16384 + b2n half * 8192 + g

/-- A granule of a half as stored; 0 before anything lands. -/
def satGran (s : State) (x : Nat) (half : Bool) (g : Nat) : Coded := Tab.get (fun _ => fresh 0) s.satMem (satKey x half g)

/-- Store a granule of a half. -/
def setSatGran (s : State) (x : Nat) (half : Bool) (g : Nat) (d : Coded) : State :=
  { s with satMem := Tab.set (fun _ => fresh 0) s.satMem (satKey x half g) d }

/-- Fill bits of a half. -/
def Sat.fill (v : Sat) (half : Bool) : BitVec 1024 := if half then v.fill1 else v.fill0
/-- Escape granules of a half whose record has landed. -/
def Sat.esc (v : Sat) (half : Bool) : List Nat := if half then v.esc1 else v.esc0
/-- Escape granules taken in a half. -/
def Sat.used (v : Sat) (half : Bool) : List Nat := if half then v.used1 else v.used0
/-- Granules landed in a half, by the address of their stripe plus 1. -/
def Sat.land (v : Sat) (half : Bool) : Tab Nat := if half then v.land1 else v.land0
/-- A granule has landed since its half became the back half. -/
def Sat.landed (v : Sat) (half : Bool) (g : Nat) : Bool := decide (Tab.get (fun _ => 0) (v.land half) g ≠ 0)
/-- The P-space stripe a landed granule came from. -/
def Sat.source (v : Sat) (half : Bool) (g : Nat) : Nat := Tab.get (fun _ => 0) (v.land half) g - 1
/-- The back half. -/
def Sat.back (v : Sat) : Bool := !v.front

/-- A slot's fill bit. -/
def Sat.filled (v : Sat) (half : Bool) (slot : Nat) : Bool := (v.fill half).getLsbD slot

/-- Set a slot's fill bit (R184). -/
def Sat.mark (v : Sat) (half : Bool) (slot : Nat) : Sat :=
  let m := BitVec.ofNat 1024 (2 ^ slot)
  if half then { v with fill1 := v.fill1 ||| m } else { v with fill0 := v.fill0 ||| m }

/-- Granules land in a slot, from the stripe at `src`: they are noted and the slot's fill bit is set (R184). -/
def Sat.note (v : Sat) (half : Bool) (slot src : Nat) (gs : List Nat) : Sat :=
  let w := v.mark half slot
  let l := gs.foldl (fun l g => Tab.put g (src + 1) l) (w.land half)
  if half then { w with land1 := l } else { w with land0 := l }

/-- Take escape granules. -/
def Sat.take (v : Sat) (half : Bool) (gs : List Nat) : Sat :=
  if half then { v with used1 := v.used1 ++ gs } else { v with used0 := v.used0 ++ gs }

/-- Set the valid bits of escape granules. -/
def Sat.markEsc (v : Sat) (half : Bool) (gs : List Nat) : Sat :=
  let add := fun (l : List Nat) => l ++ gs.filter fun g => !l.contains g
  if half then { v with esc1 := add v.esc1 } else { v with esc0 := add v.esc0 }

/-- The half becomes the back half: fill bits, escape granules and those taken clear, nothing has landed. -/
def Sat.empty (v : Sat) (half : Bool) : Sat :=
  if half then { v with fill1 := 0, esc1 := [], used1 := [], land1 := [] }
  else { v with fill0 := 0, esc0 := [], used0 := [], land0 := [] }

/-! ### Reading stored blocks (R308 to R314) -/

/-- A granule through its code. -/
def satRow (s : State) (x : Nat) (half : Bool) (g : Nat) : RowRead := readRow (satGran s x half g)

/-- Bytes of a half from an offset, as one little-endian number. -/
def satNat (s : State) (x : Nat) (half : Bool) (off n : Nat) : Nat :=
  leNat ((List.range n).map fun i => rowByte (satRow s x half ((off + i) / 64)).data ((off + i) % 64))

/-- Byte offsets of the meta and the element slot of block `b` of the profile's stream (R309, R310). -/
def metaOff (p : Prof) (k : Blk) (b : Nat) : Nat := (p.sbase + b / k.blocks * k.frame) * 512 + b % k.blocks * k.mbytes
def slotOff (p : Prof) (k : Blk) (b : Nat) : Nat := (p.sbase + b / k.blocks * k.frame + 1) * 512 + b % k.blocks * k.slot

/-- Numbers from `a` to `b`. -/
def upTo (a b : Nat) : List Nat := (List.range (b + 1 - a)).map (a + ·)

/-- A stored block as a read finds it: its values, the escape granules holding its record, and whether its header is
still unresolved (R325, R333). -/
structure BlockRead where
  vals  : List OutVal
  esc   : List Nat
  markA : Bool
  deriving Repr

/-- The values of an escape record of `n` elements at escape granule `g`. -/
def recVals (s : State) (x : Nat) (half : Bool) (g n : Nat) : List OutVal :=
  (List.range n).map fun i =>
    blkVal 3 (satNat s x half (g * 64 + n + i / 32) 1) (satNat s x half (g * 64 + i) 1)

/-- Read block `b` of a block format. -/
def readBlock (s : State) (x : Nat) (half : Bool) (p : Prof) (k : Blk) (b : Nat) : BlockRead :=
  let m := satNat s x half (metaOff p k b) k.mbytes
  let w := satNat s x half (slotOff p k b) k.slot
  let mark := w / 16 % 16
  if m % 256 = 0xFF ∧ mark = 0xB then
    let g := w / 256 % 2 ^ 24
    ⟨recVals s x half g k.elems, upTo g (g + (if k.elems ≤ 32 then 0 else 1)), false⟩
  else if m % 256 = 0xFF ∧ mark = 0xA then ⟨List.replicate k.elems .free, [], true⟩
  else ⟨(List.range k.elems).map fun i => blkVal p.format m (slotCode p.format w i), [], false⟩

/-- Elements of the profile's stream in a half: the frames that end within it (R312). -/
def streamLen (x : Nat) (p : Prof) : Nat :=
  match blkOf p.format with
  | some k => (satSlots x - p.sbase) / k.frame * k.epf
  | none => (satSlots x - p.sbase) * 512

/-- Elements of an output stripe: 512 for FP8, 256 for BF16. -/
def outElems (p : Prof) : Nat := if p.rdMode = 1 then 512 else 256

/-- What output stripe `o` touches: granules of the half by offset, escape granules, values, an unresolved header. -/
structure OutRead where
  grans : List Nat
  esc   : List Nat
  vals  : List OutVal
  markA : Bool
  deriving Repr

/-- Blocks of an output stripe. -/
def outBlocks (p : Prof) (k : Blk) (o : Nat) : List Nat :=
  upTo (o * outElems p / k.elems) (((o + 1) * outElems p - 1) / k.elems)

/-- Granules of the half that a block's meta and slot occupy. -/
def blockGrans (p : Prof) (k : Blk) (b : Nat) : List Nat :=
  metaOff p k b / 64 :: upTo (slotOff p k b / 64) ((slotOff p k b + k.slot - 1) / 64)

/-- Read output stripe `o` under an expanding profile. -/
def readOut (s : State) (x : Nat) (half : Bool) (p : Prof) (o : Nat) : OutRead :=
  let e := outElems p
  match blkOf p.format with
  | some k =>
    let bs := outBlocks p k o
    let rs := bs.map (readBlock s x half p k)
    let esc := rs.flatMap BlockRead.esc
    ⟨(bs.flatMap (blockGrans p k) ++ esc).eraseDups, esc.eraseDups,
     ((rs.flatMap BlockRead.vals).drop (o * e % k.elems)).take e, rs.any BlockRead.markA⟩
  | none =>
    let off := p.sbase * 512 + o * e
    ⟨upTo (off / 64) ((off + e - 1) / 64), [],
     (List.range e).map fun i => blkVal p.format 0 (satNat s x half (off + i) 1), false⟩

/-- The stored elements that begin in slot `j`, for the sentinel of a pass-through read (R334). -/
def slotVals (s : State) (x : Nat) (half : Bool) (p : Prof) (j : Nat) : List OutVal :=
  match blkOf p.format with
  | some k =>
    let f := (j - p.sbase) / k.frame
    let st := (j - p.sbase) % k.frame
    if j < p.sbase ∨ st = 0 ∨ satSlots x < p.sbase + (f + 1) * k.frame then [] else
    let lo := (st - 1) * 4096
    (upTo ((st - 1) * 512 / k.slot) ((st * 512 - 1) / k.slot)).flatMap fun b =>
      let r := readBlock s x half p k (f * k.blocks + b)
      let vals := if r.markA || !r.esc.isEmpty then List.replicate k.elems .free else r.vals
      ((List.range k.elems).zip vals).filterMap fun e =>
        let bit := b * k.slot * 8 + (if p.format = 11 then e.1 / 5 * 8 else e.1 * elWidth p.format)
        if lo ≤ bit ∧ bit < lo + 4096 then some e.2 else none
  | none => if p.format = 0 then [] else
    (List.range 512).map fun i => blkVal p.format 0 (satNat s x half (j * 512 + i) 1)

/-- A pass-through read of slot `j` under a block format meets an escaped block's header not localised: part of the header lies in the
slot, and the block's meta has landed (R325, R333). -/
def slotMarkA (s : State) (x : Nat) (half : Bool) (p : Prof) (j : Nat) : Bool :=
  match blkOf p.format with
  | some k =>
    let f := (j - p.sbase) / k.frame
    let st := (j - p.sbase) % k.frame
    if j < p.sbase ∨ st = 0 ∨ satSlots x < p.sbase + (f + 1) * k.frame ∨ !(s.sat x).filled half (p.sbase + f * k.frame) then false else
    (upTo ((st - 1) * 512 / k.slot) ((st * 512 - 1) / k.slot)).any fun i =>
      decide ((st - 1) * 512 < i * k.slot + 4) && (readBlock s x half p k (f * k.blocks + i)).markA
  | none => false

/-! ### One stripe of a read (R188, R312, R313, R334, R336) -/

/-- One stripe as delivered: status, granules, granules touched, elements saturated on expansion, the first sentinel hit. -/
structure StripeRead where
  st    : Nat
  data  : List Row
  grans : List Nat
  sats  : Nat
  hit   : Option Nat
  ix    : Nat
  deriving Repr

/-- The profile cannot serve a satchel read: a reserved format or mode, or RAW expanding (R302, R311, R313). -/
def Prof.noRead (p : Prof) : Bool :=
  p.reserved || decide (p.rdMode = 3) || decide (p.format = 0 ∧ p.rdMode ≠ 0)

/-- The index of the first sentinel hit. -/
def firstHit (p : Prof) (vs : List OutVal) : Option Nat :=
  if p.sentEn then ((List.range vs.length).zip vs).findSome? fun e => if sentHit (sext 8 p.sentLim) e.2 then some e.1 else none
  else none

/-- A word of the touched granules is uncorrectable. -/
def touchUe (s : State) (x : Nat) (half : Bool) (gs : List Nat) : Bool := gs.any fun g => decide ((satRow s x half g).ue ≠ 0)

/-- The expanded bytes of an output stripe and its saturations. -/
def expand (p : Prof) (fc : Nat) (vs : List OutVal) : List Byte × Nat :=
  let ix := (List.range vs.length).zip vs
  if p.rdMode = 1 then
    let es := ix.map fun e => toE4m3 (Config.expandFree fc e.1) e.2
    (es.map fun e => BitVec.ofNat 8 e.1, (es.filter Prod.snd).length)
  else (ix.flatMap fun e => natBytes 2 (toBf16 (Config.expandFree fc e.1) e.2), 0)

/-- Read stripe `j` (a slot, or an output stripe) of half `half`. -/
def readStripe (s : State) (x : Nat) (half : Bool) (p : Prof) (fc j : Nat) : StripeRead :=
  let none8 := List.replicate 8 (0 : Row)
  if p.noRead then ⟨9, none8, [], 0, none, j⟩
  else if p.rdMode = 0 then
    let gs := upTo (j * 8) (j * 8 + 7)
    if touchUe s x half gs then ⟨7, none8, gs, 0, none, j⟩ else
    if slotMarkA s x half p j then ⟨8, none8, gs, 0, none, j⟩ else
    let hit := firstHit p (slotVals s x half p j)
    if hit.isSome && p.sentAct then ⟨9, none8, gs, 0, hit, j⟩
    else ⟨0, gs.map fun g => (satRow s x half g).data, gs, 0, hit, j⟩
  else if streamLen x p < (j + 1) * outElems p then ⟨9, none8, [], 0, none, j⟩
  else
    let r := readOut s x half p j
    if touchUe s x half r.grans then ⟨7, none8, r.grans, 0, none, j⟩
    else if r.markA then ⟨8, none8, r.grans, 0, none, j⟩
    else if r.vals.any fun v => (match v with | .bad => true | _ => false) then ⟨9, none8, r.grans, 0, none, j⟩
    else
      let hit := firstHit p r.vals
      let (bs, n) := expand p fc r.vals
      if hit.isSome && p.sentAct then ⟨9, none8, r.grans, n, hit, j⟩ else ⟨0, toRows 8 bs, r.grans, n, hit, j⟩

/-- The stripe each descriptor asks for: slots under pass-through, output stripes o + k otherwise (R312). -/
def stripeOf (p : Prof) (x : Nat) (slots : List (Bool × Nat)) : List (Bool × Nat) :=
  if p.rdMode = 0 then slots.map fun e => (e.1, e.2 % satSlots x) else
  let o := ((slots.head?).map Prod.snd).getD 0
  ((List.range slots.length).zip slots).map fun e => (e.2.1, o + e.1)

/-! ### Conditions (R185, R314, R333) -/

/-- The slots a read's stripes need filled. -/
def needSlots (p : Prof) (x j : Nat) : List Nat :=
  if p.noRead then [] else if p.rdMode = 0 then [j] else
  if streamLen x p < (j + 1) * outElems p then [] else
  match blkOf p.format with
  | some k => ((outBlocks p k j).flatMap fun b =>
      metaOff p k b / 512 :: upTo (slotOff p k b / 512) ((slotOff p k b + k.slot - 1) / 512)).eraseDups
  | none => let off := p.sbase * 512 + j * outElems p
    upTo (off / 512) ((off + outElems p - 1) / 512)

/-- Every slot of a stripe is filled. -/
def stripeFilled (s : State) (x : Nat) (half : Bool) (p : Prof) (j : Nat) : Bool :=
  (needSlots p x j).all fun n => (s.sat x).filled half n

/-- The escape granules a stripe touches, where its slots are filled. -/
def stripeEsc (s : State) (x : Nat) (half : Bool) (p : Prof) (j : Nat) : List Nat :=
  if p.noRead || decide (p.rdMode = 0) || decide (streamLen x p < (j + 1) * outElems p) then []
  else (readOut s x half p j).esc

/-- The stripes requested. -/
def wanted (p : Prof) (x : Nat) (slots : List (Bool × Nat)) : List Nat :=
  (stripeOf p x slots).filterMap fun e => if e.1 then some e.2 else none

/-- Every slot and record a read needs has landed. -/
def readFilled (s : State) (x : Nat) (half : Bool) (p : Prof) (slots : List (Bool × Nat)) : Bool :=
  (wanted p x slots).all fun j => stripeFilled s x half p j &&
    (stripeEsc s x half p j).all fun g => ((s.sat x).esc half).contains g

/-- Distinct escape-area slots a read touches: one ACLK each (R333). -/
def escSlots (s : State) (x : Nat) (half : Bool) (p : Prof) (slots : List (Bool × Nat)) : Nat :=
  (((wanted p x slots).flatMap fun j => stripeEsc s x half p j).map (· / 8)).eraseDups.length

/-! ### Delivery -/

/-- Drive a satchel port. -/
def setSatOut (s : State) (x : Nat) (o : SatOut) : State := { s with satOut := Tab.set (fun _ => ⟨0, [], []⟩) s.satOut x o }

/-- Count what the granules of a read held, and raise SAT_UE once for the first uncorrectable one (R183). -/
def countSat (s : State) (x : Nat) (half : Bool) (gs : List Nat) : State :=
  let sum := fun (f : RowRead → Nat) => (gs.map fun g => popBits 4 (f (satRow s x half g))).sum
  let s1 := bump (bump s .satEcc x 15 0 (sum RowRead.ce)) .satEcc x 31 16 (sum RowRead.ue)
  match gs.find? fun g => decide ((satRow s x half g).ue ≠ 0) with
  | some g => raise s1 (fuPg (groupOf x)) 0 (g / 8) 7
  | none => s1

/-- A read's format or escape failures (R337): counted, with one event for the first stripe. -/
def countSatFault (s : State) (x st : Nat) (l : List StripeRead) : State :=
  match l.find? fun r => decide (r.st = st ∧ r.hit = none) with
  | some r => raise (countFmtFault s x st) (fuPg (groupOf x)) (if st = 9 then 2 else 3) r.ix st
  | none => s

/-- A read's sentinel hits (R334). -/
def countSent (s : State) (x k : Nat) (l : List StripeRead) : State :=
  match l.find? fun r => r.hit.isSome with
  | some r =>
    let s1 := bump s .chgSentCnt x 31 0
    let s2 := if bitOf (rg s1 .chgSentLast x) 31 then s1 else
      setRg s1 .chgSentLast x (BitVec.ofNat 32 (r.ix % 1024 + 1024 * (r.hit.getD 0 % 1024) + 2 ^ 20 * (k % 8) + 2 ^ 31))
    raise s2 (fuPg (groupOf x)) 4 r.ix 9
  | none => s

/-- Deliver a satchel read: data valid at running edge `at_` (R185). -/
def satDeliver (s : State) (x : Nat) (slots : List (Bool × Nat)) (k : Nat) (half : Bool) (at_ : Nat) : State :=
  let p := prof s x k
  let rs := (stripeOf p x slots).map fun e => if e.1 then some (readStripe s x half p s.free e.2) else none
  let l := rs.filterMap id
  let s1 := countSat s x half (l.flatMap StripeRead.grans).eraseDups
  let s2 := countSent (countSatFault (countSatFault s1 x 9 l) x 8 l) x k l
  let s3 := bump s2 .chgRSat x 31 0 (l.map StripeRead.sats).sum
  setSatOut { s3 with free := s3.free + 1 } x
    ⟨at_, rs.map fun r => (r.map StripeRead.st).getD 0, rs.flatMap fun r => (r.map StripeRead.data).getD (List.replicate 8 0)⟩

/-- A held read ends without data: status 0x1 on every requested stripe (R149, R187). -/
def satAbandon (s : State) (x : Nat) (r : SatRead) : State :=
  let s1 := setSatOut s x ⟨s.run, r.slots.map fun e => b2n e.1, List.replicate (8 * r.slots.length) 0⟩
  s1.setSat x { s1.sat x with read := none }

/-- SATCHEL_READ (R185, R186). -/
def doSatRead (x : Nat) (slots : List (Bool × Nat)) (k : Nat) (s : State) : State :=
  let v := s.sat x
  if !(slotReady s x && sampling s) || v.read.isSome then s else
  let p := prof s x k
  let slots := slots.take (if x < 16 then 4 else 1)
  let exch := match v.swap with | some a => decide (a < s.run) | none => false
  if !exch && readFilled s x v.front p slots then
    let n := escSlots s x v.front p slots
    if n = 0 then satDeliver s x slots k v.front (s.run + 2)
    else s.setSat x { v with read := some ⟨slots, k, v.front, false, s.run + 2, s.clk + 2, some (s.run + 2 + 2 * n)⟩ }
  else s.setSat x { v with read := some ⟨slots, k, v.front, exch, s.run + 2, s.clk + 2, none⟩ }

/-- A held read's conditions are met. -/
def satReadMet (s : State) (x : Nat) (r : SatRead) : Bool := !r.exch && readFilled s x r.half (prof s x r.fmt) r.slots

/-- SATCHEL_STALL_END: at an ACLK edge, a held read whose conditions are met is delivered, later by one ACLK for each
escape slot it touches (R185, R333). -/
def doStallEnd (x : Nat) (s : State) : State :=
  let v := s.sat x
  match v.read with
  | none => s
  | some r =>
    if !(aclkEdge s && !heldEdge s) then s else
    match r.ready with
    | some d => if d ≤ s.run then satDeliver (s.setSat x { v with read := none }) x r.slots r.fmt r.half s.run else s
    | none =>
      if !satReadMet s x r then s else
      let n := escSlots s x r.half (prof s x r.fmt) r.slots
      if n = 0 then satDeliver (s.setSat x { v with read := none }) x r.slots r.fmt r.half s.run
      else s.setSat x { v with read := some { r with ready := some (s.run + 2 * n) } }

/-- The slot a stall event names: the first requested slot without its fill bit, else the first requested (R187, R471). -/
def stallSlot (s : State) (x : Nat) (r : SatRead) : Nat :=
  let l := (r.slots.filter Prod.fst).map Prod.snd
  ((l.find? fun i => !readFilled s x r.half (prof s x r.fmt) [(true, i)]).orElse fun _ => l.head?).getD 0

/-- SATCHEL_STALL_LIMIT: phj_x_stall has been high for the limit (R187). -/
def doStallLimit (x : Nat) (s : State) : State :=
  let lim := rf s .satCtrl x 31 16
  match (s.sat x).read with
  | some r => if lim ≠ 0 ∧ lim * 1024 * 12 ≤ s.clk - r.clkAt then
      raise (satAbandon s x r) (fuPg (groupOf x)) 12 (stallSlot s x r) else s
  | none => s

/-- phj_x_stall; held high in the safe state (R490). -/
def stalled (s : State) (x : Nat) : Bool :=
  s.safe || match (s.sat x).read with
    | some r => decide (r.from_ ≤ s.run)
    | none => false

end Sys2Proof.Machine
end

