-- ==== Sys2Proof/Machine/Pieces.lean ====
section
/-! DEFINITION. Pieces, runs and their faults, credits, pins, regulated transactions: what fill sequencers, porters, links
and aborts share (R207, R236, R248, R251 to R253, R264, R283, R449 to R452). -/

namespace Sys2Proof.Machine

/-! ### Pieces -/

/-- The piece numbered `sq`. -/
def State.piece (s : State) (sq : Nat) : Option Piece := s.pieces.find? fun p => p.sq == sq

/-- Replace a piece. -/
def setPiece (s : State) (p : Piece) : State :=
  { s with pieces := s.pieces.map fun q => if q.sq = p.sq then p else q }

/-- A piece is gone: complete in both halves, or at its fate. -/
def dropPiece (s : State) (sq : Nat) : State := { s with pieces := s.pieces.filter fun q => q.sq != sq }

/-- Pieces of an agent in generation order. -/
def agentPieces (s : State) (a : Nat) : List Piece := s.pieces.filter fun p => p.agent == a

/-- Occupancy of an agent's piece queue (R237, R241). -/
def queueLen (s : State) (a : Nat) : Nat := ((agentPieces s a).filter Piece.queued).length

/-- Reorder slots a channel holds, and those of a porter in use (R248). -/
def slotsHeld (s : State) (a : Nat) : Nat := ((agentPieces s a).filter Piece.slot).length
def slotsUsed (s : State) (p : Nat) : Nat :=
  (s.pieces.filter fun q => q.slot && isChan q.agent && agentPorter q.agent == p).length

/-! ### Regulated transactions (R449 to R452) -/

/-- Age in TCLK of a transaction ready at BCLK edge `r` (R450): the TCLK edges after it became ready. -/
def ageOf (s : State) (r : Nat) : Nat := s.clk / 12 - r / 12

/-- A regulated transaction of class `c` that became ready at `r` completes: latency, miss, count (R451, R455). -/
def regDone (s : State) (c req : Nat) (d : Dir) (r : Nat) : State :=
  let lat := ageOf s r
  let t := rf s .regClassTarget c 15 0
  let s1 := bump s .regClassDone c 31 0
  let s2 := if rf s1 .regClassLat c 15 0 < min 65535 lat then setRf s1 .regClassLat c 15 0 (min 65535 lat) else s1
  if bitOf (rg s .regCtrl) 0 && decide (t ≠ 0 ∧ t < lat) then
    let s3 := setRf (bump s2 .regClassMisses c 31 0) .regEvent 0 (8 + c) (8 + c) 1
    if bitOf (rg s3 .regMissLast) 31 then s3 else
    setRg s3 .regMissLast 0 (BitVec.ofNat 32
      (c + 8 * req + 512 * (match d with | .rd => 0 | .wr => 1) + 1024 * min 65535 lat + 2 ^ 31))
  else s2

/-- A piece's read half completes as a transaction; 0 marks one that is none or is over. -/
def regRead (s : State) (p : Piece) (req : Nat) : State :=
  if p.rdAt = 0 then s else setPiece (regDone s (passClass p.pass) req .rd p.rdAt) { p with rdAt := 0 }

/-- A piece's write half completes as a transaction. -/
def regWrite (s : State) (p : Piece) : State :=
  if p.wrAt = 0 then s else
  setPiece (regDone s (passClass p.pass) (agentPorter p.agent) .wr p.wrAt) { p with wrAt := 0 }

/-! ### Runs and their faults (R236, R238, R264) -/

/-- The fault-unit source of a fill sequencer's or a channel's itinerary fault (R464). -/
def itinBit (a : Nat) (ue : Bool) : Nat :=
  if a < 32 then (if ue then 5 else 10) else (if ue then 2 else 8)

/-- LOC naming a channel; 0 for a fill sequencer, whose unit is its port group's (R471). -/
def agentLoc (a : Nat) : Nat := if a < 32 then 0 else a - 32

/-- A fault of the run in context `k` of agent `a` at instruction `off`: the context stops, the task aborts (R236). -/
def faultRun (s : State) (a k off cause detail addr space : Nat) : State :=
  let c := s.ctx a k
  faultTask (s.setCtx a k { c with hold := .fault, ewait := none }) c.task a c.start off cause detail addr space

/-- An itinerary fault of R238 at the context's present instruction: event and abort. -/
def itinFault (s : State) (a k code : Nat) (addr space : Nat := 0) : State :=
  let c := s.ctx a k
  faultRun (raise s (agentFu a) (itinBit a false) ((c.start + c.pc) % 16384) code (some c.task)) a k c.pc code 0 addr space

/-- A piece lost to a fault is never complete: its context passes no FENCE or SWAP and no END that waits for it before the
abort takes effect (R229, R264). -/
def losePiece (s : State) (p : Piece) : State :=
  let c := s.ctx p.agent p.ctx
  if c.live && c.task == p.task then
    s.setCtx p.agent p.ctx { c with lostRd := c.lostRd || decide (p.rd ≠ .complete), lostWr := true }
  else s

/-- A fault of a piece after its generation (R236). -/
def faultPiece (s : State) (p : Piece) (cause detail : Nat) (side : Side) : State :=
  faultTask (losePiece s p) p.task p.agent p.start p.off cause detail (side.addr * 64) side.space

/-- The event of a status of R87 met by an agent's piece at P-space address `a`, and the task's abort cause (R269). -/
def pieceEvent (s : State) (ag task st a : Nat) (k : Checked) : State :=
  match (if ag < 32 then statusBit st else porterBit st) with
  | some b => raise s (agentFu ag) b (addrLoc a) st (some task)
  | none => if st = 5 then mappedOut s k a (some task) else s

/-- A piece refused by the checks of R87, met by a quarantine or withdrawal, or under a reserved format, whose status is then the DETAIL
(R52, R337, R481). -/
def refusePiece (s : State) (p : Piece) (side : Side) (a : Nat) (k : Checked) : State :=
  faultPiece (pieceEvent s p.agent p.task k.st a k) p (statusCause k.st) (if k.st = 9 then 9 else 0) side

/-- The column no longer serves the tile's octet (R52, R481, R546). -/
def outOfService (s : State) (k : Checked) : Bool :=
  quarantined s k.col || octetOut s k.col k.tier (((k.grans.head?).map fun g => g.2.bank / 8).getD 0) || !tileOn s k.col k.tier

/-! ### Credits (R251 to R253, R388) -/

/-- CRD_EN, CONS_EN and CRD_INIT of the descriptor whose terms are in force. -/
def crdEn (v : Agent) : Bool := match v.keep with | some l => bitOf l.d0 20 | none => false
def crdInit (v : Agent) : Nat := match v.keep with | some l => fld l.d1 27 16 | none => 0

/-- A channel's credits are set (R251, R266). -/
def setCredit (s : State) (a n : Nat) : State := freshCredit (s.setAgent a { s.agent a with credit := n }) (agentLoc a)

/-- Return `n` credits to a channel; what passes CRD_INIT is dropped, one drop counted (R253). Credits are frozen in the
safe state (R389). -/
def returnCredits (s : State) (a n : Nat) : State :=
  let v := s.agent a
  if s.safe || n = 0 then s else creditMeets s (agentLoc a) (agentLoc a) fun s =>
    if v.credit + n ≤ crdInit v then s.setAgent a { v with credit := v.credit + n }
    else
      let s1 := s.setAgent a { v with credit := max v.credit (crdInit v) }
      raise (bump s1 .porterOvf (agentPorter a) 31 16) fuPorter 10 (agentLoc a) 0 (v.keep.map Launch.task)

/-- A channel's consumer is fill sequencer `x` and its credit window holds a P-space address (R252). -/
def consumes (v : Agent) (x a : Nat) : Bool :=
  match v.keep with
  | some l => bitOf l.d0 22 && fld l.d0 27 23 == x && decide (fld l.d2 20 0 ≤ a / 512 ∧ a / 512 < fld l.d2 20 0 + fld l.d3 21 0)
  | none => false

/-- A fill piece's read half completes: credits return to the channels it consumes for (R252). -/
def consumerReturn (s : State) (x a : Nat) : State :=
  ((s.agents.map Prod.fst).filter fun b => isChan b && consumes (s.agent b) x a).foldl (fun s b => returnCredits s b 1) s

/-! ### Pins (R282 to R284) -/

/-- The bank a context has pinned for a slot. -/
def Ctx.pin (c : Ctx) (slot : Nat) : Option Nat := (c.pins.find? fun p => p.1 == slot).map Prod.snd

/-- Every pin held: by contexts and by the runs of aborts not done (R283). -/
def allPins (s : State) : List (Nat × Nat) := (s.ctxs.flatMap fun e => e.2.pins) ++ s.aborts.flatMap Abort.pins

/-- Contexts pinned to a slot's bank. -/
def pinCount (s : State) (slot bank : Nat) : Nat := ((allPins s).filter fun p => p == (slot, bank)).length

/-! ### Agents and runs (R207, R233 to R235, R256 to R258) -/

/-- The other context. -/
def otherCtx (k : Nat) : Nat := 1 - k % 2

/-- A channel's descriptor becomes active (R251, R258, R390). -/
def activate (s : State) (a : Nat) (l : Launch) (todo : Bool) : State :=
  let v := s.agent a
  let fresh := v.keep.isNone || !bitOf l.d0 21
  let s1 := s.setAgent a { v with act := some l, todo := todo, keep := some l }
  if fresh then setCredit s1 a (fld l.d1 27 16) else s1

/-- The number of a fetched context that waits to start, and the live ones. -/
def loadedCtx (s : State) (a : Nat) : Option Nat := [0, 1].find? fun k => (s.ctx a k).loaded
def liveCtxs (s : State) (a : Nat) : List Nat := [0, 1].filter fun k => (s.ctx a k).live

/-- Context `k` of agent `a` starts its run: at once when the agent has none, behind a run that has executed HAND, or not
yet (R234, R235, R258). -/
def startLoaded (s : State) (a : Nat) : State :=
  match loadedCtx s a with
  | none => s
  | some k =>
    let c := s.ctx a k
    let o := s.ctx a (otherCtx k)
    if s.safe || abortFired s c.task then s
    else if o.live && !o.handed then s
    else
      let v := s.agent a
      let s1 := if isChan a && v.act.isSome && v.todo then s.setAgent a { v with todo := false }
        else match v.queue with
          | l :: rest =>
            let s1 := s.setAgent a { v with queue := rest }
            if isChan a then activate s1 a l false else s1
          | [] => s
      s1.setCtx a k { c with loaded := false, live := true, behind := o.live, at_ := s.clk + 1 }

/-- A run is over: its context is free, the run behind it is released, a channel's shadow becomes active (R233, R235,
R258). -/
def freeCtx (s : State) (a k : Nat) : State :=
  let s1 := s.setCtx a k idleCtx
  let o := s1.ctx a (otherCtx k)
  let s2 := if o.live then s1.setCtx a (otherCtx k) { o with behind := false } else s1
  let v := s2.agent a
  let s3 := if o.live || !isChan a then s2 else
    match v.queue with
    | l :: rest => activate (s2.setAgent a { v with queue := rest, act := none }) a l true
    | [] => s2.setAgent a { v with act := none, todo := false }
  startLoaded s3 a

/-- The agent runs, holds or queues the task (R264, R266, R271). -/
def agentHas (s : State) (a task : Nat) : Bool :=
  let v := s.agent a
  ([0, 1].any fun k => let c := s.ctx a k; (c.loaded || c.live) && c.task == task) ||
  v.queue.any (fun l => l.task == task) || (match v.act with | some l => v.todo && l.task == task | none => false)

/-- Every agent that has state of its own. -/
def busyAgents (s : State) : List Nat := ((s.agents.map Prod.fst) ++ (s.ctxs.map Prod.fst).map (· / 2)).eraseDups

/-! ### Far channels (R259 to R261) -/

/-- The far channel of an F-space byte address (R259). -/
def farChannel (s : State) (a : Nat) : Nat :=
  let w := rg s .fchSel
  (a >>> min 41 (max 9 (fld w 5 0))) % 2 ^ min 6 (fld w 10 8)

/-- No hold. -/
def noHold : FarHold := ⟨0, false, none⟩

/-- The far channel is held at this edge: from the edge after its input was high until the edge after it was low (R260). -/
def farHeld (s : State) (c : Nat) : Bool :=
  let h := Tab.get (fun _ => noHold) s.farHold c
  decide (h.from_ ≠ 0 ∧ h.from_ ≤ s.clk) && h.to_.all fun t => decide (s.clk < t)

/-- The piece waits for a read burst of a far channel that is held (R260). -/
def readHold (s : State) (p : Piece) : Bool := p.src.space == 2 && farHeld s (farChannel s (p.src.addr * 64))

/-- The first piece of a channel whose read half waits, past those whose far channel is held (R245, R261). -/
def nextRead (s : State) (a : Nat) : Option Piece :=
  (agentPieces s a).find? fun p => decide (p.rd = .waiting) && !p.dead && !readHold s p

/-- The piece has a burst held: of its read half, whose turn it would be, or of its write half, begun or not (R250, R261). -/
def pieceHeld (s : State) (p : Piece) : Bool :=
  (readHold s p && decide (p.rd = .waiting) && !p.dead && (nextRead s p.agent).all fun r => decide (p.sq < r.sq)) ||
  (p.dst.space == 2 && decide (p.rd = .complete ∧ (p.wr = .waiting ∨ p.left ≠ 0)) && !p.dead && farHeld s (farChannel s (p.dst.addr * 64)))

/-- A channel has a held piece (R261). -/
def chanHeld (s : State) (a : Nat) : Bool := (agentPieces s a).any (pieceHeld s)

/-- A porter channel with a task tag has a far request held (R204). -/
def farHeldTask (s : State) (task : Nat) : Bool :=
  s.pieces.any fun p => isChan p.agent && p.task == task && pieceHeld s p

end Sys2Proof.Machine
end

