-- ==== Sys2Proof/Machine/Pmap.lean ====
section
/-! DEFINITION. Page maps: banks, epochs, pins, lookups and waits, commands, the inactive window (R275 to R300). -/

namespace Sys2Proof.Machine

/-- A slot's epoch and active bank (R279). -/
def epochOf (s : State) (slot : Nat) : Nat := rf s .pmapSlotStat slot 31 16
def activeBank (s : State) (slot : Nat) : Nat := epochOf s slot % 2

/-- Index of entry `i` of a slot's bank in the page-map store. -/
def pmapIx (slot bank i : Nat) : Nat := (slot * 2 + bank) * 4096 + i

/-- Contexts pinned to a slot's inactive bank (R284). -/
def pinsOld (s : State) (slot : Nat) : Nat := pinCount s slot (1 - activeBank s slot)

/-- A COPY or CLEAR of the slot runs. -/
def pmapBusy (s : State) (slot : Nat) : Bool := match s.pmapOp with | some o => o.slot == slot | none => false

/-! ### Lookups (R275, R282 to R290, R297, R298) -/

/-- The register's page and slot. -/
def pageOf (r : AReg) : Nat := r.addr / 256 % 4096
def slotOfReg (r : AReg) : Nat := r.tag % 64

/-- The kept translation serves the register's present address (R285). -/
def keptBase (r : AReg) : Option Nat :=
  match r.kept with
  | some t => if t.slot = slotOfReg r ∧ t.page = pageOf r ∧ r.addr < 2 ^ 20 then some t.base else none
  | none => none

/-- A first lookup in the slot waits for its epoch (R287). -/
def epochWaits (s : State) (r : AReg) : Bool :=
  let d := (r.tag / 64 % 32 + 32 - epochOf s (slotOfReg r) % 32) % 32
  nbit r.tag 11 && decide (1 ≤ d ∧ d ≤ 15)

/-- Register `i` of a context. -/
def Ctx.reg (c : Ctx) (i : Nat) : AReg := c.regs.getD i freshReg
def Ctx.setReg (c : Ctx) (i : Nat) (r : AReg) : Ctx := { c with regs := c.regs.set i r }

/-- A page fault of the context's MOVE (R297). -/
def pageFault (s : State) (a k detail : Nat) (r : AReg) : State :=
  let s1 := if detail = 1 then bump s .pmapSlotFaults (slotOfReg r) 31 16 else bump s .pmapSlotFaults (slotOfReg r) 15 0
  faultRun s1 a k (s.ctx a k).pc 0x0B detail (r.addr * 64) 1

/-- A granted lookup in a bank: the entry is kept and the piece is a BCLK later, or it faults (R286). -/
def lookupIn (s : State) (a k i bank : Nat) : State :=
  let c := s.ctx a k
  let r := c.reg i
  if 2 ^ 20 ≤ r.addr then pageFault s a k 1 r else
  let e := loadWord s .pmap (pmapIx (slotOfReg r) bank (pageOf r))
  let s1 := if e.ce then bump s .pmapEcc 0 15 0 else s
  let s2 := if e.ue then raise (bump s1 .pmapEcc 0 31 16) fuCtrl 1 (slotOfReg r) 0 (some c.task) else s1
  if e.ue || !bitOf e.data 31 then pageFault s2 a k 2 r
  else s2.setCtx a k { c.setReg i { r with kept := some ⟨slotOfReg r, pageOf r, fld e.data 15 0 * 16384⟩ } with at_ := s.clk + 1 }

/-- A context looks up the page of its register `i`: it waits for its epoch, or pins and looks up (R282, R287). -/
def doLookup (s : State) (a k i : Nat) : State :=
  let c := s.ctx a k
  let r := c.reg i
  let slot := slotOfReg r
  match c.pin slot with
  | some bank => lookupIn s a k i bank
  | none =>
    if epochWaits s r then
      (if c.ewait.isSome then s else s.setCtx a k { c with ewait := some (slot, s.clk, false) })
    else
      let bank := activeBank s slot
      lookupIn (s.setCtx a k { c with ewait := none, pins := c.pins ++ [(slot, bank)] }) a k i bank

/-- EPOCH_WAIT_LIMIT (R290). -/
def doEpochLimit (a k : Nat) (s : State) : State :=
  let c := s.ctx a k
  let lim := rf s .pmapCtrl 0 15 0
  match c.ewait with
  | some (slot, from_, told) =>
    if !told && decide (lim ≠ 0 ∧ lim * 1024 * 12 ≤ s.clk - from_) then
      raise (s.setCtx a k { c with ewait := some (slot, from_, true) }) fuCtrl 3 slot 0 (some c.task)
    else s
  | none => s

/-- Count a BCLK for every slot on which a context waits (R289). -/
def countWaits (s : State) : State :=
  ((s.ctxs.filterMap fun e => e.2.ewait.map fun w => w.1).eraseDups).foldl (fun s i => bump s .pmapSlotEwait i 31 0) s

/-! ### Commands (R281, R291 to R294) -/

/-- CMD_RESULT of a new command: an operation under way is the last command no more (R300). -/
def pmapResult (s : State) (slot code : Nat) : State :=
  setRg { s with pmapOp := s.pmapOp.map fun o => { o with last := false } } .pmapCmdResult 0 (BitVec.ofNat 32 (code + 256 * slot))

/-- PMAP_SWAP (R281, R292, R293). -/
def doPmapSwap (slot : Nat) (s : State) : State :=
  if pinsOld s slot ≠ 0 then pmapResult s slot 1
  else if pmapBusy s slot then pmapResult s slot 2
  else
    let e := (epochOf s slot + 1) % 65536
    pmapResult (setRg s .pmapSlotStat slot (BitVec.ofNat 32 (e * 65536 + e % 2))) slot 0

/-- PMAP_COPY and PMAP_CLEAR (R291 to R293): 512 and 64 MCLK. -/
def doPmapStart (copy : Bool) (slot : Nat) (s : State) : State :=
  if pinsOld s slot ≠ 0 then pmapResult s slot 1
  else if s.pmapOp.isSome then pmapResult s slot 2
  else { pmapResult s slot 4 with pmapOp := some ⟨copy, slot, s.clk + (if copy then 2048 else 256), true⟩ }

/-- PMAP_OP_RESERVED (R291): refused with code 0x03, or 0x01 while the inactive bank is pinned. -/
def doPmapReserved (slot : Nat) (s : State) : State :=
  if pinsOld s slot ≠ 0 then pmapResult s slot 1 else pmapResult s slot 3

/-- Copy entry `i` of the active bank into the inactive one; an uncorrectable entry goes as its stored bits (R298). -/
def copyEntry (slot : Nat) (s : State) (i : Nat) : State :=
  let b := activeBank s slot
  let f := pmapIx slot b i
  let t := pmapIx slot (1 - b) i
  let e := loadWord s .pmap f
  if e.ue then
    { s with pmaps := Tab.set (fun _ => 0) s.pmaps t (Tab.get (fun _ => 0) s.pmaps f)
             upsOther := Tab.set (fun _ => 0) s.upsOther (Store.pmap.site t) (Tab.get (fun _ => 0) s.upsOther (Store.pmap.site f)) }
  else storeWord s .pmap t e.data

/-- Clear entry `i` of the inactive bank. -/
def clearEntry (slot : Nat) (s : State) (i : Nat) : State := storeWord s .pmap (pmapIx slot (1 - activeBank s slot) i) 0

/-- The first `n` entries of a COPY or CLEAR. -/
def pmapApply (s : State) (o : PmapOp) (n : Nat) : State :=
  (List.range (min 4096 n)).foldl (if o.copy then copyEntry o.slot else clearEntry o.slot) s

/-- Entries a COPY or CLEAR has done by this edge: 8 or 64 at each MCLK edge. -/
def pmapProgress (s : State) (o : PmapOp) : Nat :=
  if o.copy then 4096 - (o.done - s.clk + 3) / 4 * 8 else 4096 - (o.done - s.clk + 3) / 4 * 64

/-! ### The inactive window (R280, R294) -/

/-- Answer a register access; an SLVERR of the management port is counted (R181 MGMT.ERR, R526). -/
def answerWith (s : State) (w : Who) (v : Word) (err : Bool) : State :=
  let s1 := if err && !w.steward then bump s .mgmtErr 0 15 0 else s
  { s1 with answers := s1.answers ++ [⟨w, v, err, s.clk, 0, false, false⟩] }

/-- Answer a read of a word through its code: one that cannot be corrected reads a free value (log entry 10). -/
def answerWord (s : State) (w : Who) (c : CodedWord) : State :=
  if c.ue then answerWith { s with free := s.free + 1 } w (Config.badWord s.free) false else answerWith s w c.data false

/-- A write of PMAP.INACT[slot].ENT[i]: held while a COPY or CLEAR of the slot runs, discarded while the bank is pinned. -/
def doInactWrite (w : Who) (slot i : Nat) (v : Word) (s : State) : State :=
  if pmapBusy s slot then { s with pmapHeld := s.pmapHeld ++ [⟨w, slot, i, some v⟩] }
  else if pinsOld s slot ≠ 0 then answerWith (bump s .pmapStat 0 31 16) w 0 true
  else answerWith (storeWord s .pmap (pmapIx slot (1 - activeBank s slot) i) (v &&& 0x8000FFFF)) w 0 false

/-- A read of PMAP.INACT[slot].ENT[i]. -/
def doInactRead (w : Who) (slot i : Nat) (s : State) : State :=
  if pmapBusy s slot then { s with pmapHeld := s.pmapHeld ++ [⟨w, slot, i, none⟩] }
  else answerWord s w (loadWord s .pmap (pmapIx slot (1 - activeBank s slot) i))

/-- Complete the accesses held for a slot (R294). -/
def pmapRelease (s : State) : State :=
  s.pmapHeld.foldl (fun s h => match h.value with
    | some v => doInactWrite h.who h.slot h.idx v s
    | none => doInactRead h.who h.slot h.idx s) { s with pmapHeld := [] }

/-- The operation `o` ends with its first `n` entries done: CMD_RESULT shows it while it is the last command, and the accesses held for
it complete (R294, R300). -/
def pmapEnds (s : State) (o : PmapOp) (n : Nat) : State :=
  let s1 := pmapApply { s with pmapOp := none } o n
  pmapRelease (if o.last then pmapResult s1 o.slot 0 else s1)

/-- PMAP_OP_DONE. -/
def doPmapDone (s : State) : State :=
  match s.pmapOp with
  | some o => if o.done ≤ s.clk then pmapEnds s o 4096 else s
  | none => s

/-- A warm reset abandons the operation (R299). -/
def pmapAbandon (s : State) : State :=
  match s.pmapOp with
  | some o => pmapEnds s o (pmapProgress s o)
  | none => s

end Sys2Proof.Machine
end

