-- ==== Sys2Proof/Machine/Satchel.lean ====
section
/-! DEFINITION. Fill sequencers' fills, escapes on fill, exchanges, caravans, stall counters (R189 to R205, R329 to R332). -/

namespace Sys2Proof.Machine

/-! ### Caravans (R197 to R203) -/

/-- A chain: number, head, length, window. -/
structure Chain where
  n     : Nat
  head  : Nat
  len   : Nat
  base  : Nat
  size  : Nat
  deriving DecidableEq, Repr

/-- Chain `n` as the file `t` gives it, if valid. -/
def chainIn (t : Tab Word) (n : Nat) : Option Chain :=
  let c := rgIn t .caravanCtrl n
  let w := rgIn t .caravanWin n
  if bitOf c 0 then some ⟨n, fld c 4 1, fld c 9 5, fld w 9 0, fld w 26 16⟩ else none

/-- The chain in force that port `x` belongs to, with its position. -/
def chainOf (s : State) (x : Nat) : Option (Chain × Nat) :=
  if 16 ≤ x then none else
  (List.range 8).findSome? fun n => (chainIn s.chainRegs n).bind fun c =>
    let k := (x + 16 - c.head) % 16
    if k < c.len then some (c, k) else none

/-- The port at a position of a chain. -/
def Chain.member (c : Chain) (k : Nat) : Nat := (c.head + k) % 16

/-- A slot lies in the chain's window. -/
def Chain.inWin (c : Chain) (slot : Nat) : Bool := decide (c.base ≤ slot ∧ slot < c.base + c.size)

def State.caravan (s : State) (n : Nat) : Caravan := Tab.get (fun _ => ⟨[]⟩) s.caravans n
def State.setCaravan (s : State) (n : Nat) (v : Caravan) : State := { s with caravans := Tab.set (fun _ => ⟨[]⟩) s.caravans n v }

/-- The positions of a chain's members behind its head. -/
def Chain.followers (c : Chain) : List Nat := (List.range c.len).drop 1

/-- Positions that have still to follow an exchange of the head (R201). -/
def roundOpen (s : State) (c : Chain) : List Nat :=
  c.followers.filter fun k => (s.caravan c.n).rounds.any fun r => !r.2.contains k

/-- The head's exchange that position `k` follows next. -/
def Caravan.next (v : Caravan) (k : Nat) : Option Nat := (v.rounds.find? fun r => !r.2.contains k).map Prod.fst

/-- Rounds that some member has still to follow. -/
def Chain.owed (c : Chain) (l : List (Nat × List Nat)) : Caravan := ⟨l.filter fun r => c.followers.any fun k => !r.2.contains k⟩

/-- Mark position `k` in the first round it has not followed. -/
def markRound (k : Nat) : List (Nat × List Nat) → List (Nat × List Nat)
  | [] => []
  | r :: t => if r.2.contains k then r :: markRound k t else (r.1, r.2 ++ [k]) :: t

/-- A chain whose registers the latest load has changed begins anew at this ACLK edge, the first after that load (R198). -/
def chainsTake (s : State) : State :=
  match s.loader.phase with
  | .applying _ _ => s
  | _ =>
    let s1 := { s with chainRegs := s.regs }
    ((List.range 8).filter fun n => decide (chainIn s.regs n ≠ chainIn s.chainRegs n)).foldl (fun s n => s.setCaravan n ⟨[]⟩) s1

/-- The exchange mode in force at this edge: a write takes effect at the first ACLK edge after its acceptance (R193, R198). -/
def swapMode (s : State) (x : Nat) : Nat :=
  if (chainOf s x).isSome then 0 else
  let m := fld (rgIn s.regsA .satCtrl x) 1 0
  if m = 3 then 0 else m

/-! ### Launches (R189) -/

/-- FS_LAUNCH with GO = 1. -/
def doFsLaunch (x start task : Nat) (s : State) : State :=
  let v := s.agent x
  if v.queue.length < 4 then s.setAgent x { v with queue := v.queue ++ [⟨start, task, 0, 0, 0, 0⟩] }
  else raise (bump s .fsStat x 15 8) (fuPg (groupOf x)) 11 0 0 (some task)

/-! ### Issuing fills (R190, R191, R195, R201, R329) -/

/-- A stripe a sequencer may issue next: its column and granules, and the fill it becomes. -/
structure FillCand where
  chk  : Checked
  fill : Fill
  deriving Repr

/-- Stripe slot and first granule place of a piece's S side. -/
def sSlot (p : Piece) : Nat := p.dst.addr / 8

/-- The fill of a piece, aimed at half `half`. One under a reserved format code fails as a format fault does (R302, R337). -/
def pieceCand (s : State) (x : Nat) (half : Bool) (p : Piece) : FillCand :=
  let c := checkWide s (slotClient x) false (prof s x p.prof).packed p.srcP p.cnt
  let k := if c.st = 0 ∧ (prof s x p.prof).reserved = true then { c with st := 9 } else c
  ⟨k, ⟨0, p.sq, half, sSlot p, p.srcP, k.grans.map Prod.fst, turnOf k, p.prof, none, 0⟩⟩

/-- The read of an escape record. -/
def jobCand (s : State) (x : Nat) (j : EscJob) : FillCand :=
  let k := checkAnnex s (slotClient x) false j.home j.addr j.n
  ⟨k, ⟨0, 0, j.half, j.gran / 8, j.addr, k.grans.map Prod.fst, 0, 0, some j, 0⟩⟩

/-- A head's fill of the new round into the window is held until the last member has exchanged (R201). -/
def windowHeld (s : State) (x : Nat) (p : Piece) : Bool :=
  match chainOf s x with
  | some (c, 0) => c.inWin (sSlot p) && !(roundOpen s c).isEmpty
  | _ => false

/-- The sequencer's next stripes in order: records that may be read, then pieces up to the first one held. -/
def fillCands (s : State) (x : Nat) : List FillCand :=
  let v := s.sat x
  let jobs := v.jobs.filter fun j => decide (j.due = none)
  let ps := (agentPieces s x).filter fun p => p.queued && !p.dead
  (jobs.map (jobCand s x)) ++ ((ps.takeWhile fun p => !windowHeld s x p).take 4).map (pieceCand s x v.back)

/-- Give the stripes halves with lanes of the port's own: at most `m` in a half, one lane of a column each (R105, R191). -/
def assign (s : State) (x m : Nat) : List (Nat × Bool) → List FillCand → Option (List (FillCand × Bool))
  | _, [] => some []
  | used, c :: t =>
    let try_ := fun (h : Bool) =>
      if c.chk.st == 0 && !outOfService s c.chk && ownerIn s c.chk.col .rd (laneOffset .rd h) == slotOwner x && !used.contains (c.chk.col, h) &&
          decide ((used.filter fun u => u.2 == h).length < m) then
        (assign s x m ((c.chk.col, h) :: used) t).map fun l => (c, h) :: l
      else none
    match try_ false with
    | some l => some l
    | none => try_ true

/-- The longest run of next stripes that can take lanes at this edge. -/
def fillRun (s : State) (x : Nat) (cs : List FillCand) : List (FillCand × Bool) :=
  let m := if x < 16 then 2 else 1
  let n := if x < 16 then 4 else 1
  (((List.range n).map fun i => n - i).findSome? fun i =>
    if i ≤ cs.length then assign s x m [] (cs.take i) else none).getD []

/-- One stripe issues: its lane and its landing at edge n+16 (R192). -/
def issueFill (x : Nat) (s : State) (e : FillCand × Bool) : State :=
  let v := s.sat x
  let id := v.nextId
  let f := { e.1.fill with id := id, due := s.run + 16 }
  let lane := newLane e.1.chk.col (.fill x id) x (e.1.chk.grans.map Prod.snd) (s.run + laneOffset .rd e.2 + 4)
    (s.run + laneOffset .rd e.2 + 11)
  let s1 := { s.setSat x { v with
    nextId := id + 1, fills := v.fills ++ [f],
    jobs := match f.esc with
      | some j => v.jobs.erase j
      | none => v.jobs } with
    rdLanes := s.rdLanes ++ [lane] }
  match f.esc with
  | some _ => s1
  | none => match s1.piece f.sq with
    | some p => setPiece s1 { p with queued := false, rd := .presented }
    | none => s1

/-- A fill whose lane a wheel exchange has given away waits for another: its piece, or its record's read, is put back (R103). -/
def unissueFill (s : State) (x id : Nat) : State :=
  let v := s.sat x
  match v.fills.find? fun f => f.id == id with
  | none => s
  | some f =>
    let s1 := s.setSat x { v with fills := v.fills.filter fun g => g.id != id, jobs := f.esc.toList ++ v.jobs }
    match f.esc, s1.piece f.sq with
    | none, some p => setPiece s1 { p with queued := true, rd := .waiting }
    | _, _ => s1

/-- The status a next stripe fails with at its issue, if it fails: the checks of R87, its column's service last. -/
def candFails (s : State) (c : FillCand) : Option Checked :=
  if c.chk.st ≠ 0 then some c.chk
  else if outOfService s c.chk then some { c.chk with st := 5, quar := quarantined s c.chk.col } else none

/-- A stripe that fails its checks: the sequencer's task aborts (R87, R223). -/
def failFill (s : State) (x : Nat) (f : Fill) (k : Checked) : State :=
  match f.esc with
  | some j =>
    faultTask (pieceEvent (s.setSat x { s.sat x with jobs := (s.sat x).jobs.erase j }) x j.task k.st j.addr k)
      j.task x j.start j.off (statusCause k.st) 0 j.addr 0
  | none => match s.piece f.sq with
    | some p => dropPiece (refusePiece (countFmtFault s x k.st) p p.src p.srcP k) p.sq
    | none => s

/-- FILL_ISSUE: at an ACLK edge that may be sampled and at which the engine presents no column read. -/
def doFillIssue (x : Nat) (s : State) : State :=
  let busy := (s.rdDir x).beats.any fun b => decide (b.at_ = s.run)
  if !(sampling s && !busy && groupUp s (groupOf x)) then s else
  let cs := fillCands s x
  match cs.head? with
  | some c => match candFails s c with
    | some k => failFill s x c.fill k
    | none => (fillRun s x cs).foldl (issueFill x) s
  | none => s

/-! ### Landing (R183, R184, R192, R199, R329 to R332) -/

/-- A fill's captured lane. -/
def fillLane (s : State) (x id : Nat) : Option RdLane := s.rdLanes.find? fun l => decide (l.use = .fill x id)

/-- The granules a fill lands, each as it is stored: corrected and recoded; or a whole slot, turned, with 0 in the bytes that
come from granules not named (R42, R92, R150, R183). -/
def landed (f : Fill) (l : RdLane) : List Coded :=
  if f.elem = 0 then (l.got.getD []).map corrected
  else
    let rows := turnOut f.elem (stripeRows (f.grans.zip ((l.got.getD []).map fun g => (readRow g).data)))
    (List.range 8).map fun j => fresh (rows.getD j 0)

/-- Blocks whose header may be settled when granules `gs` of slot `j` land: meta and first four slot bytes have landed, one of them just
now (R329). -/
def settledBlocks (s : State) (x : Nat) (half : Bool) (p : Prof) (k : Blk) (j : Nat) (gs : List Nat) : List Nat :=
  let v := s.sat x
  let fi := (j - p.sbase) / k.frame
  if j < p.sbase ∨ satSlots x < p.sbase + (fi + 1) * k.frame then [] else
  (upTo (fi * k.blocks) (fi * k.blocks + k.blocks - 1)).filter fun b =>
    let o := slotOff p k b
    let need := [metaOff p k b / 64, o / 64, (o + 3) / 64]
    (need.any fun g => gs.contains g) && need.all fun g => v.landed half g

/-- Overwrite a 32-bit word at a byte offset of a half (R330). -/
def putSatWord (s : State) (x : Nat) (half : Bool) (off w : Nat) : State :=
  ((List.range 4).zip (natBytes 4 w)).foldl (fun s e =>
    let g := (off + e.1) / 64
    let d := satGran s x half g
    let c := corrected d
    let i := (off + e.1) % 64
    setSatGran s x half g ⟨rowMerge c.data i [e.2], c.ups.filter fun u => decide (u.1 ≠ i / 16)⟩) s

/-- The next free escape granule of a profile's area in a half, or even pair of them where `n` is 2, by its offset in the half (R329). -/
def escSpace (s : State) (x : Nat) (half : Bool) (p : Prof) (n : Nat) : Option Nat :=
  let used := (s.sat x).used half
  (upTo (p.escBase * 8) (min ((p.escBase + p.escSlots) * 8) (satSlots x * 8) - 1)).find? fun g =>
    decide (g % n = 0) && decide (g < (p.escBase + p.escSlots) * 8) && decide (g < satSlots x * 8) &&
    !used.contains g && (n == 1 || !used.contains (g + 1))

/-- An escape fault of a fill (R331, R337). -/
def escFault (s : State) (x task start off addr : Nat) : State :=
  faultTask (raise (countFmtFault s x 8) (fuPg (groupOf x)) 3 (addrLoc addr) 8 (some task)) task x start off 0x10 8 addr 0

/-- Examine one block's header; a record's read is put in line and the header rewritten (R329, R330). The Annex is that of the region
the block's element slot was filled from (R76). -/
def examine (x : Nat) (f : Fill) (p : Prof) (k : Blk) (task start off : Nat) (s : State) (b : Nat) : State :=
  let w := satNat s x f.half (slotOff p k b) 4
  if satNat s x f.half (metaOff p k b) k.mbytes % 256 ≠ 0xFF ∨ w / 16 % 16 ≠ 0xA ∨ abortFired s task ∨ s.safe then s else
  let n := if k.elems ≤ 32 then 1 else 2
  let home := (s.sat x).source f.half (slotOff p k b / 64)
  match (decodeAddr s home).map Prod.fst, escSpace s x f.half p n with
  | some r, some g =>
    if !r.annexEn then escFault s x task start off f.addr else
    let v1 := (s.sat x).take f.half (upTo g (g + n - 1))
    let j : EscJob := ⟨f.half, g, n, (region s r.annex).pbase + w / 256 * 64, w % 16, 0, none, task, start, off, home⟩
    putSatWord (bump (s.setSat x { v1 with jobs := v1.jobs ++ [j] }) .chgREsc x 31 0) x f.half (slotOff p k b)
      (escHeader 0 0xB g)
  | _, _ => escFault s x task start off f.addr

/-- Send a head's landing on to the members of its chain (R199, R202, R332). -/
def sendHops (s : State) (x slot src : Nat) (gs : List Nat) (half : Bool) (escs : List Nat) : State :=
  match chainOf s x with
  | some (c, 0) =>
    if c.inWin slot then
      let data := gs.map fun g => (g, satGran s x half g)
      { s with hops := s.hops ++ c.followers.map fun k => ⟨c.member k, slot, data, escs, src, s.run + 2 * k⟩ }
    else s
  | _ => s

/-- A landed escape record: it sets its slot's fill bit and hops on as any fill does (R184, R332); its tag decides between its valid bit
and another read (R330, R331). -/
def landRecord (s : State) (x : Nat) (f : Fill) (j : EscJob) (cells : List Coded) : State :=
  let gs := (List.range cells.length).map fun i => j.gran + i
  let s1 := (gs.zip cells).foldl (fun s e => setSatGran s x j.half e.1 e.2) s
  let last := match cells.getLast? with
    | some c => (rowByte c.data 63).toNat
    | none => 0
  let good := last == 0xA0 + j.tag % 16
  let v := (s1.sat x).note j.half (j.gran / 8) f.addr gs
  let s2 := sendHops (s1.setSat x (if good then v.markEsc j.half gs else v)) x (j.gran / 8) f.addr gs j.half (if good then gs else [])
  if good then s2
  else if 7 ≤ j.tries then escFault s2 x j.task j.start j.off f.addr
  else s2.setSat x { s2.sat x with jobs := (s2.sat x).jobs ++ [{ j with tries := j.tries + 1, due := some (s.clk + 64) }] }

/-- A landed fill stripe: slot, fill bit, headers, hops; the piece is complete. -/
def landStripe (s : State) (x : Nat) (f : Fill) (p : Piece) (cells : List Coded) : State :=
  let base := if f.elem = 0 then p.dst.addr else p.dst.addr / 8 * 8
  let gs := (List.range cells.length).map fun i => base + i
  let s1 := (gs.zip cells).foldl (fun s e => setSatGran s x f.half e.1 e.2) s
  let s2 := s1.setSat x ((s1.sat x).note f.half f.slot f.addr gs)
  let pr := prof s x f.prof
  let s3 := match blkOf pr.format with
    | some k => (settledBlocks s2 x f.half pr k f.slot gs).foldl (examine x f pr k p.task p.start p.off) s2
    | none => s2
  dropPiece (sendHops s3 x f.slot f.addr gs f.half []) p.sq

/-- A fill whose port group is in reset completes in its lane and is discarded (R175). -/
def discardFill (x : Nat) (s : State) (f : Fill) (l : RdLane) : State :=
  let s1 := { s.setSat x { s.sat x with fills := (s.sat x).fills.filter fun g => g.id != f.id } with
    rdLanes := s.rdLanes.filter fun m => decide (m ≠ l) }
  if f.esc.isSome then s1 else dropPiece s1 f.sq

/-- One fill lands, or fails on an uncorrectable word (R45). -/
def landFill (x : Nat) (s : State) (f : Fill) : State :=
  match fillLane s x f.id with
  | none => s
  | some l =>
    if inReset s (rstPg (groupOf x)) then discardFill x s f l else
    let task := match f.esc with
      | some j => some j.task
      | none => (s.piece f.sq).map Piece.task
    let s1 := foundAll { s with rdLanes := s.rdLanes.filter fun m => decide (m ≠ l) } l.col l.finds .client task
    let s2 := s1.setSat x { s1.sat x with fills := (s1.sat x).fills.filter fun g => g.id != f.id }
    match f.esc with
    | some j =>
      if laneUe l then faultTask s2 j.task x j.start j.off 0x0A 0 f.addr 0
      else landRecord s2 x f j (landed f l)
    | none => match s2.piece f.sq with
      | some p =>
        if laneUe l then dropPiece (faultPiece s2 p 0x0A 0 p.src) p.sq else landStripe s2 x f p (landed f l)
      | none => s2

/-- FILL_LAND: the fills of port `x` whose edge n+16 has come land. -/
def doFillLand (x : Nat) (s : State) : State :=
  if heldEdge s then s else
  ((s.sat x).fills.filter fun f => decide (f.due ≤ s.run)).foldl (landFill x) s

/-- CARAVAN_HOP: the hops due at member `x` land in its back half, unless it is being reset or waits for its next round. -/
def doHop (x : Nat) (s : State) : State :=
  if heldEdge s then s else
  let due := s.hops.filter fun h => decide (h.x = x ∧ h.due ≤ s.run)
  let s0 := { s with hops := s.hops.filter fun h => !decide (h.x = x ∧ h.due ≤ s.run) }
  if inReset s (rstPg (groupOf x)) || (s.sat x).deaf then s0 else
  due.foldl (fun s h =>
    let half := (s.sat x).back
    let s1 := h.grans.foldl (fun s e => setSatGran s x half e.1 e.2) s
    s1.setSat x (((s1.sat x).note half h.slot h.src (h.grans.map Prod.fst)).markEsc half h.escs)) s0

/-- ESCAPE_RETRY: records whose 64 BCLK are over may be read again (R331). -/
def doEscRetry (x : Nat) (s : State) : State :=
  let v := s.sat x
  let due : EscJob → Bool := fun j => match j.due with
    | some d => decide (d ≤ s.clk)
    | none => false
  let n := (v.jobs.filter due).length
  bump (s.setSat x { v with jobs := v.jobs.map fun j => if due j then { j with due := none } else j }) .chgRRetry x 31 0 n

/-! ### The exchange (R193 to R198, R201) -/

/-- SWAP_COMMAND: an engine swap command is sampled (R194 to R196, R203). -/
def doSwapCommand (x : Nat) (s : State) : State :=
  let v := s.sat x
  if !(slotReady s x && sampling s) || stalled s x || swapMode s x == 1 then s
  else if v.swap.isSome then bump s .satStat x 31 24
  else s.setSat x { v with swap := some s.run, ready := false }

/-- The context holding at SWAP whose fills have all landed. -/
def swapDone (s : State) (x : Nat) : Option Nat :=
  [0, 1].find? fun k =>
    let c := s.ctx x k
    c.live && (match c.hold with
      | .swap before => !c.lostWr && !(agentPieces s x).any fun p => decide (p.sq < before)
      | _ => false)

/-- A sequencer holds at SWAP. -/
def atSwap (s : State) (x : Nat) : Bool :=
  [0, 1].any fun k => match (s.ctx x k).hold with
    | .swap _ => (s.ctx x k).live
    | _ => false

/-- The decoder goes on after the instruction it holds, from the following BCLK (R237). -/
def release (s : State) (a k : Nat) : State :=
  let c := s.ctx a k
  s.setCtx a k { c with hold := .none, pc := c.pc + 1, at_ := s.clk + 1 }

/-- The events the mode requires are complete or pending at this edge (R193, R194). -/
def swapReady (s : State) (x : Nat) : Bool :=
  let eng := match (s.sat x).swap with
    | some a => decide (a + 2 ≤ s.run)
    | none => false
  match swapMode s x with
  | 1 => (swapDone s x).isSome
  | 2 => eng
  | _ => ((swapDone s x).isSome && eng) || ((s.sat x).ready && (match chainOf s x with | some (_, _ + 1) => true | _ => false))

/-- A member may exchange: its head has an exchange that it has not followed yet, 2k BCLK ago or more (R201). -/
def chainReady (s : State) (x : Nat) : Bool :=
  match chainOf s x with
  | some (c, k + 1) => match (s.caravan c.n).next (k + 1) with
    | some h => decide (h + 2 * (k + 1) ≤ s.run)
    | none => false
  | _ => true

/-- The exchange happens at this edge. -/
def exchangeDue (s : State) (x : Nat) : Bool :=
  aclkEdge s && !heldEdge s && !s.safe && !inReset s (rstPg (groupOf x)) && swapReady s x && chainReady s x

/-- The head has a window fill held under R201. -/
def headHeld (s : State) (c : Chain) : Bool :=
  !(roundOpen s c).isEmpty && (((agentPieces s c.head).filter fun p => p.queued && !p.dead).head?).any fun p => c.inWin (sSlot p)

/-- A chain notes an exchange: its head's opens a round for every member not in reset, a member's follows its earliest
(R199, R201, R203, R206). -/
def chainNote (s : State) (x : Nat) : State :=
  match chainOf s x with
  | some (c, 0) =>
    let out := c.followers.filter fun k => inReset s (rstPg (c.member k))
    let s1 := bump (s.setCaravan c.n (c.owed ((s.caravan c.n).rounds ++ [(s.run, out)]))) .caravanRounds c.n 31 0
    c.followers.foldl (fun s k =>
      let y := c.member k
      if inReset s (rstPg y) then s else s.setSat y { s.sat y with deaf := false }) s1
  | some (c, k + 1) =>
    let held := headHeld s c
    let s1 := s.setCaravan c.n (c.owed (markRound (k + 1) (s.caravan c.n).rounds))
    if held && (roundOpen s1 c).isEmpty then setRf s1 .caravanStat c.n 3 0 (k + 1) else s1
  | none => s

/-- EXCHANGE: the halves change roles, the new back half's fill bits clear, the held SWAP completes (R194, R195). -/
def doExchange (x : Nat) (s : State) : State :=
  if !exchangeDue s x then s else
  let v := s.sat x
  let back := v.front
  let v1 := { v.empty back with
    front := !v.front, swap := none, jobs := v.jobs.filter fun j => j.half != back,
    read := v.read.map fun r => if r.exch then { r with exch := false, half := !v.front } else r }
  let s1 := chainNote (bump (s.setSat x v1) .satSwaps x 31 0) x
  match (if swapMode s x = 2 then none else swapDone s x) with
  | some k => release s1 x k
  | none => s1

/-- Engine-led mode: a SWAP is a fence on landing (R195, R198). Sequencer-led mode: a pending engine command is dropped. -/
def swapSettle (s : State) (x : Nat) : State :=
  match swapMode s x with
  | 1 =>
    if (s.sat x).swap.isSome && aclkEdge s && !heldEdge s then
      s.setSat x { s.sat x with swap := none, read := (s.sat x).read.map fun r => { r with exch := false } }
    else s
  | 2 => match swapDone s x with
    | some k => release s x k
    | none => s
  | _ => s

/-- A write of SAT[x].CTRL; SWAP_MODE of a member of a valid chain ignores writes (R198). -/
def doSwapMode (x : Nat) (v : Word) (s : State) : State :=
  let v := v &&& RegId.satCtrl.row.rw
  setRg s .satCtrl x (if (chainOf s x).isSome then setFld v 1 0 (rf s .satCtrl x 1 0) else v)

/-! ### Stall counters (R204, R205) -/

/-- Register index of a stall counter: the tables give 7 causes to a port. -/
def stallIx (x k : Nat) : Nat := x * 7 + k

/-- One more stall of a cause, 48 bits with a sticky overflow bit. -/
def countStall (s : State) (x k : Nat) : State :=
  let i := stallIx x k
  if rg s .satStallLo i = 0xFFFFFFFF then
    (if rf s .satStallHi i 15 0 = 0xFFFF then setRf s .satStallHi i 31 31 1
     else setRg (setRf s .satStallHi i 15 0 (rf s .satStallHi i 15 0 + 1)) .satStallLo i 0)
  else bump s .satStallLo i 31 0

/-- STALL_CLR and STALL_CLR_ALL. -/
def doStallClr (x k : Nat) (s : State) : State :=
  if k < 7 then setRg (setRg s .satStallLo (stallIx x k) 0) .satStallHi (stallIx x k) 0 else s
def doStallClrAll (x : Nat) (s : State) : State := (List.range 7).foldl (fun s k => doStallClr x k s) s

/-- The slots a held read still waits for, in the half it reads. -/
def missing (s : State) (x : Nat) (r : SatRead) : List Nat :=
  let v := s.sat x
  let half := if r.exch then v.back else r.half
  ((wanted (prof s x r.fmt) x r.slots).flatMap (needSlots (prof s x r.fmt) x)).filter fun n => !v.filled half n

/-- A record's read is still to land in a slot. -/
def recordDue (s : State) (x : Nat) (half : Bool) (slot : Nat) : Bool :=
  let v := s.sat x
  (v.jobs ++ v.fills.filterMap Fill.esc).any fun j => j.half == half && j.gran / 8 == slot

/-- A held read waits for an escape record or for the time of its escape slots (R204, R333). -/
def escWait (s : State) (x : Nat) (r : SatRead) : Bool :=
  r.ready.isSome || (missing s x r).any (recordDue s x (if r.exch then (s.sat x).back else r.half)) || (!r.exch && (wanted (prof s x r.fmt) x r.slots).any fun j =>
    stripeFilled s x r.half (prof s x r.fmt) j &&
    (stripeEsc s x r.half (prof s x r.fmt) j).any fun g => !((s.sat x).esc r.half).contains g)

/-- The cause index of the stall of port `x` (R204). -/
def stallCause (s : State) (x : Nat) (r : SatRead) : Nat :=
  let ms := missing s x r
  let upstream := match chainOf s x with
    | some (c, 0) => ms.any c.inWin && headHeld s c
    | some (c, _) => ms.any c.inWin
    | none => false
  let own := match chainOf s x with
    | some (c, _ + 1) => ms.any fun n => !c.inWin n
    | _ => !ms.isEmpty
  let cs := (liveCtxs s x).map (s.ctx x)
  let waits := cs.filter fun c => decide (c.hold = .wait)
  if escWait s x r then 3
  else if upstream then 4
  else if own && cs.any fun c => c.ewait.isSome then 5
  else if own && waits.any fun c => farHeldTask s c.task then 2
  else if own && !waits.isEmpty then 1
  else 0

/-- Count the stalls of this ACLK edge (R204): one cause where phj_x_stall is high, cause 6 where the edge is skipped. -/
def countStalls (s : State) : State :=
  (List.range 32).foldl (fun s x =>
    if heldEdge s then (if pgEnabled s (groupOf x) (if x < 16 then 0 else 1) then countStall s x 6 else s)
    else match (s.sat x).read with
      | some r => if r.from_ ≤ s.run then countStall s x (stallCause s x r) else s
      | none => s) s

end Sys2Proof.Machine
end

