-- ==== Sys2Proof/Machine/Bells.lean ====
section
/-! DEFINITION. Bells: counts, rings, takes, waits, INIT, scopes, register accesses and their holds (R356, R374 to R386,
R447). -/

namespace Sys2Proof.Machine

/-! ### Counts (R374) -/

/-- A bell's count through its code. -/
def bellCount (s : State) (b : Nat) : WordRead :=
  readWord (BitVec.ofNat 128 (s.bell b).count) (Tab.get (fun _ => 0) s.upsOther (Store.bell.site b))

/-- Store a count with fresh check bits. -/
def setCount (s : State) (b n : Nat) : State :=
  { s.setBell b { s.bell b with count := n } with
    upsOther := Tab.set (fun _ => 0) s.upsOther (Store.bell.site b) 0 }

/-- Read a count for an operation: what its code finds is counted; an uncorrectable word is BELL_UE (R389, R392). -/
def readBell (s : State) (b : Nat) : State × Nat × Bool :=
  let w := bellCount s b
  let s1 := if w.ce then bump s .bellEcc 0 15 0 else s
  let s2 := if w.ue then raise (bump s1 .bellEcc 0 31 16) fuCtrl 0 b else s1
  (s2, w.data.toNat % 65536, w.ue)

/-! ### Origins and scopes (R356, R383 to R385, R447) -/

/-- The port group of an origin. -/
def originGroup (o : Nat) : Option Nat :=
  if o < 32 then some (o % 16) else if 288 ≤ o ∧ o < 304 then some (o - 288) else none

/-- The distance between two origins (R384). -/
def distance (a b : Nat) : Nat :=
  if a = b then 0 else if (originGroup a).isSome ∧ originGroup a = originGroup b then 1 else 2

/-- The scope an itinerary's bell access carries: the wider of its field and its passport's (R447). -/
def itinScope (pass field : Nat) : Nat := max (passScope pass) field

/-- Check a take that removed tokens (R385). -/
def scopeCheck (s : State) (b taker scope : Nat) : State :=
  let v := s.bell b
  let eff := min scope v.scope
  let d := distance v.orig taker
  if v.rung && decide (eff < d) then
    let s1 := bump s .bellMismatch 0 31 0
    let s2 := if bitOf (rg s1 .bellMmLast) 31 then s1 else
      setRg s1 .bellMmLast 0 (BitVec.ofNat 32 (b + 2048 * eff + 8192 * d + 32768 * taker + 2 ^ 31))
    if bitOf (rg s2 .bellCtrl) 0 then pulse s2 329 else s2
  else s

/-! ### Operations at a completing edge (R375 to R377, R380, R381) -/

/-- The second MCLK edge after an edge (R228, R375). -/
def secondMclk (t : Nat) : Nat := (t / 4 + 2) * 4

/-- TKRES of the taking processor (R380). -/
def putTkres (s : State) (o : BellOp) (count : Nat) (taken : Bool) : State :=
  setRg s .bellTkres (o.orig - 288) (BitVec.ofNat 32 (count + 65536 * b2n taken + 2 ^ 31))

/-- The register access of an operation is answered (R377 to R380). -/
def bellAnswer (s : State) (o : BellOp) (err : Bool) : State :=
  match o.who with
  | some w => answerWith s w 0 err
  | none => s

/-- A ring (R375, R377). -/
def applyRing (s : State) (o : BellOp) : State :=
  let (s1, c, ue) := readBell s o.bell
  if ue then bellAnswer s1 o false
  else if 65535 < c + o.n then
    bellAnswer (raise (setRf (bump s1 .bellOvf 0 15 0) .bellOvf 0 26 16 o.bell) fuCtrl 2 o.bell 0 o.task) o true
  else
    let s2 := setCount s1 o.bell (c + o.n)
    bellAnswer (s2.setBell o.bell ⟨c + o.n, o.orig, o.scope, o.task, true⟩) o false

/-- A register take (R380). -/
def applyTake (s : State) (o : BellOp) : State :=
  let (s1, c, ue) := readBell s o.bell
  if !ue && decide (o.n ≤ c) then
    bellAnswer (putTkres (scopeCheck (setCount s1 o.bell (c - o.n)) o.bell o.orig o.scope) o (c - o.n) true) o false
  else bellAnswer (putTkres s1 o c false) o false

/-- A WAIT whose access completes: it takes and its context goes on, or it keeps waiting (R228, R376). -/
def applyWait (s : State) (o : BellOp) : State :=
  let (s1, c, ue) := readBell s o.bell
  if !ue && decide (o.n ≤ c) then
    let s2 := scopeCheck (setCount s1 o.bell (c - o.n)) o.bell o.orig o.scope
    match o.ctx with
    | some (a, k) => release s2 a k
    | none => s2
  else { s1 with bellOps := s1.bellOps ++ [{ o with due := none }] }

/-- INIT (R381). -/
def applyInit (s : State) (o : BellOp) : State :=
  bellAnswer ((setCount s o.bell o.n).setBell o.bell ⟨o.n, 0, 0, none, false⟩) o false

/-- Order of application at one edge: rings, then takes, then INIT; within a kind by origin (R376). -/
def opRank (o : BellOp) : Nat :=
  (match o.kind with | .ring => 0 | .take => 1 | .wait => 1 | .init => 2) * 512 + o.orig

/-- Insert an operation by rank. -/
def insertOp (o : BellOp) : List BellOp → List BellOp
  | [] => [o]
  | p :: t => if opRank o < opRank p then o :: p :: t else p :: insertOp o t

/-- Apply one operation; in the safe state nothing changes a count, and register operations are answered SLVERR (R378). -/
def applyOp (s : State) (o : BellOp) : State :=
  if s.safe then
    (match o.kind with
     | .take => bellAnswer (putTkres s o (s.bell o.bell).count false) o true
     | .wait => s
     | _ => bellAnswer s o true)
  else match o.kind with
  | .ring => applyRing s o
  | .take => applyTake s o
  | .wait => applyWait s o
  | .init => applyInit s o

/-- A held WAIT's condition holds: its access completes at the second MCLK edge from now (R228). -/
def waitMet (s : State) : State :=
  { s with bellOps := s.bellOps.map fun o =>
      if o.kind = .wait ∧ o.due = none ∧ (bellCount s o.bell).ue = false ∧ o.n ≤ (bellCount s o.bell).data.toNat % 65536
      then { o with due := some (secondMclk s.clk) } else o }

/-- Answer the reads of TKRES held for takes now complete (R380). -/
def releaseTk (s : State) : State :=
  let busy := fun (t : Nat) => s.bellOps.any fun o => decide (o.kind = .take ∧ o.orig = 288 + t)
  (s.tkHeld.filter fun h => !busy h.t).foldl (fun s h => answerWith s h.who (rg s .bellTkres h.t) false)
    { s with tkHeld := s.tkHeld.filter fun h => busy h.t }

/-- BELL_COMPLETE: the operations due at this MCLK edge are applied in the order of R376. -/
def doBellComplete (s : State) : State :=
  let due := fun (o : BellOp) => match o.due with
    | some d => decide (d ≤ s.clk)
    | none => false
  let ops := (s.bellOps.filter due).foldl (fun l o => insertOp o l) []
  if ops.isEmpty then s else
  releaseTk (waitMet (ops.foldl applyOp { s with bellOps := s.bellOps.filter fun o => !due o }))

/-! ### Submission (R228, R375, R379, R380) -/

/-- A RING decodes (R228). -/
def submitRing (s : State) (a task bell n scope : Nat) : State :=
  { s with bellOps := s.bellOps ++ [⟨.ring, bell, a, scope, n, none, some task, some (secondMclk s.clk), [], none⟩] }

/-- A WAIT decodes: it holds its context until its take (R228). -/
def submitWait (s : State) (a k task bell n scope : Nat) : State :=
  waitMet { s with bellOps := s.bellOps ++ [⟨.wait, bell, a, scope, n, some (a, k), some task, none, [], none⟩] }

/-- Write requests of core `g`'s ports sampled and not yet answered, numbered over the three ports (R379). -/
def openWrites (s : State) (g : Nat) : List Nat :=
  ((s.wrDir g).beats.map fun b => b.id * 4) ++ ((s.wrDir (16 + g)).beats.map fun b => b.id * 4 + 1) ++
    (((s.scalar g).filter fun x => x.req.we).map fun x => x.id * 4 + 2)

/-- The origin of a register's bell operation (R356). -/
def origin (w : Who) : Nat := 288 + whoNum w

/-- A register ring (R379): held behind its core's writes unless its scope is PORT or a management processor writes it. -/
def doBellRing (w : Who) (n : Nat) (b : Bool) (scope cnt : Nat) (s : State) : State :=
  let o := origin w
  let held := if o < 304 ∧ scope ≠ 0 then openWrites s (o - 288) else []
  { s with bellOps := s.bellOps ++ [⟨.ring, 2 * n + b2n b, o, scope, cnt, none, none,
      if held.isEmpty then some (secondMclk s.clk) else none, held, some w⟩] }

/-- Held rings whose writes have been answered complete at the second MCLK edge from now. -/
def ringRelease (s : State) : State :=
  { s with bellOps := s.bellOps.map fun o =>
      if o.kind = .ring ∧ o.due = none then
        let rest := o.after.filter fun i => (openWrites s (o.orig - 288)).contains i
        { o with after := rest, due := if rest.isEmpty then some (secondMclk s.clk) else none }
      else o }

/-- A register take. -/
def doBellTake (w : Who) (n : Nat) (b : Bool) (scope cnt : Nat) (s : State) : State :=
  { s with bellOps := s.bellOps ++ [⟨.take, 2 * n + b2n b, origin w, scope, cnt, none, none, some (secondMclk s.clk), [], some w⟩] }

/-- A register INIT. -/
def doBellInit (w : Who) (n : Nat) (b : Bool) (cnt : Nat) (s : State) : State :=
  { s with bellOps := s.bellOps ++ [⟨.init, 2 * n + b2n b, origin w, 0, cnt, none, none, some (secondMclk s.clk), [], some w⟩] }

/-- A read of TKRES[t]: held while processor t's last take is under way. -/
def doTkresRead (w : Who) (t : Nat) (s : State) : State :=
  if s.bellOps.any fun o => decide (o.kind = .take ∧ o.orig = 288 + t) then { s with tkHeld := s.tkHeld ++ [⟨w, t⟩] }
  else answerWith s w (rg s .bellTkres t) false

/-- The watch of target `t` holds its line high (R382). -/
def watchHigh (s : State) (t : Nat) : Bool :=
  let w := rg s .bellWatch t
  let b := 2 * fld w 9 0 + fld w 10 10
  bitOf w 11 && decide (max 1 (fld w 31 16) ≤ (bellCount s b).data.toNat % 65536)

end Sys2Proof.Machine
end

