-- ==== Sys2Proof/Machine/Itinerary.lean ====
section
/-! DEFINITION. Itineraries: the store and its fetches, decoding, loops and predicates, moves and their pieces, fences, ends
(R207 to R240, R242, R248, R251, R263, R286, R428). -/

namespace Sys2Proof.Machine

/-! ### Fetch (R209 to R211) -/

/-- The agent's master is in reset or its block does not run. -/
def agentUp (s : State) (a : Nat) : Bool :=
  decide (s.life = .ready) && !s.safe &&
  !(if isChan a then inReset s (rstPorter (agentPorter a)) else inReset s (rstPg (a % 16)))

/-- The run the agent would fetch next, while it may (R211, R266). -/
def fetchNext (s : State) (a : Nat) : Option Launch :=
  let v := s.agent a
  if !agentUp s a || v.fetch.isSome || v.bad || (loadedCtx s a).isSome || decide (2 ≤ (liveCtxs s a).length) then none else
  match (if isChan a && v.todo then v.act else v.queue.head?) with
  | some l => if abortFired s l.task then none else some l
  | none => none

/-- The agent whose fetch the store serves. -/
def fetching (s : State) : Option Nat := (s.agents.find? fun e => e.2.fetch.isSome).map Prod.fst

/-- The agent the store grants next: round-robin over 32 fill sequencers and 16 porters, a porter over its channels. -/
def nextFetcher (s : State) : Option Nat :=
  let chan := fun p => robin 16 (ptr s (ptrFetchCh p)) fun k => (fetchNext s (chanAgent p k)).isSome
  (robin 48 (ptr s ptrFetch) fun r => if r < 32 then (fetchNext s r).isSome else (chan (r - 32)).isSome).bind fun r =>
    if r < 32 then some r else (chan (r - 32)).map (chanAgent (r - 32))

/-- The passport of a run (R257, R445). -/
def runPass (s : State) (a : Nat) (l : Launch) : Nat :=
  if isChan a then fld l.d1 15 0 else pgPass s (a % 16) / 1024 * 1024 + l.task

/-- The store grants a fetch: the agent's longest wait is kept (R240). -/
def grantFetch (s : State) (a : Nat) (l : Launch) : State :=
  let v := s.agent a
  let k := if (s.ctx a 0).live then 1 else 0
  let w := min 376 (s.clk - v.reqAt.getD s.clk)
  let s1 := if rf s .itinFetchMaxwait 0 8 0 < w then setRf s .itinFetchMaxwait 0 8 0 w else s
  let s2 := s1.setAgent a { v with fetch := some ⟨k, l, runPass s a l, []⟩, reqAt := none }
  if isChan a then
    setPtr (setPtr s2 (ptrFetchCh (agentPorter a)) (agentChan a + 1)) ptrFetch (32 + agentPorter a + 1)
  else setPtr s2 ptrFetch (a + 1)

/-- How a fetch of up to eight more words goes. -/
inductive FetchEnd where
  | more
  | whole
  | length
  | ue (i : Nat)
  deriving DecidableEq, Repr

/-- Read up to `n` more words from store index `i` on (R209, R211). -/
def fetchWords (s : State) : Nat → Nat → List Word → State × List Word × FetchEnd
  | 0, _, ws => (s, ws, if 64 ≤ ws.length then .length else .more)
  | n + 1, i, ws =>
    if 64 ≤ ws.length ∨ 16384 ≤ i then (s, ws, .length) else
    let w := loadWord s .itin i
    let note := fun (s : State) (ue : Bool) => setRg s .itinEccLast 0 (BitVec.ofNat 32 (i + 16384 * b2n ue + 32768))
    if w.ue then (note (bump s .itinEcc 0 31 16) true, ws, .ue ws.length) else
    let s1 := if w.ce then note (bump s .itinEcc 0 15 0) false else s
    if fld w.data 31 27 = 0 then (s1, ws ++ [w.data], .whole) else fetchWords s1 n (i + 1) (ws ++ [w.data])

/-- A fetch fails: event, abort; the launch stays until the abort discards it (R238). -/
def fetchFault (s : State) (a : Nat) (l : Launch) (code off : Nat) : State :=
  let s1 := s.setAgent a { s.agent a with fetch := none, bad := true }
  faultTask (raise s1 (agentFu a) (itinBit a (code == 5)) ((l.start + off) % 16384) code (some l.task))
    l.task a l.start off code 0 0 0

/-- ITINERARY_FETCH: a grant, or the next eight words of the fetch being served. -/
def doFetch (a : Nat) (s : State) : State :=
  match (s.agent a).fetch with
  | some f =>
    let (s1, ws, e) := fetchWords s 8 (f.l.start + f.words.length) f.words
    let done := fun (s : State) => bump s .itinFetches 0 31 0
    match e with
    | .more => s1.setAgent a { s1.agent a with fetch := some { f with words := ws } }
    | .whole =>
      let s2 := s1.setAgent a { s1.agent a with fetch := none }
      startLoaded (done (s2.setCtx a f.k { idleCtx with
        loaded := true, start := f.l.start, task := f.l.task, pass := f.pass, buf := ws })) a
    | .length => fetchFault (done s1) a f.l 1 0
    | .ue i => fetchFault (done s1) a f.l 5 i
  | none =>
    match fetchNext s a with
    | some l => if (fetching s).isNone && nextFetcher s == some a then grantFetch s a l else s
    | none => s

/-! ### Decoding (R216, R217, R235, R237, R242) -/

/-- Opcodes that a run started under HAND may not decode before the handing run's end (R235). -/
def behindHolds (op : Nat) : Bool := decide (op = 0 ∨ op = 9 ∨ op = 10 ∨ op = 11 ∨ op = 14)

/-- The agent's decoder may take a step at this edge: a porter's takes one per running BCLK (R242). -/
def decoderFree (s : State) (a : Nat) : Bool :=
  !isChan a || (!heldEdge s && !doneNow s (lastDec (agentPorter a)))

/-- The context stands before word `w` and may decode it. -/
def mayDecode (s : State) (a k : Nat) (w : Word) : Bool :=
  let c := s.ctx a k
  c.live && decide (c.hold = .none ∧ c.at_ ≤ s.clk) && !c.ended && agentUp s a && decoderFree s a && c.buf[c.pc]? == some w &&
    !(c.behind && behindHolds (fld w 31 28))

/-- A decoder step of an agent's context: the porter's pointer moves (R242). -/
def stepTaken (s : State) (a k : Nat) : State :=
  if isChan a then
    setLast (setPtr s (ptrDec (agentPorter a)) (agentChan a * 2 + k + 1)) (lastDec (agentPorter a))
  else s

/-- The instruction executes: unpredicated, or its flag differs from PINV (R216). -/
def executes (c : Ctx) (w : Word) : Bool := !bitOf w 27 || (c.flags.getD (fld w 26 25) false != bitOf w 24)

/-- The context at its next instruction, in the following BCLK. -/
def Ctx.after (c : Ctx) (s : State) : Ctx := { c with pc := c.pc + 1, at_ := s.clk + 1 }

/-- Decode one instruction: it must be the word the context stands before, of opcode `op`; illegal forms fault whatever the
predicate; `run` is what it does when it executes, `skip` the context when it does not (R216, R217). -/
def decode (a k : Nat) (w : Word) (op : Nat) (legal : Ctx → Bool) (run : Ctx → State → State)
    (skip : Ctx → Option Ctx) (s : State) : State :=
  let c := s.ctx a k
  if !(mayDecode s a k w && fld w 31 28 == op) then s
  else if !legal c then itinFault (stepTaken s a k) a k 2
  else if executes c w then run c (stepTaken s a k)
  else match skip c with
  | some d => (stepTaken s a k).setCtx a k { d with at_ := s.clk + 1 }
  | none => itinFault (stepTaken s a k) a k 2

/-- An instruction that does not execute moves on. -/
def plainSkip (c : Ctx) : Option Ctx := some { c with pc := c.pc + 1 }

/-- An instruction whose only effect is on its context. -/
def ctxOnly (a k : Nat) (f : Ctx → Ctx) (c : Ctx) (s : State) : State := s.setCtx a k ((f c).after s)

/-- Accept every form of the opcode's fields. -/
def anyForm (_ : Ctx) : Bool := true

/-! ### Address registers (R212 to R214, R219) -/

/-- Add `d` granules to a register's address under its modulo (R214). -/
def advance (r : AReg) (d : Int) : Nat :=
  let m : Nat := if r.modl = 0 then 2 ^ 42 else 2 ^ (r.modl - 6)
  r.addr - r.addr % m + (((r.addr : Int) + d) % (m : Int)).toNat

/-- The register changed by SETA, ADDA, MODA or CPYA loses its kept translation (R285). -/
def AReg.changed (r : AReg) : AReg := { r with kept := none }

def doSetaLo (a k : Nat) (w : Word) (s : State) : State :=
  if fld w 20 19 ≠ 0 then s else decode a k w 1 anyForm (ctxOnly a k fun c =>
    let r := c.reg (fld w 23 21)
    c.setReg (fld w 23 21) { r with addr := r.addr / 2 ^ 19 * 2 ^ 19 + fld w 18 0, kept := none }) plainSkip s
def doSetaHi (a k : Nat) (w : Word) (s : State) : State :=
  if fld w 20 19 ≠ 1 then s else decode a k w 1 anyForm (ctxOnly a k fun c =>
    let r := c.reg (fld w 23 21)
    c.setReg (fld w 23 21)
      { r with addr := r.addr / 2 ^ 38 * 2 ^ 38 + fld w 18 0 * 2 ^ 19 + r.addr % 2 ^ 19, kept := none }) plainSkip s
def doSetaTop (a k : Nat) (w : Word) (s : State) : State :=
  if fld w 20 19 < 2 then s else decode a k w 1 (fun _ => decide (fld w 20 19 = 2 ∧ fld w 6 4 < 6)) (ctxOnly a k fun c =>
    let r := c.reg (fld w 23 21)
    c.setReg (fld w 23 21)
      { r with addr := fld w 3 0 * 2 ^ 38 + r.addr % 2 ^ 38, space := fld w 6 4, tag := fld w 18 7, kept := none }) plainSkip s
def doAdda (a k : Nat) (w : Word) : State → State :=
  decode a k w 2 anyForm (ctxOnly a k fun c =>
    let r := c.reg (fld w 23 21)
    c.setReg (fld w 23 21) { r with addr := advance r (sext 21 (fld w 20 0)), kept := none }) plainSkip
def doModa (a k : Nat) (w : Word) : State → State :=
  decode a k w 3 (fun _ => fld w 20 6 == 0) (ctxOnly a k fun c =>
    let r := c.reg (fld w 23 21)
    let m := fld w 5 0
    c.setReg (fld w 23 21) { r with modl := if m = 0 ∨ 48 ≤ m then 0 else max 6 m, kept := none }) plainSkip
def doCpya (a k : Nat) (w : Word) : State → State :=
  decode a k w 15 (fun _ => fld w 17 0 == 0) (ctxOnly a k fun c =>
    c.setReg (fld w 23 21) { c.reg (fld w 20 18) with kept := none }) plainSkip

/-! ### Loops and predicates (R224 to R227) -/

def Ctx.loopC (c : Ctx) (i : Nat) : LoopC := c.loops.getD i freshLoop
def Ctx.setLoop (c : Ctx) (i : Nat) (l : LoopC) : Ctx := { c with loops := c.loops.set i l }

/-- A count field: 0 means 65 536. -/
def count16 (v : Nat) : Nat := if v = 0 then 65536 else v

/-- The index after the first ENDL of a counter that follows (R226). -/
def afterEndl (c : Ctx) (i : Nat) : Option Nat :=
  (((List.range c.buf.length).drop (c.pc + 1)).find? fun j =>
    match c.buf[j]? with
    | some w => decide (fld w 31 28 = 5 ∧ fld w 23 21 = i)
    | none => false).map (· + 1)

def doLoop (a k : Nat) (w : Word) : State → State :=
  let i := fld w 23 21
  decode a k w 4 (fun c => decide (fld w 20 16 = 0 ∧ i < 6) && !(c.loopC i).isOpen)
    (ctxOnly a k fun c =>
      let n := count16 (fld w 15 0)
      { c.setLoop i ⟨true, n, n, c.pc + 1⟩ with nest := i :: c.nest })
    (fun c => (afterEndl c i).map fun j => { c with pc := j })

/-- The loop closes. -/
def Ctx.close (c : Ctx) (i : Nat) : Ctx := { c.setLoop i freshLoop with nest := c.nest.tail, pc := c.pc + 1 }

def doEndl (a k : Nat) (w : Word) : State → State :=
  let i := fld w 23 21
  decode a k w 5 (fun c => decide (fld w 20 0 = 0 ∧ i < 6) && c.nest.head? == some i)
    (fun c s =>
      let l := c.loopC i
      s.setCtx a k { (if l.rem ≤ 1 then c.close i else { c.setLoop i { l with rem := l.rem - 1 } with pc := l.start }) with
        at_ := s.clk + 1 })
    (fun c => some (c.close i))

def doTest (a k : Nat) (w : Word) : State → State :=
  let j := fld w 21 19
  decode a k w 6 (fun c => decide (bitOf w 16 = false ∧ j < 6) && (!executes c w || (c.loopC j).isOpen))
    (ctxOnly a k fun c =>
      let l := c.loopC j
      let i := l.init - l.rem
      let imm := fld w 15 0
      let v := match fld w 18 17 with
        | 0 => decide (i = imm)
        | 1 => decide (i ≠ imm)
        | 2 => decide (i < imm)
        | _ => decide (imm ≤ i)
      { c with flags := c.flags.set (fld w 23 22) v }) plainSkip

/-! ### Moves (R220 to R223, R237, R241, R248, R251, R263, R428) -/

/-- Legal pairs of spaces: P 0, V 1, F 2, S 3, W 4, T 5 (R220). -/
def legalMove (a src dst : Nat) : Bool :=
  if isChan a then
    (decide (src < 2) && (dst == 0 || dst == 1 || dst == 2 || dst == 4)) || (src == 2 && decide (dst < 2)) ||
    (src == 5 && (dst == 0 || dst == 1 || dst == 2 || dst == 4))
  else decide (src < 2) && dst == 3

/-- A run may not start at these addresses: neither side F-space and unequal bits [8:6] (R221). -/
def misplaced (r d : AReg) : Bool := decide (r.space ≠ 2 ∧ d.space ≠ 2 ∧ r.addr % 8 ≠ d.addr % 8)

/-- Granules from an address to the next cut of its register (R221). -/
def toCut (r : AReg) : Nat :=
  let m := if r.modl = 0 then 2 ^ 42 else 2 ^ (r.modl - 6)
  min (8 - r.addr % 8) (m - r.addr % m)

/-- Granules of the next piece. -/
def pieceLen (r d : AReg) (rem : Nat) : Nat := min rem (min (toCut r) (toCut d))

/-- Half size of a satchel in granules. -/
def halfGrans (x : Nat) : Nat := satSlots x * 8

/-- What a piece's side faults with at generation: event source, cause, DETAIL (R200, R213, R238, R263, R354, R428). -/
structure GenFault where
  bit    : Option Nat
  loc    : Nat
  code   : Nat
  cause  : Nat
  detail : Nat

/-- Check one side of a piece of `n` granules at its generation. -/
def sideFault (s : State) (a task : Nat) (r : AReg) (n : Nat) : Option GenFault :=
  let range : GenFault := ⟨some (itinBit a false), addrLoc (r.addr * 64), r.space, 0x12, r.space⟩
  match r.space with
  | 0 => if 2 ^ 24 ≤ r.addr then some range else none
  | 2 =>
    let c := farChannel s (r.addr * 64)
    if bitOf (rg s (if c < 32 then .fchOutLo else .fchOutHi)) (c % 32) then some ⟨none, 0, 0, 0x0F, c⟩ else none
  | 3 =>
    if halfGrans a ≤ r.addr then some ⟨some (itinBit a false), 0, 4, 4, 0⟩
    else match chainOf s a with
      | some (c, _ + 1) => if c.inWin (r.addr / 8) then some ⟨some 13, r.addr / 8, 0, 0x0E, 0⟩ else none
      | _ => none
  | 4 =>
    let w := r.tag
    let cfg := rg s .winCfg w
    if bitOf cfg 26 && rf s .winStat w 1 0 == 2 && decide (w < min 4096 (rf s .winCtrl 0 12 0)) && fld cfg 25 16 == task then
      (if rf s .winSize w 17 0 * 64 < r.addr + n then some range else none)
    else some ⟨some 14, w, 0, 0x08, 0⟩
  | 5 => if 32 ≤ r.tag ∨ 512 < r.addr + n then some range else none
  | _ => none

/-- The piece may be generated now: queue room, credit, reorder slot, far-channel room (R241, R242, R248, R251, R261). -/
def pieceRoom (s : State) (a : Nat) (r d : AReg) : Bool :=
  let v := s.agent a
  decide (queueLen s a < 32) &&
  (!isChan a ||
    ((!(crdEn v && decide (d.space < 2)) || decide (0 < v.credit)) &&
     (decide (2 < r.space ∨ d.space = 4) ||
      (let w := rg s .porterChLimit (a - 32)
       let mx := fld w 10 0
       let held := slotsHeld s a
       decide (slotsUsed s (agentPorter a) < 1024 ∧ held < (if mx = 0 ∨ 1024 < mx then 1024 else mx)) &&
       (!chanHeld s a || decide (held < max 1 (fld w 26 16)))))))

/-- The P-space byte address of a side: its own, or its kept page's; none while a lookup is needed. -/
def pspace (r : AReg) : Option Nat :=
  if r.space = 1 then (keptBase r).map (· + r.addr % 256 * 64) else some (r.addr * 64)

/-- A generation fault of the context's MOVE. An itinerary fault is located by the MOVE's store index (R471). -/
def genFault (s : State) (a k : Nat) (r : AReg) (f : GenFault) : State :=
  let c := s.ctx a k
  let s1 := match f.bit with
    | some b => raise s (agentFu a) b (if f.cause = 4 then (c.start + c.pc) % 16384 else f.loc) f.code (some c.task)
    | none => s
  faultRun s1 a k c.pc f.cause f.detail (r.addr * 64) r.space

/-- The piece's write half ends its packet: the end of the MOVE, a 4 KiB boundary of the window offset, or a wrap of the destination
register, past which the next granule does not follow on (R214, R255). -/
def endsPacket (d : AReg) (n rem : Nat) : Bool := decide (rem = n ∨ (d.addr + n) % 64 = 0 ∨ advance d n ≠ d.addr + n)

/-- Generate one piece of a context's MOVE: its sides are in order, it has room, its lookups are done. -/
def emitPiece (s : State) (a k dst src rem pa da : Nat) : State :=
  let c := s.ctx a k
  let r := c.reg src
  let d := c.reg dst
  let n := pieceLen r d rem
  let v := s.agent a
  let d0 := match v.keep with
    | some l => l.d0
    | none => 0
  let slot := isChan a && decide (r.space ≤ 2 ∧ d.space ≠ 4)
  let p : Piece := ⟨s.nextSq, a, k, c.task, c.pass, c.start, c.pc, ⟨r.space, r.addr, r.tag⟩, ⟨d.space, d.addr, d.tag⟩, pa, da, n,
    .waiting, .waiting, [], true, slot, false, 0, 0, 0, 0, endsPacket d n rem, c.prof, fld d0 18 16, bitOf d0 19, s.clk, 0⟩
  let s1 := { s with pieces := s.pieces ++ [p], nextSq := s.nextSq + 1 }
  let s2 := if isChan a then
      let s2 := bump s1 .porterChPieces (a - 32) 31 0
      let s3 := if crdEn v && decide (d.space < 2) then
          creditMeets s2 (agentLoc a) (agentLoc a) fun s => s.setAgent a { s.agent a with credit := v.credit - 1 }
        else s2
      let used := slotsUsed s3 (agentPorter a)
      if rf s3 .porterReord (agentPorter a) 26 16 < used then setRf s3 .porterReord (agentPorter a) 26 16 used else s3
    else s1
  let c1 := c.setReg src { r with addr := advance r n }
  let c2 := if src = dst then c1 else c1.setReg dst { d with addr := advance d n }
  if rem = n then s2.setCtx a k { c2 with hold := .none, pc := c.pc + 1, at_ := s.clk + 1 }
  else s2.setCtx a k { c2 with hold := .move dst src (rem - n), at_ := s.clk + 1 }

/-- The requester of an agent's lookups (R286). -/
def lookReq (a : Nat) : Nat := if isChan a then 32 + agentPorter a else a

/-- A lookup may be granted to the agent at this edge: one a requester, eight in all (R286). -/
def lookFree (s : State) (a : Nat) : Bool :=
  !doneNow s (lastLook (lookReq a)) && decide (lastAt s lookCount / 16 ≠ s.clk + 1 ∨ lastAt s lookCount % 16 < 8)

/-- A lookup is granted. -/
def lookTaken (s : State) (a k : Nat) : State :=
  let n := if lastAt s lookCount / 16 = s.clk + 1 then lastAt s lookCount % 16 + 1 else 1
  let s1 := setLast { s with axiLast := Tab.set (fun _ => 0) s.axiLast lookCount ((s.clk + 1) * 16 + n) } (lastLook (lookReq a))
  let s2 := setPtr s1 ptrLook (lookReq a + 1)
  if isChan a then setPtr s2 (ptrLookCh (agentPorter a)) (agentChan a * 2 + k + 1) else s2

/-- Look up register `i`, if a grant is free; a first lookup that waits for its epoch takes no grant (R286, R287). -/
def tryLookup (s : State) (a k i : Nat) : State :=
  let c := s.ctx a k
  let r := c.reg i
  if (c.pin (slotOfReg r)).isNone && epochWaits s r then doLookup s a k i
  else if lookFree s a then doLookup (lookTaken s a k) a k i
  else s

/-- Pieces the agent has generated at this edge. -/
def madeNow (s : State) (a : Nat) : Nat := (s.pieces.filter fun p => decide (p.agent = a ∧ p.gen = s.clk)).length

/-- A fill sequencer may generate one more piece at this edge: two a BCLK for a matrix port's, one for a vector port's, in both
contexts together (R237). A channel's rate is its porter's decoder's (R242). -/
def rateLeft (s : State) (a : Nat) : Bool := isChan a || decide (madeNow s a < if a < 16 then 2 else 1)

/-- One generation attempt: a fault, or a piece where no side's page must be looked up first. -/
def generate (s : State) (a k : Nat) : State :=
  let c := s.ctx a k
  match c.hold with
  | .move dst src rem =>
    let r := c.reg src
    let d := c.reg dst
    let n := pieceLen r d rem
    if !pieceRoom s a r d || !rateLeft s a then s else
    match sideFault s a c.task r n, sideFault s a c.task d n with
    | some f, _ => genFault s a k r f
    | none, some f => genFault s a k d f
    | none, none => match pspace r, pspace d with
      | some pa, some da => emitPiece (stepTaken s a k) a k dst src rem pa da
      | _, _ => s
  | _ => s

/-- The register whose page a context's MOVE must look up before its next piece: its sides are in order, and it has room for the piece
or waits for an epoch already (R222, R287). The second piece of a matrix fill sequencer in one BCLK may ask too. -/
def wantsLookup (s : State) (a k : Nat) : Option Nat :=
  let c := s.ctx a k
  match c.hold with
  | .move dst src rem =>
    let r := c.reg src
    let d := c.reg dst
    let n := pieceLen r d rem
    let due := decide (c.at_ ≤ s.clk) || decide (a < 16 ∧ c.at_ = s.clk + 1 ∧ madeNow s a = 1)
    if !(c.live && agentUp s a && due && (pieceRoom s a r d || c.ewait.isSome)) then none
    else if (sideFault s a c.task r n).isSome || (sideFault s a c.task d n).isSome then none
    else match pspace r, pspace d with
      | none, _ => some src
      | some _, none => some dst
      | some _, some _ => none
  | _ => none

/-- The context's lookup, if it wants one: granted, or waiting for its epoch (R282, R286, R287). -/
def lookup (a k : Nat) (s : State) : State :=
  match wantsLookup s a k with
  | some i => tryLookup s a k i
  | none => s

/-- Up to two pieces of a matrix fill sequencer in one BCLK, one of any other agent (R237, R242). -/
def generates (s : State) (a k : Nat) : State :=
  let s1 := generate s a k
  let moved := match (s1.ctx a k).hold with
    | .move _ _ _ => decide (s1.nextSq ≠ s.nextSq)
    | _ => false
  if a < 16 && moved then generate s1 a k else s1

/-- Both sides of the MOVE under way have their P-space addresses: what it needs next is a decoder step (R242). -/
def sidesKnown (c : Ctx) : Bool :=
  match c.hold with
  | .move dst src _ => (pspace (c.reg src)).isSome && (pspace (c.reg dst)).isSome
  | _ => false

/-- The context stands before a MOVE that executes and is legal; no step of a porter's decoder is needed to begin it. -/
def moveStands (s : State) (a k : Nat) (w : Word) : Bool :=
  let c := s.ctx a k
  c.live && decide (c.hold = .none ∧ c.at_ ≤ s.clk) && !c.ended && agentUp s a && c.buf[c.pc]? == some w && !(isChan a && heldEdge s) &&
    fld w 31 28 == 7 && fld w 17 16 == 0 && executes c w

/-- A MOVE occupies its context's decoder (R220, R237). -/
def enterMove (a k : Nat) (w : Word) (s : State) : State :=
  let c := s.ctx a k
  let r := c.reg (fld w 20 18)
  let d := c.reg (fld w 23 21)
  if !moveStands s a k w then s
  else if !legalMove a r.space d.space || misplaced r d then itinFault s a k 3 (r.addr * 64) r.space
  else s.setCtx a k { c with hold := .move (fld w 23 21) (fld w 20 18) (count16 (fld w 15 0)) }

/-- The MOVE of a context goes on: pieces where its agent's decoder is free. -/
def moveOn (a k : Nat) (s : State) : State :=
  if sidesKnown (s.ctx a k) && !decoderFree s a then s else generates s a k

/-- MOVE decodes, and generates its first piece in the same BCLK (R220, R221, R237); one that does not execute or is illegal
takes a decoder step. -/
def doMove (a k : Nat) (w : Word) (s : State) : State :=
  if moveStands s a k w then moveOn a k (enterMove a k w s)
  else if executes (s.ctx a k) w && fld w 17 16 == 0 then s
  else decode a k w 7 (fun _ => fld w 17 16 == 0) (fun _ s => s) plainSkip s

/-- PIECE_GENERATE: the next pieces of a MOVE under way; the lookup they may need first is granted at the end of the edge (R282). -/
def doGenerate (a k : Nat) (s : State) : State :=
  let c := s.ctx a k
  if c.live && agentUp s a && decide (c.at_ ≤ s.clk) then
    (match c.hold with
     | .move _ _ _ => moveOn a k s
     | _ => s)
  else s

/-! ### Bells, fences, exchanges, formats, hand-over (R228 to R235) -/

/-- The fields of WAIT and RING are legal: N not 0, reserved bits 0 (R217, R219). -/
def bellForm (w : Word) (_ : Ctx) : Bool := decide (fld w 23 21 = 0 ∧ fld w 20 13 ≠ 0)

/-- Bell index 2n + b of WAIT and RING. -/
def bellOf (w : Word) : Nat := 2 * fld w 9 0 + fld w 10 10

def doWait (a k : Nat) (w : Word) : State → State :=
  decode a k w 8 (bellForm w)
    (fun c s => submitWait (s.setCtx a k { c with hold := .wait }) a k c.task (bellOf w) (fld w 20 13)
      (itinScope c.pass (fld w 12 11))) plainSkip
def doRing (a k : Nat) (w : Word) : State → State :=
  decode a k w 9 (bellForm w)
    (fun c s => submitRing (s.setCtx a k (c.after s)) a c.task (bellOf w) (fld w 20 13) (itinScope c.pass (fld w 12 11))) plainSkip

/-- The pieces of the run in a context. -/
def runPieces (s : State) (a k : Nat) : List Piece :=
  (agentPieces s a).filter fun p => decide (p.ctx = k ∧ p.task = (s.ctx a k).task)

/-- The piece's read half is complete: its source data is held by the agent, or for a W destination by the link port, to which a tally
source's comes with its packet (R229). -/
def readHeld (p : Piece) : Bool := decide (p.rd = .complete) && !decide (p.dst.space = 4 ∧ p.wr = .waiting)

/-- The pieces a FENCE waits for: those its context generated before it, in the halves selected (R229). -/
def fenceOpen (s : State) (a k : Nat) (rd wr : Bool) (before : Nat) : Bool :=
  let c := s.ctx a k
  (wr && c.lostWr) || (rd && c.lostRd) || (runPieces s a k).any fun p => decide (p.sq < before) && (wr || (rd && !readHeld p))

/-- A FENCE completes in this BCLK once its pieces are complete. -/
def fenceSettle (s : State) (a k : Nat) : State :=
  match (s.ctx a k).hold with
  | .fence rd wr before => if fenceOpen s a k rd wr before then s else release s a k
  | _ => s

def doFence (a k : Nat) (w : Word) : State → State :=
  decode a k w 10 (fun _ => decide (fld w 23 13 = 0 ∧ fld w 10 2 = 0))
    (fun c s => fenceSettle (s.setCtx a k { c with hold := .fence (bitOf w 0) (bitOf w 1) s.nextSq }) a k) plainSkip

/-- FENCE_COMPLETE. -/
def doFenceComplete (a k : Nat) (s : State) : State := if (s.ctx a k).live then fenceSettle s a k else s

def doSwap (a k : Nat) (w : Word) : State → State :=
  decode a k w 11 (fun _ => fld w 23 0 == 0 && !isChan a)
    (fun c s => s.setCtx a k { c with hold := .swap s.nextSq }) plainSkip
def doFmt (a k : Nat) (w : Word) : State → State :=
  decode a k w 12 (fun _ => fld w 23 3 == 0 && !isChan a)
    (ctxOnly a k fun c => { c with prof := fld w 2 0 }) plainSkip
def doTaly (a k : Nat) (w : Word) : State → State :=
  decode a k w 13 (fun _ => fld w 23 19 == 0 && !isChan a)
    (fun c s => setTaly (s.setCtx a k (c.after s)) a ⟨bitOf w 0, fld w 8 1, fld w 18 9, c.task⟩) plainSkip
def doHand (a k : Nat) (w : Word) : State → State :=
  decode a k w 14 (fun _ => fld w 23 0 == 0)
    (fun c s => startLoaded (s.setCtx a k { c.after s with handed := true }) a) plainSkip

/-! ### The end of a run (R233, R283) -/

/-- The run has decoded END and every piece of it is complete. -/
def runOver (s : State) (a k : Nat) : Bool :=
  (s.ctx a k).live && (s.ctx a k).ended && !(s.ctx a k).lostWr && (runPieces s a k).isEmpty

/-- RUN_END. -/
def doRunEnd (a k : Nat) (s : State) : State := if runOver s a k then freeCtx s a k else s

def doEnd (a k : Nat) (w : Word) : State → State :=
  decode a k w 0 (fun _ => fld w 23 0 == 0) (fun c s => doRunEnd a k (s.setCtx a k { c with ended := true })) plainSkip

end Sys2Proof.Machine
end

