-- ==== Sys2Proof/Machine/Porter.lean ====
section
/-! DEFINITION. Porters: read and write halves, far bursts, reorder slots, packets handed to links, tally exports, arms,
credits, far channels (R162 to R167, R241 to R263, R353, R354, R453). -/

namespace Sys2Proof.Machine

/-! ### Presentation (R243 to R245, R453) -/

/-- A porter may issue what it owes: READY, not in reset, its domain ON. -/
def porterOn (s : State) (p : Nat) : Bool :=
  decide (s.life = .ready) && !inReset s (rstPorter p) && decide ((dom s (272 + p)).st = 0)

/-- A porter is in service: it may issue, and the chip is not in the safe state. -/
def porterUp (s : State) (p : Nat) : Bool := porterOn s p && !s.safe

/-- The client of a piece's P-space side. -/
def pieceClient (p : Piece) : Client := .porter (passPriv p.pass)

/-- Regulated transactions of a class that a porter holds: halves presented and not complete, and outbound stripe reads from the
hand-over of their packet on (R449, R453). -/
def porterHolds (s : State) (p cls : Nat) : Nat :=
  ((s.pieces.filter fun q => isChan q.agent && agentPorter q.agent == p && passClass q.pass == cls).map fun q =>
    b2n (decide (q.rdAt ≠ 0 ∧ (q.rd = .presented ∨ q.dst.space = 4 ∧ q.rd = .waiting))) + b2n (decide (q.wrAt ≠ 0 ∧ q.wr = .presented))).sum

/-- P_LIM keeps the porter from presenting one more transaction of the class (R453, R455). -/
def porterHeld (s : State) (p cls : Nat) : Bool :=
  let lim := min 1024 (rf s .regClassLimit cls 10 0)
  bitOf (rg s .regCtrl) 0 && decide (lim ≠ 0 ∧ lim ≤ porterHolds s p cls)

/-- A slotted lane serves a half presented now: the porter owns it at n+3 or n+4, and no earlier half of the porter to the
same row waits in a queue (R244). -/
def slottedHalf (s : State) (p : Nat) (d : Dir) (k : Checked) : Bool :=
  let accs := k.grans.map Prod.snd
  ownerIn s k.col d (match d with | .rd => 3 | .wr => 4) == porterOwner p &&
  !((s.queue (queueKey k.col .rd p)).entries.any fun e => sameRow e.accs accs) &&
  !((s.queue (queueKey k.col .wr p)).entries.any fun e => sameRow e.accs accs)

/-- The interface of an F-space address takes another address at this edge: one per 4 BCLK and direction (R162, R247). -/
def axiRoom (s : State) (p : Nat) (a : Nat) (w : Bool) : Bool :=
  let l := lastAt s (lastAxi p (a / 512 % 4) w)
  decide (l = 0 ∨ l + 4 ≤ s.clk + 1) && decide ((s.bursts.filter fun b => b.porter == p).length < 1024) &&
  bitOf (rg s .ppCtrl p) 0

/-- A half of a P or V side may be presented: a lane or queue room, and no limit; one whose check fails may too. -/
def columnReady (s : State) (p : Nat) (d : Dir) (q : Piece) (k : Checked) : Bool :=
  !heldEdge s && (decide (k.st ≠ 0) ||
    (!porterHeld s p (passClass q.pass) && (slottedHalf s p d k || queueRoom s k.col d p)))

/-- The P-space read of a piece, checked as it is presented. -/
def readCheck (s : State) (q : Piece) : Checked := checkWide s (pieceClient q) false false q.srcP q.cnt
def writeCheck (s : State) (q : Piece) : Checked := checkWide s (pieceClient q) true false q.dstP q.cnt

/-- The read half a channel could present now: its next piece's, in generation order (R245). -/
def readReady (s : State) (a : Nat) : Option Piece :=
  let p := agentPorter a
  (nextRead s a).bind fun q =>
    if q.src.space = 2 then
      (if !farHeld s (farChannel s (q.src.addr * 64)) && axiRoom s p (q.src.addr * 64) false then some q else none)
    else if q.src.space = 5 then some q
    else if q.dst.space = 4 then none
    else if columnReady s p .rd q (readCheck s q) then some q else none

/-! ### AXI bursts (R162 to R166, R250) -/

/-- The lowest AxID no outstanding burst of the porter holds (R165). -/
def freeId (s : State) (p : Nat) : Nat :=
  ((List.range 1024).find? fun i => !s.bursts.any fun b => b.porter == p && b.id == i).getD 0

/-- WSTRB by beat of a write of `n` bytes from byte address `a` (R163): a piece's granules, or an atomic element. -/
def strobesOf (a n beats : Nat) : List (BitVec 128) :=
  (List.range beats).map fun j =>
    let lo := a - min a ((a / 128 + j) * 128)
    let hi := min 128 (a + n - (a / 128 + j) * 128)
    BitVec.ofNat 128 ((2 ^ hi - 1) / 2 ^ lo * 2 ^ lo)

/-- The multiplier that AxQOS[0] shows: a change made at this TCLK edge shows from the next edge on (R166, R458). -/
def qosMult (s : State) (c : Nat) : Nat := classMult (if s.clk % 12 = 0 then s.regsB1 else s.regs) c

/-- A burst for `n` granules, or for one atomic element. -/
def burstOf (s : State) (p : Nat) (q : Piece) (w : Bool) (addr beats size atop : Nat) (data : List Row) : Burst :=
  let c := passClass q.pass
  ⟨p, freeId s p, addr / 512 % 4, w, addr, beats, size, atop, c * 2 + b2n (decide (1 < qosMult s c)), q.pass,
   (if w then rf s .ppCtrl p 7 4 else rf s .ppCtrl p 11 8), 2 + b2n (passPriv q.pass), q.sq, q.task, data,
   if w then strobesOf addr (if size = 7 then q.cnt * 64 else 2 ^ size) beats else []⟩

/-- Beats of 128 bytes that `n` granules from a byte address touch (R247). -/
def beatsOf (a n : Nat) : Nat := (a + n * 64 + 127) / 128 - a / 128

/-- An address goes out on its interface. -/
def issueBurst (s : State) (b : Burst) : State :=
  setLast { s with bursts := s.bursts ++ [b] } (lastAxi b.porter b.iface b.write)

/-! ### Read halves -/

/-- A transaction's ready edge is kept, or is now (R449). -/
def readyAt (s : State) (t : Nat) : Nat := if t = 0 then s.clk else t

/-- Present a P or V read half: checked, in its slotted lane or the porter's queue (R87, R244). -/
def presentColumnRead (s : State) (p : Nat) (q : Piece) : State :=
  let k := readCheck s q
  if k.st ≠ 0 then dropPiece (refusePiece s q q.src q.srcP k) q.sq else
  let accs := k.grans.map Prod.snd
  let s1 := setPiece s { q with queued := false, rd := .presented, rdAt := readyAt s q.rdAt, elem := turnOf k }
  if slottedHalf s p .rd k then
    { s1 with rdLanes := s1.rdLanes ++ [newLane k.col (.piece q.sq) (masterPorter p) accs (s.run + 7) (s.run + 16)] }
  else (enqueue s1 k.col .rd p
    ⟨.piece q.sq, accs, [], passClass q.pass, some q.task, s.run + 3, none⟩).getD s

/-- PIECE_READ_HALF: porter `p` presents one read half, round-robin over its channels (R243). -/
def doReadHalf (p : Nat) (s : State) : State :=
  if !porterUp s p || doneNow s (lastRead p) then s else
  match robin 16 (ptr s (ptrRead p)) fun k => (readReady s (chanAgent p k)).isSome with
  | none => s
  | some k =>
    match readReady s (chanAgent p k) with
    | none => s
    | some q =>
      let s1 := setLast (setPtr s (ptrRead p) (k + 1)) (lastRead p)
      if q.src.space = 2 then
        issueBurst (setPiece s1 { q with queued := false, rd := .presented })
          (burstOf s p q false (q.src.addr * 64) (beatsOf (q.src.addr * 64) q.cnt) 7 0 [])
      else if q.src.space = 5 then
        { setPiece s1 { q with queued := false, rd := .presented } with exports := s1.exports ++ [⟨q.src.tag, q.sq, none, []⟩] }
      else presentColumnRead s1 p q

/-- The lane that carries a piece's read, its data due. -/
def pieceLane (s : State) (sq : Nat) : Option RdLane :=
  s.rdLanes.find? fun l => decide (l.use = .piece sq ∧ l.due ≤ s.run) && l.got.isSome

/-- The rows a P or V read delivers, through the element turn of a column aperture (R92), as its presentation decoded it (R96). -/
def readRows (q : Piece) (l : RdLane) : List Row :=
  let rows := (l.got.getD []).map fun g => (readRow g).data
  if q.elem = 0 then rows else
  let places := (List.range q.cnt).map fun i => q.srcP / 64 % 8 + i
  let t := turnOut q.elem (stripeRows (places.zip rows))
  places.map fun j => t.getD j 0

/-- Source data has arrived: it is kept in the piece's slot, or dropped if the piece's task was aborted (R229, R265). -/
def dataArrived (s : State) (q : Piece) (rows : List Row) : State :=
  if q.dead then dropPiece s q.sq else setPiece s { q with rd := .complete, data := rows }

/-- A stripe of a packet handed to a link port cannot be read: a packet whose header has not left is dropped whole, another
goes on without that data (R45, R265; log entry 6). -/
def packetLost (s : State) (q : Piece) : State :=
  let gone := s.links.flatMap fun e => (e.2.outQ.filter fun o => o.sqs.contains q.sq && !o.hdrSent).flatMap OutPkt.sqs
  if gone.isEmpty then
    setPiece { s with free := s.free + 1 }
      { q with rd := .complete, data := List.replicate q.cnt (Config.unread s.free), rdAt := 0 }
  else
    let cut := fun (s : State) (l : Nat) =>
      s.setLink l { s.link l with outQ := (s.link l).outQ.filter fun o => !o.sqs.contains q.sq }
    (List.range 4).foldl cut { s with pieces := s.pieces.filter fun p => !gone.contains p.sq }

/-- A piece whose read half has met a fault is gone. -/
def readLost (s : State) (q : Piece) : State := if q.dst.space = 4 then packetLost s q else dropPiece s q.sq

/-- The stripe of a piece's column read arrives, or fails on an uncorrectable word (R45, R229). -/
def columnArrived (s : State) (q : Piece) (l : RdLane) : State :=
  let s1 := foundAll { s with rdLanes := s.rdLanes.filter fun m => decide (m ≠ l) } l.col l.finds .client (some q.task)
  if laneUe l then readLost (faultPiece s1 q 0x0A 0 q.src) q
  else dataArrived s1 q (readRows q l)

/-- A fill piece's stripe is at the crossbar output: its read half is complete and its credits return (R229, R252). -/
def fillReadDone (s : State) (x : Nat) (q : Piece) : State :=
  let here := s.rdLanes.any fun l => (match l.use with
    | .fill y i => y == x && ((s.sat x).fills.any fun f => f.id == i && f.sq == q.sq)
    | _ => false) && decide (l.due ≤ s.run) && l.got.isSome
  if here && decide (q.rd = .presented) then consumerReturn (setPiece s { q with rd := .complete }) x q.srcP else s

/-- PIECE_READ_COMPLETE. -/
def doReadComplete (a sq : Nat) (s : State) : State :=
  match s.piece sq with
  | none => s
  | some q =>
    if q.agent ≠ a then s
    else if !isChan a then fillReadDone s a q
    else match pieceLane s sq with
    | some l => columnArrived s q l
    | none => match s.exports.find? fun e => e.sq == sq with
      | some e => match e.due with
        | some d =>
          if d ≤ s.clk then dataArrived { s with exports := s.exports.filter fun f => f.sq != sq } q e.data else s
        | none => s
      | none => s

/-- TALLY_EXPORT_READ: the unit serves the read, or it faults (R353, R354). -/
def doExport (a sq : Nat) (s : State) : State :=
  match s.exports.find? fun e => e.sq == sq && e.due.isNone, s.piece sq with
  | some e, some q =>
    if q.agent ≠ a || doneNow s (lastTallyV e.x) || doneNow s (lastTallyP e.x) then s else
    let drop := fun (s : State) => dropPiece { s with exports := s.exports.filter fun f => f.sq != sq } sq
    let s1 := setLast s (lastTallyP e.x)
    if !bitOf (rg s .tallyCtrl e.x) 0 then drop (faultPiece s1 q 0x08 0 q.src) else
    let (ws, ce, ue, loc) := readTally s1 ((List.range (q.cnt * 16)).map fun j => tallyWord e.x (q.src.addr * 2 + j / 8) (j % 8))
    let s2 := countTally s1 e.x ce ue loc
    if ue ≠ 0 then drop (faultPiece s2 q 0x0A 0 q.src)
    else { s2 with exports := s2.exports.map fun f =>
      if f.sq = sq then { f with due := some (s.clk + 4), data := wordsToRows q.cnt ws } else f }
  | _, _ => s

/-! ### Write halves (R245, R250, R255) -/

/-- The packet that piece `q` begins: it and the channel's following pieces to the end of the packet; none until all are
generated. -/
def packetOf (s : State) (q : Piece) : Option (List Piece) :=
  let l := (agentPieces s q.agent).filter fun r => decide (q.sq ≤ r.sq ∧ r.ctx = q.ctx ∧ r.off = q.off ∧ r.dst.space = 4) && !r.dead
  let n := (l.takeWhile fun r => !r.pktEnd).length
  if n < l.length then some (l.take (n + 1)) else none

/-- The packet may be handed to its link: each piece has passed its generation at an earlier edge (R435), a tally source is read, a P or
V source is still to be read by the link (R243). -/
def packetReady (s : State) (p : Nat) (l : List Piece) : Bool :=
  l.all fun r => decide (r.gen < s.clk) && if r.src.space = 5 then decide (r.rd = .complete)
    else decide (r.rd = .waiting) && !porterHeld s p (passClass r.pass)

/-- The first piece of a channel bound for P, V or W space whose write half is not presented. -/
def nextWrite (s : State) (a : Nat) : Option Piece :=
  (agentPieces s a).find? fun q => decide (q.wr = .waiting ∧ (q.dst.space < 2 ∨ q.dst.space = 4)) && !q.dead

/-- A packet of more pieces than the piece queue holds, as a short source modulo may make one, gathers outside the queue: with the
queue full its pieces leave their places, so that the rest of it can be generated and it is handed whole (R241, R255; DESIGN CHOICE,
log entry 54). -/
def gather (s : State) (a : Nat) : State :=
  match nextWrite s a with
  | some q =>
    if q.dst.space = 4 ∧ 32 ≤ queueLen s a ∧ (packetOf s q).isNone then
      { s with pieces := s.pieces.map fun r =>
          if r.agent = a ∧ r.ctx = q.ctx ∧ r.off = q.off ∧ r.dst.space = 4 ∧ q.sq ≤ r.sq then { r with queued := false } else r }
    else s
  | none => s

/-- An earlier F write of the channel in the same far channel is not yet presented in full (R245). -/
def farBehind (s : State) (q : Piece) : Bool :=
  (agentPieces s q.agent).any fun r => decide (r.sq < q.sq ∧ r.dst.space = 2 ∧ (r.wr = .waiting ∨ r.left ≠ 0)) && !r.dead &&
    farChannel s (r.dst.addr * 64) == farChannel s (q.dst.addr * 64)

/-- An F write half that may be issued now. -/
def farWriteReady (s : State) (p : Nat) (q : Piece) : Bool :=
  decide (q.dst.space = 2 ∧ q.rd = .complete) && (decide (q.wr = .waiting) || decide (q.left ≠ 0)) && !q.dead &&
  !farBehind s q && !farHeld s (farChannel s (q.dst.addr * 64)) && axiRoom s p (q.dst.addr * 64) true

/-- The write half a channel could present now; in the safe state only the rest of one begun before (R265, R490). -/
def writeReady (s : State) (a : Nat) : Option Piece :=
  let p := agentPorter a
  let col := if s.safe then none else (nextWrite s a).bind fun q =>
    if q.dst.space = 4 then
      (match packetOf s q with
       | some l => if packetReady s p l && (nextRead s a).all (fun r => decide (q.sq ≤ r.sq) || decide (q.src.space = 5)) then some q else none
       | none => none)
    else if q.rd = .complete ∧ columnReady s p .wr q (writeCheck s q) then some q else none
  let far := (agentPieces s a).find? fun q => farWriteReady s p q && (!s.safe || decide (q.left ≠ 0))
  match col, far with
  | some c, some f => some (if c.sq < f.sq then c else f)
  | some c, none => some c
  | none, f => f

/-- The granules of a write as its lane carries them (R92). -/
def writeData (q : Piece) (k : Checked) : List Coded :=
  let i := q.dstP / 64 % 8
  let places := (List.range 8).map fun j => if i ≤ j ∧ j < i + q.cnt then q.data.getD (j - i) 0 else 0
  let cells := turnIn (turnOf k) places
  k.grans.map fun g => fresh (cells.getD g.1 0)

/-- Present a P or V write half; its reorder slot is free (R244, R248). -/
def presentColumnWrite (s : State) (p : Nat) (q : Piece) : State :=
  let k := writeCheck s q
  if k.st ≠ 0 then dropPiece (refusePiece s q q.dst q.dstP k) q.sq else
  let accs := k.grans.map Prod.snd
  let s1 := setPiece s { q with wr := .presented, slot := false, owed := 1, wrAt := readyAt s q.wrAt }
  if slottedHalf s p .wr k then
    { s1 with wrLanes := s1.wrLanes ++ [⟨k.col, .piece q.sq, masterPorter p, accs, writeData q k, s.run + 8, none⟩] }
  else (enqueue s1 k.col .wr p
    ⟨.piece q.sq, accs, writeData q k, passClass q.pass, some q.task, s.run + 3, none⟩).getD s

/-- AWATOP of an ATOP code (R250). -/
def atopCode (v : Nat) : Nat := if v = 1 then 0x10 else if v = 2 then 0x14 else if v = 3 then 0x16 else 0

/-- Issue an F write: one burst, or the next atomic element's (R247, R250). -/
def presentFarWrite (s : State) (p : Nat) (q : Piece) : State :=
  let a := q.dst.addr * 64
  if q.atop = 0 then
    issueBurst (setPiece s { q with wr := .presented, owed := 1, slot := q.slot && decide (1 < beatsOf a q.cnt) })
      (burstOf s p q true a (beatsOf a q.cnt) 7 0 q.data)
  else
    let w := if q.aew then 8 else 4
    let n := q.cnt * 64 / w
    let i := if q.wr = .waiting then 0 else n - q.left
    let el := leNat (((q.data.flatMap rowBytes).drop (i * w)).take w)
    issueBurst (setPiece s { q with
        wr := .presented, owed := q.owed + 1, left := n - i - 1, slot := q.slot && decide (i + 1 < n) })
      (burstOf s p q true (a + i * w) 1 (if q.aew then 3 else 2) (atopCode q.atop) [BitVec.ofNat 512 el])

/-- Hand a packet to its link port: every outbound stripe read is checked, and the header is formed (R79, R174, R255, R428). -/
def handPacket (s : State) (q : Piece) (l : List Piece) : State :=
  let bad := l.find? fun r => r.src.space != 5 && (checkWide s (.linkRead (passPriv r.pass)) false false r.srcP r.cnt).st != 0
  match bad with
  | some r =>
    let k := checkWide s (.linkRead (passPriv r.pass)) false false r.srcP r.cnt
    l.foldl (fun s r => dropPiece s r.sq) (refusePiece s r r.src r.srcP k)
  | none =>
    let m := rg s .winMap q.dst.tag
    let h : Header := ⟨1, fld m 12 8, q.dst.tag, rf s .winCfg q.dst.tag 15 0, q.pass, q.dst.addr % 2 ^ 24,
      (l.map Piece.cnt).sum, 0, 0, 0⟩
    let v := s.link (fld m 7 6)
    let s1 := s.setLink (fld m 7 6) { v with outQ := v.outQ ++ [⟨h, l.map Piece.sq, false, 0, false, s.clk⟩] }
    l.foldl (fun s r => setPiece s { r with
      queued := false, wr := .presented, owed := 1, rdAt := if r.src.space = 5 then 0 else s.clk }) s1

/-- PIECE_WRITE_HALF: porter `p` presents one write half, round-robin over its channels (R243, R245). -/
def doWriteHalf (p : Nat) (t : State) : State :=
  if !porterOn t p || doneNow t (lastWrite p) then t else
  let s := (List.range 16).foldl (fun s k => gather s (chanAgent p k)) t
  match robin 16 (ptr s (ptrWrite p)) fun k => (writeReady s (chanAgent p k)).isSome with
  | none => s
  | some k =>
    match writeReady s (chanAgent p k) with
    | none => s
    | some q =>
      let s1 := setLast (setPtr s (ptrWrite p) (k + 1)) (lastWrite p)
      if q.dst.space = 2 then presentFarWrite s1 p q
      else if q.dst.space = 4 then
        (match packetOf s1 q with
         | some l => handPacket s1 q l
         | none => s)
      else presentColumnWrite s1 p q

/-- Every beat still to send of a write burst has WSTRB all 0 (R176). -/
def Burst.hush (b : Burst) : Burst :=
  { b with strobe := b.strobe.take (b.strobe.length - b.beats) ++ List.replicate b.beats 0 }

/-- W beats go out one a BCLK after their address, those of a porter in reset with WSTRB all 0; a piece's slot is free once its last beat
is sent (R165, R176, R248). -/
def sendBeats (s : State) : State :=
  let step := fun (b : Burst) =>
    if b.write ∧ 0 < b.beats then
      let c := if (s.rst (rstPorter b.porter)).active then b.hush else b
      { c with beats := b.beats - 1 }
    else b
  let bs := s.bursts.map step
  { s with
    bursts := bs
    pieces := s.pieces.map fun q =>
      if q.slot && decide (q.dst.space = 2 ∧ q.wr = .presented ∧ q.left = 0) &&
          !bs.any (fun b => b.write && b.sq == q.sq && decide (1 < b.beats)) then { q with slot := false } else q }

/-! ### Far responses (R167, R249) -/

/-- A failing response: counted, an event, and a mid-stream fault of the task (R167, R269). Parity errors count only while
PP[p].CTRL.PAR_EN is 1. Data of a failed read is written nowhere; a write half presented in part goes on (R265). -/
def farFault (s : State) (b : Burst) (r : AxiResp) : State :=
  let (d, src, hi, lo) := match r with
    | .slverr => (1, 7, 7, 0)
    | .decerr => (2, 7, 15, 8)
    | .poison => (3, 0, 23, 16)
    | _ => (4, 1, 31, 24)
  match s.piece b.sq with
  | some q =>
    let s1 := raise (bump s .ppRspErr b.porter hi lo) fuPorter src (agentLoc q.agent) d (some b.task)
    let s2 := faultPiece s1 q 0x0C d (if b.write then q.dst else q.src)
    if b.write then s2 else setPiece s2 { q with dead := true }
  | none => raise (bump s .ppRspErr b.porter hi lo) fuPorter src 0 d (some b.task)

/-- The response fails the burst. -/
def respBad (s : State) (p : Nat) (r : AxiResp) : Bool :=
  match r with
  | .okay => false
  | .parity => bitOf (rg s .ppCtrl p) 12
  | _ => true

/-- The granules of a piece among the beats of its burst (R247). -/
def farRows (q : Piece) (rows : List Row) : List Row := (rows.drop (q.src.addr % 2)).take q.cnt

/-- AXI_READ_DATA: one beat of 128 bytes; the last completes the read half (R249). -/
def doAxiRead (p id : Nat) (r : AxiResp) (data : List Row) (last : Bool) (s : State) : State :=
  match s.bursts.find? fun b => b.porter == p && b.id == id && !b.write with
  | none => s
  | some b =>
    let s1 := if respBad s p r then farFault s b r else s
    let b1 := { b with data := b.data ++ data, beats := b.beats - 1 }
    if last || b1.beats == 0 then
      let s2 := { s1 with bursts := s1.bursts.filter fun c => decide (c ≠ b) }
      match s2.piece b.sq with
      | some q => dataArrived s2 q (farRows q b1.data)
      | none => s2
    else { s1 with bursts := s1.bursts.map fun c => if c = b then b1 else c }

/-- AXI_WRITE_RESPONSE: a burst is answered; the last answer of a piece ends its write half (R229, R250). -/
def doAxiWrite (p id : Nat) (r : AxiResp) (s : State) : State :=
  match s.bursts.find? fun b => b.porter == p && b.id == id && b.write with
  | none => s
  | some b =>
    let s1 := if respBad s p r then farFault s b r else s
    let s2 := { s1 with bursts := s1.bursts.filter fun c => decide (c ≠ b) }
    match s2.piece b.sq with
    | some q => if q.owed ≤ 1 ∧ q.left = 0 then dropPiece s2 q.sq else setPiece s2 { q with owed := q.owed - 1 }
    | none => s2

/-! ### Descriptors, credits, tickets (R246, R252, R256 to R258) -/

/-- LAST_ARM of a channel. -/
def lastArm (s : State) (i v : Nat) : State := setRf s .porterChStat i 5 4 v

/-- ARM with GO = 1: the staging words become the active descriptor or the shadow, or are refused. -/
def doArm (p k : Nat) (force : Word → Word) (s : State) : State :=
  let i := 16 * p + k
  let a := chanAgent p k
  let d0 := rg s .porterChDesc0 i
  let d1 := force (rg s .porterChDesc1 i)
  let d3 := rg s .porterChDesc3 i
  let l : Launch := ⟨fld d0 13 0, fld d1 9 0, d0, d1, rg s .porterChDesc2 i, d3⟩
  let v := s.agent a
  if 4 ≤ fld d0 18 16 ∨ (bitOf d0 22 ∧ fld d3 21 0 = 0) then lastArm s i 3
  else if v.act.isNone && (liveCtxs s a).isEmpty then lastArm (activate s a l true) i 0
  else if v.queue.isEmpty then lastArm (s.setAgent a { v with queue := [l] }) i 1
  else raise (bump (lastArm s i 2) .porterOvf p 15 0) fuPorter 9 i 0 (some l.task)

/-- A write of PORTER[p].SPLIT (R246). -/
def doSplit (p : Nat) (v : Word) (s : State) : State :=
  if fld v 4 0 + fld v 12 8 + fld v 20 16 = 16 then setRg s .porterSplit p (v &&& RegId.porterSplit.row.rw) else s

/-! ### Far channels (R259, R260, R262) -/

/-- A channel of some porter has an active run or a full shadow (R259). -/
def anyChanBusy (s : State) : Bool :=
  (busyAgents s).any fun a => isChan a && ((s.agent a).act.isSome || !(s.agent a).queue.isEmpty || !(liveCtxs s a).isEmpty)

/-- A write of FCH.SEL. -/
def doFchSel (v : Word) (s : State) : State :=
  if anyChanBusy s then setRf s .fchStat 0 0 0 1
  else setRf (setRg s .fchSel 0 (v &&& RegId.fchSel.row.rw)) .fchStat 0 0 0 0

/-- A far channel's hold once its input has been sampled at edge `t`: it begins, or ends, at the following edge (R260). -/
def holdAfter (h : FarHold) (bit : Bool) (t : Nat) : FarHold :=
  if bit then
    (if h.from_ = 0 ∨ h.to_.any (fun e => decide (e ≤ t)) then ⟨t + 1, false, none⟩ else { h with from_ := min h.from_ (t + 1), to_ := none })
  else if h.from_ = 0 ∨ h.from_ = t + 1 ∨ h.to_.any (fun e => decide (e ≤ t)) then noHold
  else { h with to_ := some (t + 1) }

/-- FAR_CHANNEL_HOLD: phj_fch_hold as sampled at this edge (R260). -/
def doFarHold (mask : BitVec 64) (s : State) : State :=
  let s1 := setRg (setRg s .fchHoldLo 0 (mask.setWidth 32)) .fchHoldHi 0 ((mask >>> 32).setWidth 32)
  (List.range 64).foldl (fun s c =>
    let n := holdAfter (Tab.get (fun _ => noHold) s.farHold c) (mask.getLsbD c) s.clk
    { s with farHold := Tab.set (fun _ => noHold) s.farHold c n }) s1

/-- FAR_HOLD_LIMIT (R262). -/
def doFarLimit (c : Nat) (s : State) : State :=
  let h := Tab.get (fun _ => noHold) s.farHold c
  let lim := rf s .fchHoldLim 0 15 0
  if farHeld s c ∧ !h.told ∧ lim ≠ 0 ∧ lim * 1024 * 12 < s.clk - h.from_ then
    raise { s with farHold := Tab.set (fun _ => noHold) s.farHold c { h with told := true } } fuPorter 13 c
  else s

/-- Count the BCLK in which a channel has a held piece (R261). -/
def countHolds (s : State) : State :=
  ((s.pieces.filter fun q => isChan q.agent && pieceHeld s q).map Piece.agent).eraseDups.foldl
    (fun s a => bump s .porterChHold (a - 32) 31 0) s

end Sys2Proof.Machine
end

