-- ==== Sys2Proof/Machine/Aborts.lean ====
section
/-! DEFINITION. Task aborts: what stops, what pieces meet, records, taint, done (R236, R264 to R272). -/

namespace Sys2Proof.Machine

/-! ### Stopping runs (R236, R264, R265) -/

/-- What a piece of a stopped run meets: discarded before its read half, without its data before its write half, completed
after (R265). A fill piece whose lane issued lands; a packet handed over is sent. -/
def pieceFate (p : Piece) : Option Piece :=
  if p.rd = .waiting ∧ p.wr = .waiting then none
  else if p.wr ≠ .waiting ∨ !isChan p.agent then some p
  else if p.rd = .complete then none
  else some { p with dead := true, slot := false }

/-- The bursts of an atomic piece that a held far channel keeps back are discarded; those issued are still answered (R250, R265). -/
def cutHeld (s : State) (p : Piece) : Option Piece :=
  if p.wr = .presented ∧ p.left ≠ 0 ∧ pieceHeld s p then (if p.owed = 0 then none else some { p with left := 0, slot := false }) else some p

/-- Pieces that `hit` selects meet their fates; queue entries of discarded ones are none, since they were not presented. -/
def fatePieces (s : State) (hit : Piece → Bool) : State :=
  { s with pieces := s.pieces.filterMap fun p => if hit p then (pieceFate p).bind (cutHeld s) else some p }

/-- A context's run ends by an abort; its agent's other run, or its channel's next descriptor, goes on (R235, R258). -/
def stopCtx (s : State) (a k : Nat) : State :=
  let c := s.ctx a k
  let s1 := { s with bellOps := s.bellOps.filter fun o => decide (o.kind ≠ .wait ∨ o.ctx ≠ some (a, k)) }
  if c.live then freeCtx s1 a k else s1.setCtx a k idleCtx

/-- Launches, shadows, fetches and loaded runs that `hit` selects by task are discarded (R264); a wait for the store that was for one of
them is over (R240). -/
def dropLaunches (s : State) (a : Nat) (hit : Nat → Bool) : State :=
  let v := s.agent a
  let hitL := fun (l : Launch) => hit l.task
  let badHit := v.bad && ((if v.todo then v.act else v.queue.head?).any hitL)
  let next := if isChan a && v.todo then v.act else v.queue.head?
  let v1 := { v with
    reqAt := if next.any hitL then none else v.reqAt,
    queue := v.queue.filter fun l => !hitL l,
    fetch := v.fetch.filter fun f => !hitL f.l, bad := v.bad && !badHit }
  let v2 := if v.todo && v.act.any hitL then { v1 with act := none, todo := false } else v1
  s.setAgent a v2

/-- A channel left without a run or a descriptor takes its shadow (R258). -/
def reviveChan (s : State) (a : Nat) : State :=
  let v := s.agent a
  if isChan a && v.act.isNone && (liveCtxs s a).isEmpty then
    match v.queue with
    | l :: rest => activate (s.setAgent a { v with queue := rest }) a l true
    | [] => s
  else startLoaded s a

/-- Every run, launch and shadow of agent `a` that `hit` selects by task stops. -/
def stopAgent (s : State) (a : Nat) (hit : Nat → Bool) : State :=
  let s1 := dropLaunches s a hit
  let s2 := [0, 1].foldl (fun s k => let c := s.ctx a k; if c.loaded && !c.live && hit c.task then stopCtx s a k else s) s1
  let s3 := [0, 1].foldl (fun s k => let c := s.ctx a k; if c.live && hit c.task then stopCtx s a k else s) s2
  reviveChan s3 a

/-- The channels of a task with a run or an armed run, and the CRD_INIT each restores (R266). -/
def taskChans (s : State) (task : Nat) : List (Nat × Nat) :=
  ((busyAgents s).filter fun a => isChan a && (([0, 1].any fun k => (s.ctx a k).live && (s.ctx a k).task == task) ||
    ((s.agent a).todo && (s.agent a).act.any fun l => l.task == task))).map fun a => (a, crdInit (s.agent a))

/-- The pins a task's runs hold (R283). -/
def taskPins (s : State) (task : Nat) : List (Nat × Nat) :=
  s.ctxs.flatMap fun e => if e.2.task = task then e.2.pins else []

/-- Fill the lowest free record with the abort's first fault, or count it lost (R268). -/
def fillRecord (s : State) (b : Abort) : State × Option Nat :=
  match (List.range 8).find? fun i => !bitOf (rg s .tabtRecInfo i) 0 with
  | some i =>
    let s1 := setRg s .tabtRecInfo i (BitVec.ofNat 32 (1 + 4 * b2n b.multi + 256 * b.cause + 65536 * b.task))
    let s2 := setRg s1 .tabtRecAgent i (BitVec.ofNat 32 (b.agent % 512 + 512 * (b.off % 64) + 65536 * b.start))
    let s3 := setRg s2 .tabtRecDetail i (BitVec.ofNat 32 (b.detail % 256))
    let s4 := setRg s3 .tabtRecAddrLo i (BitVec.ofNat 32 b.addr)
    let s5 := setRg s4 .tabtRecAddrHi i (BitVec.ofNat 32 (b.addr / 2 ^ 32 % 65536 + 65536 * b.space))
    (setRg s5 .tabtRecTime i (BitVec.ofNat 32 b.time), some i)
  | none => (bump s .tabtStat 0 31 16, none)

/-- Escape records still to be read for a task that `hit` selects are dropped. -/
def dropJobs (s : State) (hit : Nat → Bool) : State :=
  let f := fun (e : Nat × Sat) => (e.1, { e.2 with jobs := e.2.jobs.filter fun j => !hit j.task })
  { s with sats := s.sats.map f }

/-- The abort of a task takes effect. -/
def fireAbort (s : State) (b : Abort) : State :=
  let t := b.task
  let (s1, r) := fillRecord s b
  let chans := taskChans s1 t
  let pins := taskPins s1 t
  let mark := fun (c : Abort) => if c.task = t then { c with fired := true, recNo := r, pins := pins, chans := chans } else c
  let s2 := { s1 with aborts := s1.aborts.map mark }
  let s3 := dropJobs s2 fun u => u == t
  let s4 := fatePieces s3 fun p => p.task == t
  (busyAgents s4).foldl (fun s a => stopAgent s a fun u => u == t) s4

/-- TASK_ABORT: at edge f + 2 (R264). -/
def doTaskAbort (task : Nat) (s : State) : State :=
  match s.aborts.find? fun b => b.task == task && !b.fired with
  | some b => if b.at_ + 2 ≤ s.clk then fireAbort s b else s
  | none => s

/-! ### Done (R266, R267, R270) -/

/-- A packet of the task waits in a link port, or has been sent and not answered. -/
def packetsOpen (s : State) (sqs : List Nat) : Bool :=
  s.links.any fun e => (e.2.outQ.any fun o => o.sqs.any sqs.contains) || (e.2.sent.any fun o => o.sqs.any sqs.contains)

/-- A master whose reset stopped a run of the task is still in reset (R270). -/
def resetHolds (s : State) (b : Abort) : Bool := b.rsts.any fun m => (s.rst m).active

/-- Every piece of the task has met its fate, every burst and packet has been answered. -/
def abortOver (s : State) (b : Abort) : Bool :=
  b.fired && !(s.pieces.any fun p => p.task == b.task) && !(s.bursts.any fun u => u.task == b.task) &&
  !(s.links.any fun e => e.2.sent.any fun o => o.type == 1 && o.task == b.task) && !resetHolds s b &&
  !(s.sats.any fun e => e.2.fills.any fun f => f.esc.any fun j => j.task == b.task)

/-- Taint every bell whose most recent ring came from a run of the task; answers how many (R267). -/
def taintBells (s : State) (task : Nat) : State × Nat :=
  let l := (s.bells.filter fun e => e.2.rung && e.2.task == some task).map Prod.fst
  (l.foldl (fun s b => setRf s .tabtTaint (b / 32) (b % 32) (b % 32) 1) s, l.length)

/-- ABORT_DONE: credits restored, bells tainted, DONE, the interrupt (R266). -/
def doAbortDone (task : Nat) (s : State) : State :=
  match s.aborts.find? fun b => b.task == task with
  | none => s
  | some b =>
    if !abortOver s b then s else
    let s1 := if s.safe then s else
      b.chans.foldl (fun s c => setCredit s c.1 c.2) s
    let (s2, n) := taintBells s1 task
    let s3 := match b.recNo with
      | some i => setRf (setRf (setRf s2 .tabtRecInfo i 1 1 1) .tabtRecInfo i 2 2 (b2n b.multi)) .tabtRecDetail i 27 16 n
      | none => s2
    pulse { s3 with aborts := s3.aborts.filter fun c => c.task != task } 328

/-- SOFTWARE_ABORT (R271). -/
def doSoftAbort (task : Nat) (s : State) : State :=
  if aborting s task || !((busyAgents s).any fun a => agentHas s a task) then s
  else faultTask s task 511 0 0 0x11 0 0 0

/-- ABORT_RECORD_CLEAR: VALID of a record is freed once DONE is 1 (R274). -/
def doRecordClear (i : Nat) (s : State) : State :=
  if bitOf (rg s .tabtRecInfo i) 1 then setRg s .tabtRecInfo i 0 else s

/-- The runs, shadows and queued launches of an agent as (task, START, instruction), one for each task. -/
def agentTasks (s : State) (a : Nat) : List (Nat × Nat × Nat) :=
  let v := s.agent a
  let ts := ([0, 1].filterMap fun k => let c := s.ctx a k; if c.loaded || c.live then some (c.task, c.start, c.pc) else none) ++
    ((v.queue ++ (if v.todo then v.act.toList else [])).map fun l => (l.task, l.start, 0))
  ts.foldl (fun l t => if l.any fun u => u.1 == t.1 then l else l ++ [t]) []

/-- The reset of master `m` aborts the tasks of the agents it stops with cause 0x13; none of these aborts is done before that reset
completes, one already under way included (R270). -/
def abortAgents (s : State) (m : Nat) (agents : List Nat) (detail : Nat) : State :=
  agents.foldl (fun s a => (agentTasks s a).foldl (fun s t =>
    let s1 := faultTask s t.1 a t.2.1 t.2.2 0x13 detail 0 0
    { s1 with aborts := s1.aborts.map fun b => if b.task = t.1 ∧ !b.rsts.contains m then { b with rsts := b.rsts ++ [m] } else b }) s) s

/-- The channels of porter `p` have the credits restored that aborts under way owe them: its reset is complete (R178, R266). -/
def restoreCredits (s : State) (p : Nat) : State :=
  let mine := fun (c : Nat × Nat) => isChan c.1 && agentPorter c.1 == p
  let due := (s.aborts.flatMap Abort.chans).filter mine
  let s1 := if s.safe then s else due.foldl (fun s c => setCredit s c.1 c.2) s
  { s1 with aborts := s1.aborts.map fun b => { b with chans := b.chans.filter fun c => !mine c } }

/-- The safe state stops every run at S; pieces meet the fates of R265; no record, no taint, no credit (R490). -/
def stopAllRuns (s : State) : State :=
  let s1 := fatePieces s fun _ => true
  let s2 := dropJobs s1 fun _ => true
  (busyAgents s2).foldl (fun s a =>
    let s1 := stopAgent s a fun _ => true
    s1.setAgent a { s1.agent a with act := none, todo := false }) s2

end Sys2Proof.Machine
end

