-- ==== Sys2Proof/Machine/Links.lean ====
section
/-! DEFINITION. Link ports and remote windows: headers, flits, credits, framing, outbound packets, opening, sending,
admitting, closing (R26, R83, R169 to R174, R418 to R441). -/

namespace Sys2Proof.Machine

/-! ### The link port (R169 to R171) -/

/-- The link port receives and sends: READY, not in reset, its domain ON. -/
def linkUp (s : State) (l : Nat) : Bool :=
  decide (s.life = .ready ∧ l < 4) && !inReset s (rstLink l) && decide ((dom s (288 + l)).st = 0)

/-- The link port writes inbound packets: it is up, or in reset with packets that had arrived whole (R177). -/
def linkWrites (s : State) (l : Nat) : Bool := linkUp s l || decide (l < 4) && (s.rst (rstLink l)).active

/-- Inbound credits allowed (R171): header credits 1 to 16, data credits 1 to 64. -/
def inHdr (s : State) (l : Nat) : Nat := let v := rf s .lpCrdInit l 20 16; if v = 0 ∨ 16 < v then 16 else v
def inData (s : State) (l : Nat) : Nat := let v := rf s .lpCrdInit l 6 0; if v = 0 ∨ 64 < v then 64 else v

/-- Flits a header frames (R170, R173). -/
def flitsOf (len : Nat) : Nat := (len + 7) / 8

/-- Flits of inbound packets that the port's buffer holds. -/
def flitsHeld (v : Link) : Nat := (v.inQ.map fun q => q.kept.length + q.left.eraseDups.length).sum

/-- A link credit fault (R171). -/
def creditFault (s : State) : State := raise s fuPorter 11

/-- A header arrives: a header credit is spent; without one it is a credit fault, and it is taken only into buffer space. -/
def takeHeader (s : State) (l : Nat) : State × Bool :=
  let v := s.link l
  if 0 < v.owedHdr then (creditMeets s (linkCredit l 2) l fun s => s.setLink l { v with owedHdr := v.owedHdr - 1 }, true)
  else (creditFault s, decide (v.inQ.length < 16))

/-- Header and data credits return to the link engine in the next BCLK (R171, R172). -/
def backCredits (s : State) (l hdr dat : Nat) : State :=
  let v := s.link l
  s.setLink l { v with backHdr := v.backHdr + hdr, backData := v.backData + dat }

/-- Credits that came due by the last edge return to the link engine at this one: a header credit and two data credits a BCLK at
most, within the allowance (R171, R172). -/
def creditsHome (s : State) (l : Nat) : State :=
  let v := s.link l
  let h := min 1 v.backHdr
  let d := min 2 v.backData
  s.setLink l { v with
    owedHdr := min v.allowHdr (v.owedHdr + h), owedData := min v.allowData (v.owedData + d),
    backHdr := v.backHdr - h, backData := v.backData - d, crdHdr := h, crdData := d }

/-- A well-formed header of a type (R173). -/
def headerOk (h : Header) (t : Nat) : Bool := decide (h.type = t ∧ h.link < 24) && (decide (t = 1) || decide (h.len = 0))

/-- A header or a stray flit is discarded (R173). -/
def frameFault (s : State) (l : Nat) : State := raise (bump s .lpStat l 31 16) fuPorter 19

/-- CREDIT_RETURN: outbound credits count to 31 and 127; what passes them is dropped with one credit fault (R171). -/
def doCreditReturn (l hdr dat : Nat) (s : State) : State :=
  if !linkUp s l then s else
  let v := s.link l
  let s0 := if hdr = 0 then s else creditMeets s (linkCredit l 0) l fun s => s.setLink l { v with outHdr := min 31 (v.outHdr + hdr) }
  let s1 := if dat = 0 then s0 else
    creditMeets s0 (linkCredit l 1) l fun s => s.setLink l { s.link l with outData := min 127 (v.outData + dat) }
  if 31 < v.outHdr + hdr ∨ 127 < v.outData + dat then creditFault s1 else s1

/-! ### Packets to send (R170, R174, R422) -/

/-- A packet goes out: answers ahead of requests whose header has not left (R170). Its header leaves from the next BCLK on (R433,
R434). -/
def pushOut (s : State) (l : Nat) (p : OutPkt) : State :=
  let v := s.link l
  let o := { p with at_ := s.clk }
  let busy := fun (p : OutPkt) => p.hdrSent || p.answer
  s.setLink l { v with outQ :=
    if o.answer then v.outQ.takeWhile busy ++ [o] ++ v.outQ.dropWhile busy else v.outQ ++ [o] }

/-- An answer repeats LINK, WINDOW and SEQ of its request (R422). -/
def answerPkt (h : Header) (type reason epoch : Nat) (digest : Word) : OutPkt :=
  ⟨⟨type, h.link, h.window, epoch, 0, 0, 0, h.seq, reason, digest⟩, [], false, 0, true, 0⟩

/-- The data of a packet whose first pieces have it, in order. -/
def payload (s : State) (sqs : List Nat) : List Row :=
  ((sqs.filterMap s.piece).takeWhile fun p => decide (p.rd = .complete)).flatMap Piece.data

/-- Flits of a packet whose granules are all there. -/
def flitsReady (s : State) (o : OutPkt) : Nat :=
  let n := (payload s o.sqs).length
  if o.hdr.len ≤ n then flitsOf o.hdr.len else n / 8

/-- One flit of a packet, zero beyond the payload (R170). -/
def flitData (s : State) (o : OutPkt) (f : Nat) : List Row :=
  let d := ((payload s o.sqs).drop (8 * f)).take 8
  d ++ List.replicate (8 - d.length) 0

/-- The header may leave now: it came at an earlier edge, a header credit stands, a WRITE's first flit is complete, and in the safe
state answers only leave (R171, R174, R433, R434, R441). -/
def mayStart (s : State) (v : Link) (o : OutPkt) : Bool :=
  decide (0 < v.outHdr) && decide (o.at_ < s.clk) && (o.answer || !s.safe) && (decide (o.hdr.type ≠ 1) || decide (0 < flitsReady s o))

/-- What the end of a packet's last flit leaves: the pieces of a packet already answered are gone. -/
def packetEnd (s : State) (l : Nat) (o : OutPkt) : State :=
  let open_ := (s.link l).sent.any fun t => t.sqs == o.sqs
  if o.sqs.isEmpty || open_ then s else o.sqs.foldl dropPiece s

/-- The header of the first packet leaves: a request takes the next SEQ of its link, an ACK or NACK lets its header credit
return (R172, R422). -/
def sendHeader (s : State) (l : Nat) (o : OutPkt) (rest : List OutPkt) : State :=
  let v := s.link l
  let sq := Tab.get (fun _ => 0) v.seq o.hdr.link
  let h := if o.answer then o.hdr else { o.hdr with seq := sq }
  let w := (o.sqs.head?.bind s.piece)
  let t : SentPkt := ⟨h.type, h.link, h.seq, h.window, (w.map Piece.task).getD 0, (w.map Piece.agent).getD 0, o.sqs, s.clk, false⟩
  let v1 : Link := { v with
    seq := if o.answer then v.seq else Tab.set (fun _ => 0) v.seq o.hdr.link ((sq + 1) % 65536)
    sent := if o.answer then v.sent else v.sent ++ [t]
    backHdr := v.backHdr + b2n (decide (h.type = 2 ∨ h.type = 3))
    outQ := if h.type = 1 then { o with hdr := h, hdrSent := true } :: rest else rest
    tx := ⟨s.clk, some h, if v.tx.at_ = s.clk then v.tx.flits else []⟩ }
  let s1 := creditMeets (s.setLink l v1) (linkCredit l 0) l fun s => s.setLink l { s.link l with outHdr := v.outHdr - 1 }
  let s2 := if h.type = 3 then bump s1 .lpNacks l 15 0 else s1
  if h.type = 4 then s2.setWin h.window { s2.win h.window with reqAt := s.clk } else s2

/-- One more flit of the first packet leaves, if it is complete and a data credit stands. -/
def sendFlit (s : State) (l : Nat) : State :=
  let v := s.link l
  match v.outQ with
  | o :: rest =>
    if o.hdrSent && decide (o.flits < flitsReady s o ∧ 0 < v.outData) then
      let tx : LinkOut := if v.tx.at_ = s.clk then v.tx else ⟨s.clk, none, []⟩
      let o1 := { o with flits := o.flits + 1 }
      let fin := decide (flitsOf o.hdr.len ≤ o1.flits)
      let s0 := s.setLink l { v with
        outQ := if fin then rest else o1 :: rest, tx := { tx with flits := tx.flits ++ [flitData s o o.flits] } }
      let s1 := creditMeets s0 (linkCredit l 1) l fun s => s.setLink l { s.link l with outData := v.outData - 1 }
      if fin then packetEnd s1 l o1 else s1
    else s
  | [] => s

/-- The first packet's header leaves if it may. -/
def startPacket (s : State) (l : Nat) : State :=
  let v := s.link l
  match v.outQ with
  | o :: rest => if !o.hdrSent && mayStart s v o then sendHeader s l o rest else s
  | [] => s

/-- Flits that leave at this edge so far. -/
def flitsNow (s : State) (l : Nat) : Nat := let t := (s.link l).tx; if t.at_ = s.clk then t.flits.length else 0
def headerNow (s : State) (l : Nat) : Bool := let t := (s.link l).tx; decide (t.at_ = s.clk) && t.hdr.isSome

/-- OUTBOUND_PACKET_SEND: one BCLK of an outbound bus: one header and up to two flits (R170, R174). -/
def doPacketSend (l : Nat) (s : State) : State :=
  if !linkUp s l || headerNow s l || decide (flitsNow s l ≠ 0) then s else
  let flit := fun (s : State) => if flitsNow s l < 2 then sendFlit s l else s
  let s1 := flit (flit s)
  let s2 := startPacket s1 l
  flit (flit s2)

/-! ### Outbound stripe reads (R79, R174, R445, R449) -/

/-- A porter link or inbound entry to the same row waits in a queue of the link port (R244). -/
def linkRowWaits (s : State) (l c : Nat) (accs : List Acc) : Bool :=
  ((s.queue (queueKey c .rd (16 + l))).entries.any fun e => sameRow e.accs accs) ||
  ((s.queue (queueKey c .wr (16 + l))).entries.any fun e => sameRow e.accs accs)

/-- Present the outbound stripe read of a piece; none where its queue has no room. -/
def presentOutPiece (s : State) (l : Nat) (q : Piece) : Option State :=
  let k := checkWide s (.linkRead (passPriv q.pass)) false false q.srcP q.cnt
  if k.st ≠ 0 then some (readLost (refusePiece s q q.src q.srcP k) q) else
  let accs := k.grans.map Prod.snd
  let taken := s.rdLanes.any fun r => decide (r.col = k.col ∧ r.bank = s.run + 7)
  let s1 := setPiece s { q with rd := .presented, elem := turnOf k }
  if ownerIn s k.col .rd 3 == linkOwner l && !taken && !linkRowWaits s l k.col accs then
    some { s1 with rdLanes := s1.rdLanes ++ [newLane k.col (.piece q.sq) (masterLink l) accs (s.run + 7) (s.run + 16)] }
  else enqueue s1 k.col .rd (16 + l)
    ⟨.piece q.sq, accs, [], passClass q.pass, some q.task, s.run + 3, some (agentPorter q.agent)⟩

/-- The pieces of packets to send whose reads wait, in packet order. -/
def outWaiting (s : State) (l : Nat) : List Piece :=
  (((s.link l).outQ.flatMap OutPkt.sqs).filterMap s.piece).filter fun q => decide (q.rd = .waiting)

/-- Present one outbound stripe read: the first in packet order that no full queue holds back (R125, R174). -/
def presentOutbound (s : State) (l : Nat) : State := ((outWaiting s l).findSome? (presentOutPiece s l)).getD s

/-- Stripes a link port may present at this running edge in each direction: five in four BCLK, the 640 B a BCLK of its port (R32;
the spread over the four is the model's, DESIGN CHOICE, log entry 53). -/
def linkStripes (s : State) : Nat := if s.run % 4 = 0 then 2 else 1

/-! ### Inbound packets (R172, R173, R432 to R434) -/

/-- COUNT of WIN.CTRL. -/
def winCount (s : State) : Nat := min 4096 (rf s .winCtrl 0 12 0)

/-- State codes of an entry. -/
def wsClosed : Nat := 0
def wsOpening : Nat := 1
def wsOpen : Nat := 2
def wsClosing : Nat := 3

/-- Fields of an entry. -/
def winState (s : State) (w : Nat) : Nat := rf s .winStat w 1 0
def winSending (s : State) (w : Nat) : Bool := bitOf (rg s .winCfg w) 26
def winEpoch (s : State) (w : Nat) : Nat := rf s .winCfg w 15 0
def winPort (s : State) (w : Nat) : Nat := rf s .winMap w 7 6
def winLink (s : State) (w : Nat) : Nat := rf s .winMap w 12 8
def peerPort (s : State) (w : Nat) : Nat := rf s .winStat w 17 16
def peerLink (s : State) (w : Nat) : Nat := rf s .winStat w 22 18

/-- The P-space address of a receiving entry's window offset in bytes (R419). Where writes before the seal let an aperture run past
2^30 the sum is decoded as it stands, without a wrap (DESIGN CHOICE, log entry 52). -/
def winAddr (s : State) (w off : Nat) : Nat :=
  rf s .regionPbase (rf s .winMap w 5 0) 16 0 * 8192 + rf s .winMap w 30 13 * 4096 + off

/-- Cut `n` granules from a P-space granule address at 512-byte boundaries (R83): (first granule, count). -/
def cutStripes : Nat → Nat → Nat → List (Nat × Nat)
  | 0, _, _ => []
  | f + 1, g, n => if n = 0 then [] else let c := min n (8 - g % 8); (g, c) :: cutStripes f (g + c) (n - c)

/-- The first stripe of a packet that fails R87 as a link write. -/
def badStripe (s : State) (addr len : Nat) : Option (Nat × Checked) :=
  (cutStripes len (addr / 64) len).findSome? fun e =>
    let k := checkWide s .linkWrite true false (e.1 * 64) e.2
    if k.st = 0 then none else some (e.1 * 64, k)

/-- The first reason of R432 that applies at the check edge, and whether it raises a remote refusal. -/
def refusal (s : State) (h : Header) : Option (Nat × Bool) :=
  if s.safe then some (7, false)
  else if h.len = 0 ∨ 64 < h.len ∨ 64 < h.offset % 64 + h.len then some (6, true)
  else if winCount s ≤ h.window ∨ winSending s h.window then some (1, true)
  else if winState s h.window ≠ wsOpen then some (2, false)
  else if h.epoch ≠ winEpoch s h.window then some (3, false)
  else if rf s .winSize h.window 17 0 * 64 < h.offset + h.len then some (4, true)
  else if (badStripe s (winAddr s h.window (h.offset * 64)) h.len).isSome then some (5, true)
  else none

/-- Replace an inbound packet. -/
def setIn (s : State) (l : Nat) (q : InPkt) : State :=
  let v := s.link l
  s.setLink l { v with inQ := v.inQ.map fun p => if p.id = q.id then q else p }

/-- The stripes of flit `f` of an admitted packet (R433). -/
def flitStripes (q : InPkt) (f : Nat) (rows : List Row) : List InStripe :=
  let g0 := q.addr / 64 + 8 * f
  (cutStripes 8 g0 (min 8 (q.hdr.len - 8 * f))).map fun e => ⟨f, e.1 * 64, (rows.drop (e.1 - g0)).take e.2⟩

/-- Split flit `f` of an admitted packet into stripes to write; a flit beyond the payload has none. -/
def splitFlit (q : InPkt) (f : Nat) (rows : List Row) : InPkt :=
  let l := flitStripes q f rows
  { q with stripes := q.stripes ++ l, left := q.left ++ l.map InStripe.flit }

/-- Refuse an inbound WRITE: counts, events, the NACK, the flits kept so far discarded (R432, R434). -/
def refuseWrite (s : State) (l : Nat) (q : InPkt) (why : Nat) (event : Bool) : State :=
  let w := q.hdr.window
  let s1 := if event then raise s fuPorter 18 w why else s
  let s2 := if why = 5 then
      (match badStripe s (winAddr s w (q.hdr.offset * 64)) q.hdr.len with
       | some (a, k) => match porterBit k.st with
         | some b => raise s1 fuPorter b (addrLoc a) k.st
         | none => if k.st = 5 then mappedOut s1 k a none else s1
       | none => s1)
    else s1
  let s3 := if why = 2 then bump s2 .winDrops 0 15 0 else if why = 3 then bump s2 .winDrops 0 31 16 else s2
  let s4 := backCredits (setIn s3 l { q with checked := true, refused := some why, kept := [] }) l 0 q.kept.length
  pushOut s4 l (answerPkt q.hdr 3 why 0 0)

/-- The check edge of an inbound WRITE (R172, R432). -/
def checkInbound (s : State) (l : Nat) (q : InPkt) : State :=
  match refusal s q.hdr with
  | some (why, event) => refuseWrite s l q why event
  | none =>
    let q1 := { q with checked := true, addr := winAddr s q.hdr.window (q.hdr.offset * 64), kept := [] }
    setIn s l (((List.range q.kept.length).zip q.kept).foldl (fun q e => splitFlit q e.1 e.2) q1)

/-- The checks due at this edge. -/
def inboundChecks (s : State) (l : Nat) : State :=
  ((s.link l).inQ.filter fun q => !q.checked && decide (q.at_ ≤ s.clk)).foldl (fun s q => checkInbound s l q) s

/-- INBOUND_WRITE: a WRITE header is taken; its checks complete 3 BCLK later (R172, R173, R432). -/
def doInboundWrite (l : Nat) (h : Header) (s : State) : State :=
  if !linkUp s l || !headerOk h 1 then s else
  let (s1, ok) := takeHeader s l
  if !ok then s1 else
  let v := s1.link l
  s1.setLink l { v with
    nextIn := v.nextIn + 1
    inQ := v.inQ ++ [⟨v.nextIn, h, s.clk + 3, false, flitsOf h.len, 0, none, false, [], 0, [], [], false⟩] }

/-- MALFORMED_HEADER: discarded with the flits it frames (R173). -/
def doMalformed (l : Nat) (h : Header) (s : State) : State :=
  let bad := decide (h.type = 0 ∨ 7 < h.type ∨ 23 < h.link ∨ (h.type ≠ 1 ∧ h.len ≠ 0))
  if !linkUp s l || !bad then s else
  let (s1, ok) := takeHeader s l
  if !ok then s1 else
  let s2 := backCredits (frameFault s1 l) l 1 0
  let v := s2.link l
  if h.len = 0 then s2 else
  s2.setLink l { v with
    nextIn := v.nextIn + 1
    inQ := v.inQ ++ [⟨v.nextIn, h, s.clk, true, flitsOf h.len, 0, none, true, [], 0, [], [], false⟩] }

/-- The packet to which the next flit is owed. -/
def owedPkt (v : Link) : Option InPkt := v.inQ.find? fun q => decide (0 < q.owed)

/-- A flit arrives: a data credit is spent; without one it is a credit fault, and it is taken only into buffer space. -/
def takeFlit (s : State) (l : Nat) : State × Bool :=
  let v := s.link l
  if 0 < v.owedData then (creditMeets s (linkCredit l 3) l fun s => s.setLink l { v with owedData := v.owedData - 1 }, true)
  else (creditFault s, decide (flitsHeld v < 64))

/-- INBOUND_FLIT: a flit owed to a header is kept until the checks, split into stripes, or discarded (R172, R173, R433,
R434). One dropped for want of a credit and of buffer space is still owed: the next flit takes its place (DESIGN CHOICE, log
entry 53). -/
def doInboundFlit (l : Nat) (data : List Row) (s : State) : State :=
  if !linkUp s l || (owedPkt (s.link l)).isNone then s else
  let (s1, ok) := takeFlit s l
  match ok, owedPkt (s1.link l) with
  | true, some q =>
    let q1 := { q with owed := q.owed - 1, taken := q.taken + 1 }
    if q.drop || q.refused.isSome || q.lost then backCredits (setIn s1 l q1) l 0 1
    else if q.checked then setIn s1 l (splitFlit q1 q.taken data)
    else setIn s1 l { q1 with kept := q1.kept ++ [data] }
  | _, _ => s1

/-- STRAY_FLIT: a flit owed to no header is discarded (R173). -/
def doStrayFlit (l : Nat) (s : State) : State :=
  if !linkUp s l || (owedPkt (s.link l)).isSome then s else
  let (s1, ok) := takeFlit s l
  let s2 := frameFault s1 l
  if ok then backCredits s2 l 0 1 else s2

/-- An admitted packet can no longer be written whole: its stripes not yet presented write nothing, its further flits are
discarded, and it is answered with NACK 0x05 once its other stripes have committed (R52, R481; log entry 53). -/
def losePacket (s : State) (l id : Nat) : State :=
  match (s.link l).inQ.find? fun q => q.id == id with
  | some q => q.stripes.foldl (fun s t => inboundDone s l (id * 16 + t.flit)) (setIn s l { q with stripes := [], lost := true })
  | none => s

/-- Present stripe `t` of an inbound packet: in a slotted lane of the link port, or its queue; not regulated (R172, R446); none
where its queue has no room. A stripe whose column no longer serves it loses its packet. -/
def presentStripe (s : State) (l : Nat) (q : InPkt) (t : InStripe) : Option State :=
  let k := checkWide s .linkWrite true false t.addr t.rows.length
  if k.st ≠ 0 then some (losePacket (if k.st = 5 then mappedOut s k t.addr none else s) l q.id) else
  let s1 := setIn s l { q with stripes := q.stripes.filter fun u => decide (u ≠ t) }
  let accs := k.grans.map Prod.snd
  let u : Use := .inbound l (q.id * 16 + t.flit)
  let taken := s.wrLanes.any fun w => decide (w.col = k.col ∧ w.bank = s.run + 8)
  if ownerIn s k.col .wr 4 == linkOwner l && !taken && !linkRowWaits s l k.col accs then
    some { s1 with wrLanes := s1.wrLanes ++ [⟨k.col, u, masterLink l, accs, t.rows.map fresh, s.run + 8, none⟩] }
  else enqueue s1 k.col .wr (16 + l) ⟨u, accs, t.rows.map fresh, 8, none, s.run + 3, none⟩

/-- Present one inbound stripe: the first in the order of arrival that no full queue holds back (R125). -/
def presentInbound (s : State) (l : Nat) : State :=
  ((s.link l).inQ.findSome? fun q => q.stripes.findSome? (presentStripe s l q)).getD s

/-- The packet is over: admitted and written whole, or refused or discarded with its flits taken. -/
def inOver (q : InPkt) : Bool :=
  q.checked && decide (q.owed = 0) && q.stripes.isEmpty && q.left.isEmpty && q.kept.isEmpty

/-- Finished inbound packets leave; an admitted one is answered with ACK, or with NACK 0x05 where a stripe of it was lost (R52,
R433). -/
def inboundEnds (s : State) (l : Nat) : State :=
  let ended := (s.link l).inQ.filter inOver
  let s1 := s.setLink l { s.link l with inQ := (s.link l).inQ.filter fun q => !inOver q }
  ended.foldl (fun s q => if q.drop || q.refused.isSome then s
    else pushOut s l (if q.lost then answerPkt q.hdr 3 5 0 0 else answerPkt q.hdr 2 0 0 0)) s1

/-! ### Answers (R423, R429 to R431) -/

/-- The request that an answer matches by link and SEQ (R423). -/
def matched (v : Link) (t : Nat) (h : Header) : Option SentPkt :=
  v.sent.find? fun p => decide (p.type = t ∧ p.link = h.link ∧ p.seq = h.seq)

/-- A request has been answered. -/
def unsend (s : State) (l : Nat) (p : SentPkt) : State :=
  s.setLink l { s.link l with sent := (s.link l).sent.filter fun q => decide (q ≠ p) }

/-- A stray answer (R423). -/
def strayAnswer (s : State) (w : Nat) : State := raise (bump s .winStray 0 15 0) fuPorter 15 w

/-- The pieces of an answered packet are complete, at once or when its flits have left (R229, R430). -/
def endPieces (s : State) (l : Nat) (sqs : List Nat) : State :=
  if (s.link l).outQ.any fun o => o.sqs == sqs then s else sqs.foldl dropPiece s

/-- A packet is answered with NACK, from its receiver or locally: a mid-stream fault of the task (R430, R436, R440). -/
def nackPacket (s : State) (l : Nat) (sqs : List Nat) (why : Nat) : State :=
  let s1 := match sqs.head?.bind s.piece with
    | some q => faultPiece s q 0x0D why q.dst
    | none => s
  endPieces s1 l sqs

/-- A header of a type without flits is received; its header credit returns in the next BCLK (R423). -/
def receive (l : Nat) (h : Header) (t : Nat) (s : State) (f : State → State) : State :=
  if !linkUp s l || !headerOk h t then s else
  let (s1, ok) := takeHeader s l
  if ok then f (backCredits s1 l 1 0) else s1

/-- ACK. -/
def doAck (l : Nat) (h : Header) (s : State) : State :=
  receive l h 2 s fun s => match matched (s.link l) 1 h with
    | some p => endPieces (unsend s l p) l p.sqs
    | none => strayAnswer s h.window

/-- NACK. -/
def doNack (l : Nat) (h : Header) (s : State) : State :=
  receive l h 3 s fun s =>
    let s1 := bump s .lpNacks l 31 16
    match matched (s1.link l) 1 h with
    | some p => nackPacket (unsend s1 l p) l p.sqs h.reason
    | none => strayAnswer s1 h.window

/-- 1024 TCLK in BCLK edges. -/
def kTclk : Nat := 1024 * 12

/-- ACK_TIMEOUT: once for each packet (R431). -/
def doAckTimeout (l sq link : Nat) (s : State) : State :=
  let lim := rf s .winCtrl 0 31 24
  let due := fun (p : SentPkt) => decide (p.type = 1 ∧ p.link = link ∧ p.seq = sq ∧ lim ≠ 0 ∧ p.at_ + lim * kTclk ≤ s.clk) && !p.timedOut
  match (s.link l).sent.find? due with
  | some p =>
    let s1 := s.setLink l { s.link l with sent := (s.link l).sent.map fun q => if q = p then { q with timedOut := true } else q }
    raise (bump s1 .winStray 0 31 16) fuPorter 17 p.window
  | none => s

/-! ### Window entries (R420 to R427) -/

/-- Packets of a sending entry sent and not answered, and those handed over and not yet sent. -/
def sentOpen (s : State) (w : Nat) : Nat :=
  ((List.range 4).map fun l => ((s.link l).sent.filter fun p => decide (p.type = 1 ∧ p.window = w)).length).sum
def sentWaiting (s : State) (w : Nat) : Nat :=
  ((List.range 4).map fun l => ((s.link l).outQ.filter fun o =>
    decide (o.hdr.type = 1 ∧ o.hdr.window = w) && !o.hdrSent).length).sum

/-- Packets of a receiving entry admitted and not yet answered. -/
def admittedOpen (s : State) (w : Nat) : Nat :=
  ((List.range 4).map fun l =>
    ((s.link l).inQ.filter fun q => q.checked && !q.drop && q.refused.isNone && q.hdr.window == w).length +
    ((s.link l).outQ.filter fun o => decide ((o.hdr.type = 2 ∨ o.hdr.type = 3 ∧ o.hdr.reason = 5) ∧ o.hdr.window = w)).length).sum

/-- STAT.OUTST (R429, R442). -/
def winOutst (s : State) (w : Nat) : Nat := min 63 (if winSending s w then sentOpen s w else admittedOpen s w)

/-- Set the state of an entry. -/
def setWinState (s : State) (w st : Nat) : State := setRf s .winStat w 1 0 st

/-- An entry becomes CLOSED: its own control requests are given up, so that answers to them are stray; window event (R438). -/
def closeWin (s : State) (w : Nat) (why : Option Nat) : State :=
  let was := winState s w
  let mine := fun (t w' : Nat) => decide ((t = 4 ∨ t = 6) ∧ w' = w)
  let s1 := (List.range 4).foldl (fun s l =>
    let v := s.link l
    s.setLink l { v with
      sent := v.sent.filter fun p => !mine p.type p.window
      outQ := v.outQ.filter fun o => o.hdrSent || !mine o.hdr.type o.hdr.window }) s
  let s2 := (setWinState s1 w wsClosed).setWin w idleWin
  let s3 := match why with
    | some r => setRf s2 .winStat w 15 8 r
    | none => s2
  if was = wsClosed then s3 else pulse s3 331

/-- A rejected open (R427). -/
def openReject (s : State) (w why side : Nat) (h : Header) : State :=
  let s1 := bump (raise s fuPorter 16 w why) .winOpens 0 31 16
  if bitOf (rg s1 .winRejLast) 31 then s1 else
  let s2 := setRg s1 .winRejLast 0 (BitVec.ofNat 32 (w + 4096 * why + 2 ^ 20 * side + 2 ^ 31))
  setRg (setRg s2 .winRejDigest 0 h.digest) .winRejEpoch 0 (BitVec.ofNat 32 (h.epoch + 65536 * winEpoch s w))

/-- A successful open (R427). -/
def openDone (s : State) (w : Nat) : State := pulse (bump (setWinState s w wsOpen) .winOpens 0 15 0) 331

/-- The answer to an OPEN_REQ (R425). -/
def openReason (s : State) (h : Header) : Nat :=
  let w := h.window
  if s.safe then 7
  else if winCount s ≤ w ∨ winSending s w then 1
  else if winState s w = wsOpen then 0xA
  else if winState s w ≠ wsOpening then 9
  else if h.digest ≠ rg s .winDigest then 8
  else if h.epoch ≠ winEpoch s w then 3
  else 0

/-- OPEN_REQ (R425, R427). -/
def doOpenReq (l : Nat) (h : Header) (s : State) : State :=
  receive l h 4 s fun s =>
    let w := h.window
    let why := openReason s h
    let s1 := if why = 0 then setRf (setRf (openDone s w) .winStat w 17 16 l) .winStat w 22 18 h.link
      else if why = 7 ∨ why = 9 then s
      else openReject s w why 0 h
    pushOut s1 l (answerPkt h 5 why (winEpoch s w) (rg s .winDigest))

/-- OPEN_RSP (R426). -/
def doOpenRsp (l : Nat) (h : Header) (s : State) : State :=
  receive l h 5 s fun s => match matched (s.link l) 4 h with
    | some p =>
      let s1 := unsend s l p
      let w := p.window
      if !winSending s1 w || winState s1 w ≠ wsOpening then s1
      else if h.reason = 0 then openDone s1 w
      else if h.reason = 9 then s1.setWin w { s1.win w with notReady := true }
      else closeWin (openReject s1 w h.reason 1 h) w (some h.reason)
    | none => strayAnswer s h.window

/-- A control request of a sending or receiving entry goes out on a link port and link. -/
def sendRequest (s : State) (w type l link : Nat) : State :=
  let h : Header := ⟨type, link, w, winEpoch s w, (s.win w).pass, 0, 0, 0, 0, if type = 4 then rg s .winDigest else 0⟩
  pushOut s l ⟨h, [], false, 0, false, 0⟩

/-- WIN.CMD_RESULT. -/
def winResult (s : State) (w code : Nat) : State :=
  setRg s .winCmdResult 0 (BitVec.ofNat 32 (code + 256 * w))

/-- The passport of a commanding processor's task, the task and class that CM.UV gives it; a processor without one takes the
entry's OWNER (R424, R530). -/
def commandPass (s : State) (w : Who) (n : Nat) : Nat :=
  let u := rg s .cmUvTask w.proc
  if !w.steward && decide (w.proc < 18) && bitOf u 31 then fld u 12 10 * 8192 + fld u 9 0 else rf s .winCfg n 25 16

/-- The entry's own settings refuse an OPEN (R424). -/
def openConfigBad (s : State) (n : Nat) : Bool :=
  decide (rf s .winSize n 17 0 = 0) ||
  (if winSending s n then decide (23 < winLink s n) else
    let r := region s (rf s .winMap n 5 0)
    !(r.valid && decide (r.kind = 4) && !r.bad s))

/-- WIN.CMD with OP = OPEN (R424). -/
def doOpen (w : Who) (n : Nat) (s : State) : State :=
  if winCount s ≤ n then winResult s n 2
  else if winState s n ≠ wsClosed then winResult s n 1
  else if openConfigBad s n then winResult s n 4
  else
    let s1 := (setWinState (winResult s n 0) n wsOpening).setWin n ⟨s.clk, s.clk, false, commandPass s w n, [], false, false⟩
    if winSending s n then sendRequest s1 n 4 (winPort s n) (winLink s n) else s1

/-- OPEN_REQ_REPEAT: 1024 TCLK after the previous one (R426). -/
def doOpenRepeat (n : Nat) (s : State) : State :=
  let x := s.win n
  let asked := (List.range 4).any fun l =>
    ((s.link l).sent.any fun p => decide (p.type = 4 ∧ p.window = n)) || ((s.link l).outQ.any fun o => decide (o.hdr.type = 4 ∧ o.hdr.window = n))
  if winSending s n && decide (winState s n = wsOpening ∧ x.reqAt + kTclk ≤ s.clk) && x.notReady && !asked && !s.safe then
    sendRequest (s.setWin n { x with reqAt := s.clk }) n 4 (winPort s n) (winLink s n)
  else s

/-- OPEN_LIMIT (R426). -/
def doOpenLimit (n : Nat) (s : State) : State :=
  let lim := rf s .winCtrl 0 23 16
  let x := s.win n
  if winSending s n && decide (winState s n = wsOpening ∧ lim ≠ 0 ∧ x.openAt + lim * kTclk ≤ s.clk) then
    closeWin s n (some (if x.notReady then 9 else 0xD))
  else s

/-! ### Closing (R435 to R440) -/

/-- CLOSE_RSP to every CLOSE_REQ of the peer that waits for one (R437). -/
def answerPeers (s : State) (w : Nat) : State :=
  (s.win w).peers.foldl (fun s p => pushOut s p.1 (answerPkt ⟨6, p.2.1, w, 0, 0, 0, 0, p.2.2, 0, 0⟩ 7 0 (winEpoch s w) 0)) s

/-- A CLOSING entry makes the progress it can: its answers and CLOSED, once OUTST is 0 or, for a sending entry, at the answer to its
own CLOSE_REQ; that request itself, once every packet handed over has been sent and answered (R435, R437, R438). -/
def winSettle (s : State) (w : Nat) : State :=
  let x := s.win w
  if winState s w ≠ wsClosing then s else
  let sending := winSending s w
  let quiet := if sending then sentOpen s w == 0 else admittedOpen s w == 0
  if (!x.peers.isEmpty && quiet) || (x.rspGot && (sending || quiet)) then closeWin (answerPeers s w) w none
  else if sending && !x.reqSent && x.peers.isEmpty && quiet && sentWaiting s w == 0 then
    sendRequest (s.setWin w { x with reqSent := true }) w 6 (winPort s w) (winLink s w)
  else s

/-- A piece of window `w` that was generated at this edge, before the control matrix accepted the command that closes the entry, does
not pass: it faults as one generated after it (R428, R435). -/
def cutFresh (s : State) (w : Nat) : State :=
  (s.pieces.filter fun q => decide (q.dst.space = 4 ∧ q.dst.tag = w ∧ q.gen = s.clk ∧ q.wr = .waiting) && isChan q.agent).foldl
    (fun s q => dropPiece (faultPiece (raise s fuPorter 14 w 0 (some q.task)) q 8 0 q.dst) q.sq) s

/-- WIN.CMD with OP = CLOSE (R435). -/
def doClose (n : Nat) (s : State) : State :=
  if winCount s ≤ n then winResult s n 2
  else if winState s n ≠ wsOpen then winResult s n 1
  else
    let s1 := setWinState (winResult s n 0) n wsClosing
    if winSending s n then winSettle (cutFresh (s1.setWin n { s1.win n with reqSent := false, rspGot := false }) n) n
    else sendRequest (s1.setWin n { s1.win n with reqSent := true, rspGot := false }) n 6 (peerPort s n) (peerLink s n)

/-- Every unanswered packet of a sending entry is treated as NACKed (R436, R440). -/
def nackSent (s : State) (w why : Nat) : State :=
  (List.range 4).foldl (fun s l =>
    ((s.link l).sent.filter fun p => decide (p.type = 1 ∧ p.window = w)).foldl
      (fun s p => nackPacket (unsend s l p) l p.sqs why) s) s

/-- WIN.CMD with OP = FORCE_CLOSE (R436). -/
def doForceClose (n : Nat) (s : State) : State :=
  if winCount s ≤ n then winResult s n 2
  else
    let s1 := winResult s n 0
    closeWin (if winSending s n then nackSent (cutFresh s1 n) n 0xC else s1) n (some 0xC)

/-- WIN.CMD with the reserved operation (R443). -/
def doWinReserved (n : Nat) (s : State) : State := winResult s n 3

/-- CLOSE_REQ (R437). -/
def doCloseReq (l : Nat) (h : Header) (s : State) : State :=
  receive l h 6 s fun s =>
    let w := h.window
    if winState s w = wsOpen ∨ winState s w = wsClosing then
      let x := s.win w
      let fresh := decide (winState s w = wsOpen)
      winSettle ((setWinState (if winSending s w then cutFresh s w else s) w wsClosing).setWin w { x with
        peers := x.peers ++ [(l, h.link, h.seq)], reqSent := x.reqSent && !fresh, rspGot := x.rspGot && !fresh }) w
    else pushOut s l (answerPkt h 7 0 (winEpoch s w) 0)

/-- CLOSE_RSP (R438). -/
def doCloseRsp (l : Nat) (h : Header) (s : State) : State :=
  receive l h 7 s fun s => match matched (s.link l) 6 h with
    | some p =>
      let s1 := unsend s l p
      if winState s1 p.window = wsClosing then
        winSettle (s1.setWin p.window { s1.win p.window with rspGot := true }) p.window
      else s1
    | none => strayAnswer s h.window

/-- A write of WIN[n].CFG, MAP or SIZE, and whether it is answered SLVERR (R420). -/
def winReg : WinField → RegId
  | .cfg => .winCfg
  | .map => .winMap
  | .size => .winSize
def winWriteOk (s : State) (n : Nat) : Bool := decide (winState s n = wsClosed)
def doWinWrite (n : Nat) (f : WinField) (v : Word) (s : State) : State :=
  if winWriteOk s n then setRg s (winReg f) n (v &&& (winReg f).row.rw) else s

/-- The entries with anything under way: those whose STAT is stored. -/
def busyWins (s : State) : List Nat :=
  (s.regs.filter fun e => e.1 / 1048576 == RegId.winStat.num && decide (e.2.toNat % 4 ≠ 0)).map fun e => e.1 % 1048576

/-- A reset of link port `l` closes the entries on it (R440). -/
def linkResetWins (s : State) (l : Nat) : State :=
  let hit := (busyWins s).filter fun w => if winSending s w then winPort s w == l else peerPort s w == l
  hit.foldl (fun s w => closeWin s w (some 0xB)) s

end Sys2Proof.Machine
end

