-- ==== Sys2Proof/Machine/Regulation.lean ====
section
/-! DEFINITION. Bandwidth regulation: pressure, levels, reservations, capacity (R449 to R460). -/

namespace Sys2Proof.Machine

/-- The present edge is a TCLK edge (R8: one in twelve BCLK). -/
def tclkEdge (s : State) : Bool := s.clk % 12 = 0

/-- Ready edges of the outstanding transactions of a class (R449). -/
def outstanding (s : State) (c : Nat) : List Nat :=
  (s.pieces.filter fun p => isChan p.agent && passClass p.pass == c).flatMap (fun p =>
    (if p.rdAt = 0 then [] else [p.rdAt]) ++ (if p.wrAt = 0 then [] else [p.wrAt])) ++
  s.scalars.flatMap fun e => (e.2.filter fun x => passClass x.pass == c).filterMap Scalar.ready

/-- The pressure of a class (R450). -/
def pressure (s : State) (c : Nat) : Nat := ((outstanding s c).map (ageOf s)).foldl max 0

/-- The thresholds of REG.LEVEL; one below the one before it acts as equal to that one (R456). -/
def levelThr (s : State) : Nat × Nat × Nat :=
  let w := rg s .regLevel
  let a := fld w 3 0
  let b := max a (fld w 7 4)
  (a, b, max b (fld w 11 8))

/-- The level computed from a pressure (R456). -/
def computedLevel (s : State) (c p : Nat) : Nat :=
  let t := rf s .regClassTarget c 15 0
  let (l2, l4, l8) := levelThr s
  if t = 0 then 0
  else if 16 * p < l2 * t then 0
  else if 16 * p < l4 * t then 1
  else if 16 * p < l8 * t then 2
  else 3

/-- The level in force of a class (R457). -/
def levelOf (s : State) (c : Nat) : Nat := rf s .regMult 0 (2 * c + 1) (2 * c)
def setLevel (s : State) (c v : Nat) : State := setRf s .regMult 0 (2 * c + 1) (2 * c) v

/-- LEVEL_RISE: at a TCLK edge the level in force takes a computed level above it (R457). -/
def doLevelRise (c : Nat) (s : State) : State :=
  let v := computedLevel s c (pressure s c)
  if tclkEdge s && decide (c < 8 ∧ levelOf s c < v) then setLevel s c v else s

/-- TCLK edges before a level drops a step (R461 DECAY). -/
def decayEdges (s : State) : Nat := max 1 (rf s .regCtrl 0 15 8)

/-- The edges for which the computed level has stayed below the level in force. -/
def decayCount (s : State) (c : Nat) : Nat := Tab.get (fun _ => 0) s.decay c
def setDecay (s : State) (c n : Nat) : State := { s with decay := Tab.set (fun _ => 0) s.decay c n }

/-- LEVEL_DECAY: after DECAY consecutive TCLK edges below it the level in force drops one step and the count starts again
(R457). -/
def doLevelDecay (c : Nat) (s : State) : State :=
  if c < 8 ∧ 0 < levelOf s c ∧ decayEdges s ≤ decayCount s c then setDecay (setLevel s c (levelOf s c - 1)) c 0 else s

/-- A TCLK edge: pressures are formed, the edges below are counted, a class without a target has level 0 (R450, R456, R457). -/
def regTick (s : State) : State :=
  (List.range 8).foldl (fun s c =>
    let p := pressure s c
    let s1 := setRf s .regClassLat c 31 16 (min 65535 p)
    let s2 := if rf s1 .regClassTarget c 15 0 = 0 then setLevel s1 c 0 else s1
    setDecay s2 c (if computedLevel s2 c p < levelOf s2 c then decayCount s2 c + 1 else 0)) s

/-- The oversubscribed flags follow the sums and the capacities; each setting sets its sticky bit (R460). -/
def ovsUpdate (s : State) : State :=
  let sums := rg s .regRsvSum
  let cap := rg s .regCap
  let one := fun (s : State) (b : Nat) (above : Bool) =>
    let was := bitOf (rg s .regStat) b
    let s1 := setRf s .regStat 0 b b (b2n above)
    if above && !was then setRf s1 .regEvent 0 b b 1 else s1
  one (one s 0 (decide (fld cap 12 0 < fld sums 15 0))) 1 (decide (fld cap 28 16 < fld sums 31 16))

/-- RSV_WRITE: a reservation, its sums and the flags (R459, R460). -/
def doRsvWrite (c : Nat) (v : Word) (s : State) : State :=
  let s1 := setRg s .regClassRsv c (v &&& RegId.regClassRsv.row.rw)
  let sum := fun (hi lo : Nat) => ((List.range 8).map fun i => rf s1 .regClassRsv i hi lo).sum
  ovsUpdate (setRg s1 .regRsvSum 0 (BitVec.ofNat 32 (sum 11 0 + 65536 * sum 27 16)))

/-- A write of a class's TARGET; with 0 its level is 0 at once (R456). -/
def doTargetWrite (c : Nat) (v : Word) (s : State) : State :=
  let t := v &&& RegId.regClassTarget.row.rw
  let s1 := setRg s .regClassTarget c t
  if t = 0 then setDecay (setLevel s1 c 0) c 0 else s1

/-- Open lanes of a wheel set per turn, over all columns (R459). -/
def openLanes (s : State) (set : Nat) (hi lo : Nat) : Nat :=
  (((List.range 4096).filter fun i => fld (Tab.get (fun _ => 0) s.wheels (set * 4096 + i)) hi lo == 0).length)

/-- REG.CAP is recomputed at a wheel exchange (R459). -/
def capUpdate (s : State) : State :=
  let w := openLanes s s.wheelSet 6 0 + 65536 * openLanes s s.wheelSet 22 16
  ovsUpdate (setRg s .regCap 0 (BitVec.ofNat 32 w))

end Sys2Proof.Machine
end

