-- ==== Sys2Proof/Machine/Strongbox.lean ====
section
/-! DEFINITION. The Strongbox: its port, set and clear windows, locks, the reaper, the secure area and its wipes (R393 to
R416). -/

namespace Sys2Proof.Machine

/-! ### The port (R394, R396 to R399) -/

/-- A word of the lock area. -/
def lockWord (i : Nat) : Nat := 0x1000 + i

/-- Count what the code of word `i` finds; an uncorrectable word is SBOX_UE (R394). -/
def sboxFound (s : State) (i : Nat) (r : CodedWord) : State :=
  if r.ue then
    setRg (raise (bump s .sboxEcc 0 31 16) fuSbox 0 i) .sboxEccLast 0 (BitVec.ofNat 32 (i + 2 ^ 14 + 2 ^ 15))
  else if r.ce then setRg (bump s .sboxEcc 0 15 0) .sboxEccLast 0 (BitVec.ofNat 32 (i + 2 ^ 15))
  else s

/-- The operation is a read-modify-write, which takes the port for two edges (R396). -/
def SboxOp.rmw : SboxOp → Bool
  | .set _ | .clr _ | .acq | .rel | .brk => true
  | _ => false

/-- The origin of an access, as a number of the reap set; the Steward has none. -/
def inReapSet (s : State) (proc : Nat) : Bool := nbit s.reapSet proc

/-- Fields of a lock word (R402). -/
def lockOwner (w : Word) : Nat := fld w 8 0
def lockHeld (w : Word) : Bool := bitOf w 9
def lockAbandoned (w : Word) : Bool := bitOf w 10
def lockGen (w : Word) : Nat := fld w 31 16

/-- A lock word of its fields. -/
def mkLock (owner : Nat) (held abandoned : Bool) (gen : Nat) : Word :=
  BitVec.ofNat 32 (owner % 512 + 512 * b2n held + 1024 * b2n abandoned + 65536 * (gen % 65536))

/-- The owner of a lock is in the reap set. -/
def ownerReaped (s : State) (w : Word) : Bool := decide (288 ≤ lockOwner w) && inReapSet s (lockOwner w - 288)

/-- ACQ by origin `o` of a lock word: the new word, if it is taken, and the result word (R405). -/
def acquire (s : State) (o : Nat) (w : Word) : Option Word × Word :=
  let held := lockHeld w && !ownerReaped s w
  let abandoned := lockAbandoned w || (ownerReaped s w && lockHeld w)
  let gen := if held then lockGen w else (lockGen w + 1) % 65536
  (if held then none else some (mkLock o true false gen),
   mkLock (lockOwner w) held abandoned gen ||| BitVec.ofNat 32 (2048 * b2n (!held)))

/-- A foreign release (R407). -/
def foreignRelease (s : State) (i : Nat) : State :=
  setRf (bump (raise s fuSbox 2 i) .sboxLockErr 0 15 0) .sboxLockErr 0 25 16 i

/-- The key may be written (R414, R416). -/
def keyOpen (s : State) : Bool := let w := rg s .sboxSec; !bitOf w 0 && !bitOf w 2

/-- An accepted access: the state after it, its data and its error (R394, R399 to R407, R413). -/
def sboxDo (s : State) (q : SboxReq) : State × Word × Bool :=
  match q.op with
  | .write v => (storeWord s .sbox q.word v, 0, false)
  | .key v =>
    if !keyOpen s then (s, 0, true) else
    let s1 := storeWord s .sbox q.word v
    let s2 := setRf s1 .sboxSec 0 (8 + q.word) (8 + q.word) 1
    (if rf s2 .sboxSec 0 15 8 = 255 then setRf s2 .sboxSec 0 1 1 1 else s2, 0, false)
  | .deny _ => (bump (raise s fuSbox 1 q.word) .sboxDenied 0 31 0, 0, true)
  | .bad _ => (s, 0, true)
  | op =>
    let r := loadWord s .sbox q.word
    let s1 := sboxFound s q.word r
    if r.ue then (s1, 0, true) else
    match op with
    | .read => (s1, r.data, false)
    | .set v => (storeWord s1 .sbox q.word (r.data ||| v), 0, false)
    | .clr v => (storeWord s1 .sbox q.word (r.data &&& ~~~v), 0, false)
    | .acq =>
      let (w, res) := acquire s1 (288 + q.who.proc) r.data
      (match w with
       | some v => storeWord s1 .sbox q.word v
       | none => s1, res, false)
    | .rel =>
      if lockHeld r.data && lockOwner r.data == 288 + q.who.proc then
        (storeWord s1 .sbox q.word (r.data &&& ~~~(0x200 : Word)), 0, false)
      else (foreignRelease s1 (q.word - 0x1000), 0, true)
    | .brk => (storeWord s1 .sbox q.word ((r.data &&& ~~~(0x200 : Word)) ||| 0x400), 0, false)
    | _ => (s1, 0, false)

/-- The operation is a write on its bus. -/
def SboxOp.writes : SboxOp → Bool
  | .read | .acq => false
  | .deny w | .bad w => w
  | _ => true

/-- The access is not held by the reap set (R410). -/
def sboxFree (s : State) (q : SboxReq) : Bool := q.who.steward || !inReapSet s q.who.proc

/-- Accept one waiting access at this edge (R396 to R399, R529). A requester presents its next access at the following MCLK edge. -/
def sboxAcceptOne (s : State) (q : SboxReq) : State :=
  let (s1, d, e) := sboxDo { s with sboxWait := s.sboxWait.erase q } q
  { s1 with sboxAns := s1.sboxAns ++ [⟨q.who, d, e, s.clk + 16, q.op.writes⟩],
            sboxWait := s1.sboxWait.map fun r => if r.who.steward = q.who.steward then { r with at_ := max r.at_ (s.clk + 4) } else r,
            sboxBusy := s.clk + (if q.op.rmw then 8 else 4) }

/-- The access stands at the port at this edge: presented, and not held (R397, R410). -/
def sboxStands (s : State) (q : SboxReq) : Bool := decide (q.at_ ≤ s.clk) && sboxFree s q

/-- The access the port would accept: of the Steward's and the control matrix's the one that has waited longest, the Steward's on a tie
(R397). -/
def sboxPick (s : State) : Option SboxReq :=
  let st := s.sboxWait.find? fun q => q.who.steward && sboxStands s q
  let cm := s.sboxWait.find? fun q => !q.who.steward && sboxStands s q
  match st, cm with
  | some a, some b => some (if b.at_ < a.at_ then b else a)
  | some a, none => some a
  | none, b => b

/-- The other manager's access that the port accepts together with `q`: a read and a write of one word presented at one
edge (R396). -/
def sboxPartner (s : State) (q : SboxReq) : Option SboxReq :=
  s.sboxWait.find? fun r => (r.who.steward != q.who.steward) && sboxStands s r && decide (r.word = q.word ∧ r.at_ = q.at_) &&
    (match q.op, r.op with
     | .read, .write _ => true
     | .write _, .read => true
     | _, _ => false)

/-- The port is free at this edge: an MCLK edge, no read-modify-write under way, no wipe. -/
def sboxOpen (s : State) : Bool := mclkEdge s && decide (s.sboxBusy ≤ s.clk) && s.wipeEnd.isNone

/-- The reaper has waited for the port longer than an access presented at `at_` (R397, R411). -/
def reaperFirst (s : State) (at_ : Nat) : Bool :=
  (s.reapMark.isSome || s.reapAt.any fun i => decide (i < 1024)) && decide (s.reapSince < at_)

/-- The reaper may take the port at this edge (R397). -/
def reaperTurn (s : State) : Bool :=
  sboxOpen s && decide (s.reapSince ≤ s.clk) && (sboxPick s).all fun q => reaperFirst s q.at_

/-- The port accepts what it can at this edge; the write of a pair goes first (R396, R399). A manager yields to a
reaper that has waited longer (R397). -/
def sboxAccept (s : State) : State :=
  if !sboxOpen s then s else
  match sboxPick s with
  | none => s
  | some q => if reaperFirst s q.at_ then s else match sboxPartner s q with
    | some r => match q.op with
      | .read => sboxAcceptOne (sboxAcceptOne s r) q
      | _ => sboxAcceptOne (sboxAcceptOne s q) r
    | none => sboxAcceptOne s q

/-- Present an access of the control matrix: the port accepts it at once where it is open to it alone; otherwise it waits, and the port
decides once the edge's accesses have all been presented (R397). -/
def sboxPresent (s : State) (q : SboxReq) : State :=
  let s1 := { s with sboxWait := s.sboxWait ++ [q] }
  if sboxOpen s && sboxFree s q && !reaperFirst s q.at_ && !s.sboxWait.any (sboxStands s) then sboxAcceptOne s1 q else s1

/-- The Steward asks for an access: it stands at the port from the next MCLK edge on (log entry 56). -/
def stewardAsks (s : State) (q : SboxReq) : State :=
  { s with sboxWait := s.sboxWait ++ [{ q with at_ := (s.clk / 4 + 1) * 4 }] }

/-- An access comes to the port from its requester (R396). -/
def sboxAsk (s : State) (q : SboxReq) : State := if q.who.steward then stewardAsks s q else sboxPresent s q

/-- SBOX_ACCESS_COMPLETE: the oldest access whose completion edge has come is answered (R398). -/
def doSboxComplete (s : State) : State :=
  match s.sboxAns.find? fun a => decide (a.due ≤ s.clk) with
  | some a => answerWith { s with sboxAns := s.sboxAns.filter fun b => decide (b ≠ a) } a.who a.data a.err
  | none => s

/-! ### Windows (R400, R401) -/

/-- Word `i` is in the secure area; in the lock area. -/
def secureWord (i : Nat) : Bool := decide (i < 4096)
def lockArea (i : Nat) : Bool := decide (4096 ≤ i ∧ i < 5120)

/-- The windows refuse the access: one of the secure area, which the Steward alone reaches, or a write of the lock area (R393, R401). -/
def sboxRefused (w : Who) (i : Nat) (write : Bool) : Bool :=
  (secureWord i && !w.steward) || (lockArea i && write) || decide (16384 ≤ i)

/-- A write through SBOX.DATA, SBOX.SET or SBOX.CLR, or by the Steward. A refused one is answered as the others are: DENIED, the
Strongbox-access event, SLVERR (R398, R401, R410). -/
def doSboxWrite (w : Who) (i : Nat) (op : SboxOp) (s : State) : State :=
  sboxAsk s ⟨w, if sboxRefused w i true then .deny true else op, i, s.clk⟩

/-- A read through SBOX.DATA, SBOX.SET or SBOX.CLR, or by the Steward. -/
def doSboxRead (w : Who) (i : Nat) (s : State) : State :=
  sboxAsk s ⟨w, if sboxRefused w i false then .deny false else .read, i, s.clk⟩

/-- An operation on lock `i`, by a processor alone (R403, R404). -/
def doLockOp (w : Who) (i : Nat) (op : SboxOp) (s : State) : State :=
  sboxAsk s ⟨w, if w.steward || decide (18 ≤ w.proc ∨ 1024 ≤ i) then .bad op.writes else op, lockWord i, s.clk⟩

/-! ### The reaper (R408 to R412) -/

/-- Origins enter the reap set at this MCLK edge: the sweep starts again from LOCK[0]. -/
def reapNow (s : State) (procs : Nat) : State :=
  if procs = 0 then s else
  { s with reapSet := s.reapSet ||| procs, reapAt := some 0, reapMark := none, reapEnd := none,
           reapSince := s.clk + 4 }

/-- Origins enter the reap set at the MCLK edge that coincides with or first follows (R408). -/
def enterReap (s : State) (procs : Nat) : State :=
  if mclkEdge s then reapNow s procs else { s with reapEnter := s.reapEnter ||| procs }

/-- The origins that entered since the last MCLK edge (R408). -/
def reapEntries (s : State) : State :=
  if mclkEdge s ∧ s.reapEnter ≠ 0 then { reapNow s s.reapEnter with reapEnter := 0 } else s

/-- The reaper's read of the next lock word (R411, R412). -/
def reapRead (s : State) (i : Nat) : State :=
  let r := loadWord s .sbox (lockWord i)
  let s1 := sboxFound s (lockWord i) r
  let hit := !r.ue && lockHeld r.data && ownerReaped s1 r.data
  { s1 with reapAt := some (i + 1), reapMark := if hit then some i else none, sboxBusy := s.clk + 4,
            reapSince := s.clk + 4,
            reapEnd := if i = 1023 then some (s.clk + 16) else none }

/-- The reaper's mark, if its conditions still hold (R411). -/
def reapMarkOne (s : State) (i : Nat) : State :=
  let r := loadWord s .sbox (lockWord i)
  let s1 := sboxFound s (lockWord i) r
  let hit := !r.ue && lockHeld r.data && ownerReaped s1 r.data
  let s2 := if hit then
      { storeWord s1 .sbox (lockWord i) ((r.data &&& ~~~(0x200 : Word)) ||| 0x400) with reapMarked := s1.reapMarked + 1 }
    else s1
  { s2 with reapMark := none, sboxBusy := s.clk + 8, reapSince := s.clk + 8, reapEnd := if s.reapAt = some 1024 then some (s.clk + 20) else s.reapEnd }

/-- The sweep is over: every origin leaves the set, REAP_CNT, the reap-done interrupt (R411); accesses held for them are presented
(R410). -/
def reapOver (s : State) : State :=
  let s1 := bump (bump s .sboxReapCnt 0 15 0) .sboxReapCnt 0 31 16 s.reapMarked
  pulse { s1 with
    sboxWait := s1.sboxWait.map fun q => if sboxFree s q then q else { q with at_ := max q.at_ s.clk }
    reapSet := 0, reapAt := none, reapEnd := none, reapMarked := 0 } 330

/-- The sweep ends at its edge. -/
def reapFinish (s : State) : State :=
  match s.reapEnd, s.reapMark with
  | some e, none => if e ≤ s.clk then reapOver s else s
  | _, _ => s

/-- REAP_SWEEP_STEP: the reaper takes the port, or finishes (R397, R411). -/
def doReapStep (s : State) : State :=
  match s.reapEnd, s.reapMark with
  | some _, none => reapFinish s
  | _, some i => if reaperTurn s then reapMarkOne s i else s
  | none, none =>
    match s.reapAt with
    | some i => if i < 1024 ∧ reaperTurn s then reapRead s i else s
    | none => s

/-- A write of SBOX.REAP with GO = 1 (R408, R409). -/
def doReap (w : Who) (t : Nat) (s : State) : State :=
  if 17 < t ∨ (!w.steward ∧ t = w.proc) then answerWith s w 0 true else answerWith (enterReap s (2 ^ t)) w 0 false

/-! ### The secure area (R413 to R416) -/

/-- A write of SBOX.KEY[j]: an access of the port, which discards it where the key may not be written when it is accepted. -/
def doKeyWrite (w : Who) (j : Nat) (v : Word) (s : State) : State :=
  sboxAsk s ⟨w, if 8 ≤ j then .bad true else .key v, j, s.clk⟩

/-- A write of 1 to SBOX.SEC.KEY_LOCK. -/
def doKeyLock (w : Who) (s : State) : State :=
  if bitOf (rg s .sboxSec) 2 then answerWith s w 0 true
  else answerWith (if bitOf (rg s .sboxSec) 1 then setRf s .sboxSec 0 0 0 1 else s) w 0 false

/-- 4096 MCLK in BCLK edges. -/
def wipeTime : Nat := 4096 * 4

/-- A wipe starts, or starts again; a load whose tag check has not ended will be rejected (R415, R416, R521, R522). -/
def startWipe (s : State) (lc : Bool) : State :=
  let w := match s.loader.phase with
    | .receiving => true
    | .checking t => decide (s.clk ≤ t + 256)
    | _ => false
  { s with wipeEnd := some (s.clk + wipeTime, lc), loader := { s.loader with wiped := s.loader.wiped || w } }

/-- TAMPER: phj_tamper_n is sampled low after high. -/
def doTamper (s : State) : State :=
  if bitOf (rg s .sboxSec) 2 then s else startWipe (setRf s .sboxSec 0 2 2 1) false

/-- TAMPER_RELEASE. -/
def doTamperRelease (s : State) : State := setRf s .sboxSec 0 2 2 0

/-- LC_STATE_CHANGE: the first sample after cold reset starts no wipe. -/
def doLcChange (v : Nat) (s : State) : State :=
  let s0 := if rf s .sboxSec 0 19 16 = v % 16 then s else genBump s genConfig
  let s1 := { setRf s0 .sboxSec 0 19 16 v with lcKnown := true }
  if s.lcKnown ∧ rf s .sboxSec 0 19 16 ≠ v % 16 then startWipe s1 true else s1

/-- The secure area holds 0 with valid check bits. -/
def clearSecure (s : State) : State :=
  { s with
    sbox := s.sbox.filter fun e => decide (4096 ≤ e.1)
    upsOther := s.upsOther.filter fun e => decide (e.1 < Store.sbox.site 0 ∨ Store.sbox.site 4096 ≤ e.1) }

/-- A wipe under way writes the next word at each MCLK edge (R416). -/
def wipeStep (s : State) : State :=
  match s.wipeEnd with
  | some (e, _) => let k := (s.clk + wipeTime - e) / 4; if mclkEdge s ∧ k < 4096 then storeWord s .sbox k 0 else s
  | none => s

/-- WIPE_DONE (R416). -/
def doWipeDone (s : State) : State :=
  match s.wipeEnd with
  | some (e, lc) =>
    if s.clk < e then s else
    let s1 := clearSecure { s with wipeEnd := none }
    let s2 := setRf (setRf (setRf s1 .sboxSec 0 1 0 0) .sboxSec 0 15 8 0) .sboxSec 0 3 3 1
    raise (setRf (bump s2 .sboxWipes 0 15 0) .sboxWipes 0 16 16 (b2n lc)) fuSbox 3 0
  | none => s

end Sys2Proof.Machine
end

