-- ==== Sys2Proof/Machine/Faults.lean ====
section
/-! DEFINITION. Fault units: clears, forced events, captures, curfews, escalation, quarantine, recovery, the error output,
entry to the safe state (R469 to R492). -/

namespace Sys2Proof.Machine

/-! ### Clears, forced events, captures (R469, R470, R472, R477, R493) -/

/-- A write of FU[n].STAT: bits written 1 clear, an event of the same edge standing (R477). -/
def doStatClear (n : Nat) (v : Word) (s : State) : State :=
  let u := s.fu n
  let stay := if u.nowAt = s.clk then u.nowBits else 0
  setRg s .fuStat n (rg s .fuStat n &&& ~~~(v &&& ~~~stay))

/-- A write of 1 to FU[n].FIRST.VALID. -/
def doFirstClear (n : Nat) (s : State) : State :=
  setRg (setRg (setRg (setRg s .fuFirst n 0) .fuFirstLoc n 0) .fuFirstDetail n 0) .fuFirstTime n 0

/-- A write of 1 to FU[n].FIRST.OVF alone. -/
def doFirstOvf (n : Nat) (s : State) : State := setRf s .fuFirst n 6 6 0

/-- A write of FU[n].LEDGER_CLR with GO = 1. -/
def doLedgerClr (n : Nat) (s : State) : State := setRf (s.setFu n { s.fu n with ledger := [] }) .fuLedgerStat n 31 16 0

/-- Entry `i` of a ledger; an empty place reads 0. -/
def ledgerAt (s : State) (n i : Nat) : LedgerEnt := (s.fu n).ledger.getD i ⟨0, 0, 0, 0⟩

/-- A read of FU[n].LEDGER[i].INFO captures the entry (R469). -/
def doLedgerRead (w : Who) (n i : Nat) (s : State) : State :=
  let e := ledgerAt s n i
  answerWith { s with ledgerCaps := Tab.set (fun _ => (0, 8, ⟨0, 0, 0, 0⟩)) s.ledgerCaps (whoNum w) (n, i, e) } w e.info false

/-- The entry that a requester's read of LOC, DETAIL or TIME answers (R469). -/
def ledgerFor (s : State) (w : Who) (n i : Nat) : LedgerEnt :=
  let (m, j, e) := Tab.get (fun _ => (0, 8, ⟨0, 0, 0, 0⟩)) s.ledgerCaps (whoNum w)
  if m = n ∧ j = i then e else ledgerAt s n i

/-- A parity error in a unit's own registers (R487). -/
def doSelfPar (n : Nat) (s : State) : State :=
  if n < 85 then raise (s.setFu n { s.fu n with par := true }) n 31 else s

/-- A write of FU[n].FORCE (R472). -/
def doForce (n : Nat) (v : Word) (s : State) : State :=
  if 85 ≤ n then s else
  let s1 := if bitOf v 31 then s.setFu n { s.fu n with par := true } else s
  (List.range 32).foldl (fun s b => if bitOf v b then raise s n b 0 0 none true else s) s1

/-- A read lane's stripe stands in the crossbar's return path at this edge (R106): reads that stay in the column, into its merge
buffer or to the Steward, never do. -/
def inReturn (s : State) (c : Nat) (l : RdLane) : Bool :=
  decide (l.col = c ∧ (l.bank + 6 = s.run ∨ l.bank + 7 = s.run)) && l.got.isSome && !l.par && !stewardRead l.use && !narrowHit
    { s with run := l.due } c l

/-- P-space address of the stripe that a read lane carries, and its task. -/
def laneOf (s : State) (l : RdLane) : Nat × Option Nat :=
  match l.use with
  | .slot x n k => (((((s.rdDir x).beats.find? fun b => b.id == n).bind fun b => b.descs[k]?).map DescSt.addr).getD 0, none)
  | .fill x id => match (s.sat x).fills.find? fun f => f.id == id with
    | some f => (f.addr, (s.piece f.sq).map Piece.task)
    | none => (0, none)
  | .scalar g id => ((((s.scalar g).find? fun x => x.id == id).map fun x => x.req.addr).getD 0, none)
  | .piece sq => match s.piece sq with
    | some p => (p.srcP, some p.task)
    | none => (0, none)
  | _ => (0, none)

/-- A parity error on the read stripes of column `c` in the crossbar's return path: each fails as one with an uncorrectable word
does (R464, R465). -/
def returnParity (c : Nat) (s : State) : State :=
  (s.rdLanes.filter (inReturn s c)).foldl (fun s l =>
    let (a, task) := laneOf s l
    raise { s with rdLanes := s.rdLanes.map fun m => if m = l then { m with par := true } else m } fuXbar 0 (addrLoc a) 7 task) s

/-- Continuous parity checking finds an error (R464). -/
def doParity : ParitySite → State → State
  | .crossbar c, s => returnParity c s
  | .column c, s => if c < 64 then raise s c 7 else s
  | .sector, s => raise s fuXbar 1
  | .intc, s => raise s fuCtrl 5
  | .steward, s => raise s fuStw 0

/-- TRACKER_EXPIRE: entries whose first event is older than the window are freed at a TCLK edge (R474). -/
def doTrackExpire (c : Nat) (s : State) : State :=
  if c < 64 ∧ tclkEdge s then
    let u := s.fu c
    s.setFu c { u with track := u.track.filter fun e => decide (tclk s - e.time ≤ trackWin s c) }
  else s

/-! ### Leaving fault (R477 to R479, R485, R486) -/

/-- The curfew stops where it stands. -/
def stopCurfew (s : State) (n : Nat) : State :=
  match (s.fu n).curfew with
  | some (t0, _) => (setRf s .fuCurfewCnt n 23 0 (tclk s - t0)).setFu n { s.fu n with curfew := none }
  | none => s

/-- A TCLK edge at which no STAT bit with ESC set is 1: the unit leaves fault, an escalated unit may start a curfew again. -/
def fuSettle (s : State) (n : Nat) : State :=
  if escalating s n = 0 then
    let s1 := stopCurfew s n
    s1.setFu n { s1.fu n with spent := false, esc := false }
  else s

/-- QUIET_PERIOD (R485, R486). -/
def doQuiet (n : Nat) (s : State) : State :=
  let q := max 1 (rf s .fuQuiet n 15 0) * 1024
  if n < 85 ∧ tclkEdge s ∧ bitOf (rg s .fuCtrl n) 0 ∧ escalating s n ≠ 0 ∧ (s.fu n).lastEsc + q ≤ tclk s then
    let s1 := fuSettle (setRg s .fuStat n (rg s .fuStat n &&& ~~~escalating s n)) n
    let s2 := bump s1 .fuRecov n 15 0
    let thr := rf s2 .fuRecov n 31 16
    if thr ≠ 0 ∧ rf s2 .fuRecov n 15 0 = thr ∧ rf s .fuRecov n 15 0 ≠ thr then raise s2 n 30 else s2
  else s

/-! ### Expiry and escalation (R478 to R480, R483, R488) -/

/-- Escalations since cold reset. -/
def escalations (s : State) : Nat := rf s .fuGstat 0 1 0

/-- The curfew of a unit has reached te at this TCLK edge. -/
def curfewOver (s : State) (n : Nat) : Bool :=
  match (s.fu n).curfew with
  | some (t0, _) => tclkEdge s && decide (t0 + max 1 (rf s .fuCurfew n 23 0) ≤ tclk s)
  | none => false

/-- CURFEW_EXPIRY: the unit leaves fault, escalates, or with CURFEW_EN = 0 stays in fault (R477 to R480). -/
def doCurfew (n : Nat) (s : State) : State :=
  if !curfewOver s n || s.safe then s
  else if escalating s n = 0 then fuSettle s n
  else
    let cur := (s.fu n).curfew
    let s1 := stopCurfew s n
    match cur with
    | some (_, src, forced, _) =>
      if !bitOf (rg s1 .fuCtrl n) 1 then s1.setFu n { s1.fu n with spent := true } else
      let before := escalations s1
      let s2 := s1.setFu n { s1.fu n with esc := true, outcome := some (tclk s + 1, before, src, forced) }
      let s3 := setRf s2 .fuGstat 0 1 0 (min 2 (before + 1))
      let s4 := if bitOf (rg s3 .fuGstat) 15 then s3 else setRf (setRf s3 .fuGstat 0 14 8 n) .fuGstat 0 15 15 1
      pulse s4 325
    | none => s1

/-- A half of a piece that can no longer issue: the piece faults with cause 0x09 (R481, R546). -/
def outPiece (s : State) (k : Checked) (sq : Nat) : State :=
  match s.piece sq with
  | none => s
  | some p =>
    if p.wr = .presented ∧ p.dst.space ≠ 4 then dropPiece (refusePiece s p p.dst p.dstP k) sq
    else readLost (refusePiece s p p.src p.srcP k) p

/-- A scalar access that can no longer issue. -/
def outScalar (s : State) (k : Checked) (g id : Nat) : State :=
  match (s.scalar g).find? fun x => x.id == id with
  | none => s
  | some x => refuseScalar s k g x

/-- The accesses of port `g` that wait in its input buffer for a tile that `hit` names. -/
def outBuffered (s : State) (k : Checked) (hit : Nat → Bool) (g : Nat) : State :=
  ((s.scalar g).filter fun x => decide (x.stage = .buffered ∧ x.col = k.col) && hit x.acc.tier).foldl (fun s x => refuseScalar s k g x) s

/-- A fill or escape read that can no longer issue. -/
def outFill (s : State) (k : Checked) (x id : Nat) : State :=
  match (s.sat x).fills.find? fun f => f.id == id with
  | none => s
  | some f =>
    let s1 := s.setSat x { s.sat x with fills := (s.sat x).fills.filter fun g => g.id != id }
    match f.esc with
    | some j => faultTask (mappedOut s1 k j.addr (some j.task)) j.task x j.start j.off 0x09 0 j.addr 0
    | none => match s1.piece f.sq with
      | some p => dropPiece (refusePiece s1 p p.src p.srcP k) p.sq
      | none => s1

/-- What becomes of an access that can no longer issue, by its use: refused, and counted in QHITS for a quarantined column or reported as
a mapped-out access (R52, R481, R546). -/
def outUse (s : State) (k : Checked) (d : Dir) (u : Use) : State :=
  match u with
  | .slot x beat i => stripeFails s d x beat i 5 k
  | .fill x id => outFill s k x id
  | .scalar g id => outScalar s k g id
  | .scalarWr g id => outScalar s k g id
  | .piece sq => outPiece s k sq
  | .annex x id =>
    let a := (((s.escs x).find? fun e => e.id == id).map EscRec.addr).getD 0
    mappedOut (s.setEscs x ((s.escs x).filter fun e => e.id != id)) k a none
  | .inbound l id =>
    let a := ((s.link l).inQ.find? fun q => q.id == id / 16).map InPkt.addr
    losePacket (inboundDone (mappedOut s k (a.getD 0) none) l id) l (id / 16)
  | _ => if k.quar then bump s .fuQhits k.col 31 0 else s

/-- The lanes not yet issued and the queued entries of column `k.col` that reach a tile `hit` names meet their end: no lane of theirs issues
any more (R481, R546). -/
def sweepOut (s : State) (k : Checked) (hit : Nat → Bool) : State :=
  let mine := fun (accs : List Acc) => accs.any fun a => hit a.tier
  let later := fun (bank : Nat) => decide (s.run + 4 ≤ bank)
  let rds := s.rdLanes.filter fun l => decide (l.col = k.col) && later l.bank && mine l.accs
  let wrs := s.wrLanes.filter fun l => decide (l.col = k.col) && later l.bank && mine l.accs
  let s1 := { s with
    rdLanes := s.rdLanes.filter fun l => !(decide (l.col = k.col) && later l.bank && mine l.accs)
    wrLanes := s.wrLanes.filter fun l => !(decide (l.col = k.col) && later l.bank && mine l.accs) }
  let s2 := rds.foldl (fun s l => outUse s k .rd l.use) s1
  let s3 := wrs.foldl (fun s l => outUse s k .wr l.use) s2
  let drop := fun (d : Dir) (s : State) (r : Nat) =>
    let q := queueKey k.col d r
    let es := (s.queue q).entries.filter fun e => mine e.accs
    es.foldl (fun s e => outUse s k d e.use) (filterQueue s q fun e => !mine e.accs)
  let s4 := (List.range 37).foldl (drop .wr) ((List.range 37).foldl (drop .rd) s3)
  (List.range 16).foldl (fun s g => outBuffered s k hit g) s4

/-- Column `c` is quarantined at this edge (R481). -/
def quarantine (s : State) (c : Nat) : State :=
  let s1 := s.setFu c { s.fu c with quar := true }
  let s2 := if c < 32 then setRf s1 .fuQuarLo 0 c c 1 else setRf s1 .fuQuarHi 0 (c - 32) (c - 32) 1
  let s7 := abandonCopy (some 8) (sweepOut s2 (quarCheck c) fun _ => true) c
  let k := s7.col c
  let s8 := s7.setCol c { k with remapQ := [], wbWait := [], scrub := { k.scrub with queued := false } }
  if k.remapQ.any RemapReq.sw then remapResult s8 c 8 else s8

/-- ESCALATION: the outcome at te + 1; phj_err_n goes low for at least 100 TCLK (R480, R483). -/
def doEscalation (n : Nat) (s : State) : State :=
  match (s.fu n).outcome with
  | some (t1, before, src, forced) =>
    if tclk s < t1 then s else
    let s1 := s.setFu n { s.fu n with outcome := none }
    let s2 := { setRf s1 .fuErrHold 0 0 0 1 with errPulse := some ((t1 + 100) * 12), errWant := true }
    if n < 64 ∧ before = 0 then quarantine s2 n
    else causeSafe s2 (if before = 0 then 1 else 2) n src forced t1
  | none => s

/-- QUARANTINE_COMPLETE: once the buffer is empty and no lane is in flight the column's octets are withdrawn without events
and its tiles go to retention (R115, R482). -/
def doQuarDone (c : Nat) (s : State) : State :=
  let u := s.fu c
  let quiet := (s.col c).defer.isEmpty && !(s.wrLanes.any fun l => l.col == c) && !(s.rdLanes.any fun l => l.col == c)
  if !u.quar || u.quarDone || !quiet then s else
  let s1 := (List.range 16).foldl (fun s i => if octetOut s c (i / 4) (i % 4) then s else withdraw s c (i / 4) (i % 4) none) s
  let s2 := (List.range 4).foldl (fun s t =>
    let s1 := setRf s .pwrDom (64 * t + c) 1 0 1
    { s1 with domains := Tab.set (fun _ => ⟨0, none⟩) s1.domains (64 * t + c) ⟨1, none⟩ }) s1
  s2.setFu c { s2.fu c with quarDone := true }

/-! ### The error output (R483) -/

/-- phj_err_n. -/
def errPin (s : State) : Bool := !(s.safe || s.errPulse.isSome || bitOf (rg s .fuErrHold) 0)

/-- ERR_PULSE_END. -/
def doErrEnd (s : State) : State :=
  match s.errPulse with
  | some e => if e ≤ s.clk then { setRf s .fuErrHold 0 0 0 (b2n (s.errWant || s.safe)) with errPulse := none } else s
  | none => s

/-- A write of FU.ERR_HOLD.HOLD. -/
def doErrHold (hold : Bool) (s : State) : State :=
  if s.safe && !hold then s
  else if s.errPulse.isSome then { s with errWant := hold }
  else setRf s .fuErrHold 0 0 0 (b2n hold)

/-! ### The safe state (R488 to R490) -/

/-- A write of FU.SAFE_CMD with GO = 1: cause 5, unit 127. -/
def doSafeCmd (s : State) : State := causeSafe s 5 127 0 false (tclk s + 1)

/-- Scalar accesses not fully issued are discarded and answered 0x1 (R490). -/
def safeScalar (s : State) (g : Nat) (x : Scalar) : State :=
  let goes := match x.stage with
    | .due _ _ _ => true
    | .buffered => false
    | .reading => x.issued && !x.req.we
    | .writing => x.issued
  if goes then s else
  let mine := fun (u : Use) => decide (u = .scalar g x.id ∨ u = .scalarWr g x.id)
  let s1 := filterQueues s fun _ e => !mine e.use
  setScalarAt { s1 with rdLanes := s1.rdLanes.filter fun l => !mine l.use } g
    { x with stage := .due (aclkAt s.run) 1 0, ready := none }

/-- The Steward's work in a column stops: scrub and copy entries go, a copy is abandoned without its switch (R490). -/
def safeColumn (s : State) (c : Nat) : State :=
  let s1 := filterQueue (filterQueue s (queueKey c .rd 36) fun _ => false) (queueKey c .wr 36) fun _ => false
  let s2 := { s1 with rdLanes := s1.rdLanes.filter fun l => !(decide (l.col = c) && stewardRead l.use) }
  let s3 := abandonCopy none s2 c
  s3.setCol c { s3.col c with wbWait := [], scrub := { (s3.col c).scrub with queued := false } }

/-- Enter the safe state (R490): no curfew runs, runs stop, scalar accesses not issued are answered, copies are abandoned. -/
def enterSafe (s : State) : State :=
  let s0 := { setRf s .fuGstat 0 2 2 1 with safe := true, safeAt := none }
  let s1 := (s0.fus.map Prod.fst).foldl stopCurfew s0
  let s2 := stopAllRuns s1
  let s3 := (List.range 16).foldl (fun s g => (s.scalar g).foldl (fun s x => safeScalar s g x) s) s2
  pulse ((List.range 64).foldl safeColumn s3) 326

/-- SAFE_STATE_ENTRY: edge S. -/
def doSafeEntry (s : State) : State :=
  match s.safeAt with
  | some e => if e ≤ s.clk ∧ !s.safe then enterSafe s else s
  | none => s

end Sys2Proof.Machine
end

