-- ==== Sys2Proof/Machine/Intc.lean ====
section
/-! DEFINITION. The interrupt controller: lines, pending and active state, selection, claims, ends, software-generated
interrupts, sleeping targets (R494 to R512). -/

namespace Sys2Proof.Machine

/-! ### Lines (R495, R496) -/

/-- Bit `i` of a set of sources. -/
def srcIn (v : BitVec 512) (i : Nat) : Bool := v.getLsbD i

/-- A fault unit drives its line (R473). -/
def fuLine (s : State) (n : Nat) : Bool := rg s .fuStat n &&& rg s .fuIe n != 0

/-- A starvation bit with its enable is set (R139). -/
def starveLine (s : State) : Bool :=
  rg s .lotStarveLo &&& rg s .lotStarveEnLo != 0 || rg s .lotStarveHi &&& rg s .lotStarveEnHi != 0

/-- The level of a held line. -/
def heldLine (s : State) (i : Nat) : Bool :=
  if i < 256 then (if i % 16 = 0 then watchHigh s (i / 16) else if i % 16 = 1 then fuLine s (64 + i / 16) else false)
  else if i < 320 then fuLine s (i - 256)
  else if i < 325 then fuLine s (i - 240)
  else if i = 327 then starveLine s
  else if i = 332 then rf s .regEvent 0 15 8 != 0 && bitOf (rg s .regCtrl) 1
  else if i = 333 then rf s .regEvent 0 1 0 != 0 && bitOf (rg s .regCtrl) 2
  else if i = 334 then watchHigh s 16
  else if i = 335 then watchHigh s 17
  else false

/-- The sources with held lines. -/
def heldSources : List Nat :=
  ((List.range 16).flatMap fun g => [16 * g, 16 * g + 1]) ++ ((List.range 64).map (256 + ·)) ++
    [320, 321, 322, 323, 324, 327, 332, 333, 334, 335]

/-- A set of sources as bits. -/
def srcBits (l : List Nat) : BitVec 512 := l.foldl (fun v i => v ||| BitVec.ofNat 512 (2 ^ i)) 0

/-- Every line as it stands at this edge. -/
def lines (s : State) : BitVec 512 := srcBits (heldSources.filter (heldLine s)) ||| s.intPulse

/-! ### Pending and active (R498 to R500) -/

/-- SENSE of a source. -/
def senseOf (s : State) (i : Nat) : Nat := rf s .intcSrcCfg i 9 8

/-- The sources that exist. -/
def sources : List Nat := (List.range 344).filter srcExists

/-- The pending bit of a source after a sample of its line (R498). -/
def pendAfter (s : State) (now : BitVec 512) (i : Nat) : Bool :=
  let l := srcIn now i
  let was := srcIn s.intLine i
  match senseOf s i with
  | 0 => l
  | 1 => srcIn s.intPend i || (l && !was)
  | 2 => srcIn s.intPend i || (!l && was)
  | _ => srcIn s.intPend i || (l != was)

/-- Sample every line (R498). -/
def sampleLines (s : State) : State :=
  let now := lines s
  { s with intLine := now, intPulse := 0, intPend := srcBits (sources.filter (pendAfter s now)) }

/-- No claimer, no selection. -/
def noTarget : Nat := 18
def noSource : Nat := 0x3FF

/-- The claimer of a source, 18 when it is not active. -/
def claimer (s : State) (i : Nat) : Nat := Tab.get (fun _ => noTarget) s.intOwner i
def setClaimer (s : State) (i t : Nat) : State := { s with intOwner := Tab.set (fun _ => noTarget) s.intOwner i t }

/-! ### Selection (R501 to R505) -/

/-- The group field of a priority under a binary point (R501). -/
def groupField (prio bp : Nat) : Nat := prio >>> bp

/-- Sources active for a target. -/
def activeFor (s : State) (t : Nat) : List Nat := (s.intOwner.filter fun e => e.2 == t).map Prod.fst

/-- The most urgent PRIO active for a target, under a register file (R502). -/
def runningPrio (s : State) (regs : Tab Word) (t : Nat) : Option Nat :=
  (activeFor s t).foldl (fun m i => let p := fld (rgIn regs .intcSrcCfg i) 7 0
    match m with
    | some q => some (min p q)
    | none => some p) none

/-- A source is deliverable to a target, its settings those of three MCLK ago (R503, R505). -/
def deliverable (s : State) (t i : Nat) : Bool :=
  let c := rgIn s.regsM3 .intcSrcCfg i
  let k := rgIn s.regsM3 .intcTgtCtrl t
  let bp := fld k 10 8
  srcIn s.intPend i && claimer s i == noTarget && bitOf c 10 && fld c 20 16 == t && decide (fld c 7 0 < fld k 7 0) &&
  (match runningPrio s s.regsM3 t with
   | some p => decide (groupField (fld c 7 0) bp < groupField p bp)
   | none => true)

/-- The deliverable source with the lowest PRIO, the lowest number among equals (R504). -/
def select (s : State) (t : Nat) : Nat :=
  let best := (sources.filter (deliverable s t)).foldl (fun m i =>
    let p := fld (rgIn s.regsM3 .intcSrcCfg i) 7 0
    match m with
    | some (q, j) => if p < q then some (p, i) else some (q, j)
    | none => some (p, i)) (none : Option (Nat × Nat))
  match best with
  | some (_, i) => i
  | none => noSource

/-- The selection registered for a target. -/
def selOf (s : State) (t : Nat) : Nat := Tab.get (fun _ => noSource) s.intSel t
def setSel (s : State) (t v : Nat) : State := { s with intSel := Tab.set (fun _ => noSource) s.intSel t v }

/-- The controller runs: not while its domain is in block retention and not before the divider (R551, R552). -/
def intcRuns (s : State) : Bool :=
  match s.life with
  | .starting | .ready | .warmHeld | .warmBusy _ => true
  | .leaving _ c => decide (c ≤ s.clk)
  | _ => false

/-- INTERRUPT_SELECT: at an MCLK edge the selections are registered from the state of the edge before, then every line is
sampled (R498, R505). -/
def doSelect (s : State) : State :=
  if !(mclkEdge s && intcRuns s) then s else
  let s1 := if s.intPend = 0 then { s with intSel := [] }
    else (List.range 18).foldl (fun r t => setSel r t (select s t)) s
  sampleLines s1

/-- phj_int_req[t], phj_tgt_sleep[t] as sampled, phj_wake_req[t] (R506, R510). -/
def intReq (s : State) (t : Nat) : Bool := selOf s t != noSource
def asleep (s : State) (t : Nat) : Bool := Tab.get (fun _ => 0) s.asleep t == 1
def wakeReq (s : State) (t : Nat) : Bool := intReq s t && asleep s t

/-! ### Claims, ends, settings (R497, R498, R506 to R510, R513) -/

/-- A read of INTC.TGT[t].CLAIM (R506). -/
def doClaim (w : Who) (t : Nat) (s : State) : State :=
  let i := selOf s t
  if i = noSource ∨ claimer s i ≠ noTarget then answerWith (bump s .intcTgtStat t 31 16) w (BitVec.ofNat 32 noSource) false
  else
    let s1 := setClaimer s i t
    let s2 := if senseOf s i = 0 then s1 else { s1 with intPend := s1.intPend &&& ~~~BitVec.ofNat 512 (2 ^ i) }
    answerWith s2 w (BitVec.ofNat 32 i) false

/-- A write of INTC.TGT[t].EOI with GO = 1 (R509). -/
def doEoi (t i : Nat) (s : State) : State :=
  if claimer s i = t ∧ t < 18 then setClaimer s i noTarget
  else setRf (setRf (bump s .intcErr 0 15 0) .intcErr 0 24 16 i) .intcErr 0 29 25 t

/-- A write of INTC.SGI with GO = 1 (R497). -/
def doSgi (dest id : Nat) (s : State) : State :=
  if dest < 16 then pulse s (16 * dest + 2 + id % 8) else if dest = 16 then pulse s (336 + id % 8) else s

/-- The edge-sensed sources among the bits of word `i` of a pending write. -/
def edgeBits (s : State) (i : Nat) (v : Word) : BitVec 512 :=
  srcBits (((List.range 32).filter fun b => bitOf v b && srcExists (32 * i + b) && senseOf s (32 * i + b) != 0).map (32 * i + ·))

/-- Writes of INTC.SETPEND and INTC.CLRPEND (R498). -/
def doSetPend (i : Nat) (v : Word) (s : State) : State := { s with intPend := s.intPend ||| edgeBits s i v }
def doClrPend (i : Nat) (v : Word) (s : State) : State := { s with intPend := s.intPend &&& ~~~edgeBits s i v }

/-- A write of INTC.SRC[i].CFG (R495, R513): a reserved source ignores it; TARGET is fixed in a private bank, and a TARGET
above 17 leaves the field. -/
def doSrcCfg (i : Nat) (v : Word) (s : State) : State :=
  if !srcExists i then s else
  let old := rg s .intcSrcCfg i
  let keep := decide (i < 256 ∨ 17 < fld v 20 16)
  let w := v &&& 0x1F07FF
  setRg s .intcSrcCfg i (if keep then setFld w 20 16 (fld old 20 16) else w)

/-- TARGET_SLEEP: phj_tgt_sleep[t] as sampled (R510). -/
def doSleep (t : Nat) (level : Bool) (s : State) : State := { s with asleep := Tab.set (fun _ => 0) s.asleep t (b2n level) }

/-- The active state of every source that target `t` claimed clears (R511). -/
def clearActive (s : State) (t : Nat) : State := (activeFor s t).foldl (fun s i => setClaimer s i noTarget) s

/-- MP_RESET: phj_mp_rst_n[i] sampled low (R408, R409, R511). -/
def doMpReset (i : Nat) (s : State) : State := if i < 2 then enterReap (clearActive s (16 + i)) (2 ^ (16 + i)) else s

/-- A 32-bit word of a set of sources. -/
def srcWord (v : BitVec 512) (i : Nat) : Word := (v >>> (32 * i)).setWidth 32

/-- The words of INTC.ACTIVE. -/
def activeBits (s : State) : BitVec 512 := srcBits ((s.intOwner.filter fun e => e.2 != noTarget).map Prod.fst)

end Sys2Proof.Machine
end

