-- ==== Sys2Proof/Machine/Power.lean ====
section
/-! DEFINITION. Wheel exchanges, slot skips, conflict-counter clears, power domains, block retention, thermal protection
(R103, R104, R114, R116, R117, R120, R543 to R552, R557 to R561, R570). -/

namespace Sys2Proof.Machine

/-! ### Wheels (R103, R104) -/

/-- An exchange of the wheel sets is asked for; a request already waiting stands. -/
def askExchange (s : State) : State := if s.wheelPend then s else { s with wheelPend := true, wheelReq := s.run }

/-- A write of 1 to XBAR.WHEEL_SW.GO: ignored after the seal. -/
def doWheelGo (s : State) : State := if s.sealed_ then s else askExchange s

/-- The sets exchange at the first edge at position 0 after the request (R103, R459). -/
def flipWheels (s : State) : State :=
  if s.wheelPend ∧ s.wheelPos = 0 ∧ s.wheelReq < s.run then
    capUpdate { s with wheelSet := 1 - s.wheelSet % 2, wheelPend := false }
  else s

/-- A write of COL[c].WHEEL[p] to the inactive set: an owner code outside R102 is stored as open (R104). -/
def wheelWrite (s : State) (i : Nat) (v : Word) : State :=
  let legal := fun (o : Nat) => if ownerLegal o then o else 0
  let w := BitVec.ofNat 32 (legal (fld v 6 0) + 65536 * legal (fld v 22 16))
  { s with wheels := Tab.set (fun _ => 0) s.wheels ((1 - s.wheelSet % 2) * 4096 + i) w }

/-! ### Skips (R114, R117, R120, R570) -/

/-- The wall-time ACLK counter (R570). -/
def aclkCount (s : State) : Nat := s.clk / 2

/-- The residues mod 8 that a throttle level skips (R120). -/
def levelSkips (level k : Nat) : Bool :=
  match level with
  | 0 => false
  | 1 => k % 8 == 7
  | 2 => k % 4 == 3
  | _ => k % 2 == 1

/-- The level the register holds: automatic, forced or off (R120, R559). -/
def throttleLevel (s : State) : Nat :=
  match rf s .xbarSkipCtrl 0 1 0 with
  | 0 => 0
  | 2 => rf s .xbarSkipCtrl 0 5 4
  | _ => rf s .thmStat 0 17 16

/-- At the first announcement edge of a group of 8 ACLK its level is taken; it is in force from its first cycle (R570). -/
def groupLevel (s : State) : State :=
  if aclkEdge s ∧ aclkCount s % 8 = 7 then { s with levelNext := throttleLevel s }
  else if aclkEdge s ∧ aclkCount s % 8 = 0 then { s with levelNow := s.levelNext } else s

/-- phj_slot_skip goes high at this ACLK edge: the cycle that begins at the next one is skipped (R117). -/
def announce (s : State) : State := { s with skipNext := some (s.clk + 2) }

/-- A thermal skip is to be announced at this edge. -/
def thermalDue (s : State) : Bool := aclkEdge s && levelSkips s.levelNext (aclkCount s + 1)

/-- THERMAL_SKIP: announced once at its edge (R117, R122). -/
def doThermalSkip (s : State) : State :=
  if thermalDue s ∧ doneNow s lastSkip = false then announce (setLast (bump s .xbarSkipTherm 0 31 0) lastSkip) else s

/-- Columns whose deferral buffers ask for a drain skip (R114). -/
def drainCols (s : State) : List Nat := (s.cols.filter fun e => decide (12 ≤ e.2.defer.length)).map Prod.fst

/-- A drain skip is announced at an ACLK edge while some buffer holds 12 or more entries (R114). -/
def drainSkip (s : State) : State :=
  let l := drainCols s
  if aclkEdge s ∧ l ≠ [] then announce (bump (l.foldl (fun s c => bump s .colDrainReq c 31 0) s) .xbarSkipDrain 0 31 0) else s

/-- SLOT_SKIP: the announced ACLK cycle begins: the two BCLK edges that follow are held (R117). -/
def doSlotSkip (s : State) : State :=
  match s.skipNext with
  | some e =>
    if e ≤ s.clk ∧ aclkEdge s then
      { s with skipNext := none, heldFrom := if 0 < s.heldFrom ∧ s.heldTo = s.clk then s.heldFrom else s.clk + 1,
               heldTo := s.clk + 2 }
    else s
  | none => s

/-- A write of XBAR.SKIP_CTRL. -/
def doSkipCtrl (v : Word) (s : State) : State := setRg s .xbarSkipCtrl 0 (v &&& RegId.xbarSkipCtrl.row.rw)

/-- Writes of XBAR.CONF_CLR with GO = 1 (R116). -/
def doConfClr (m : Nat) (s : State) : State := if m < 69 then confClear s m else s
def doConfClrAll (s : State) : State := (List.range 69).foldl confClear s

/-! ### Power domains (R543 to R547) -/

/-- State codes. -/
def dON : Nat := 0
def dRET : Nat := 1
def dOFF : Nat := 2

def setDom (s : State) (d : Nat) (v : Domain) : State := { s with domains := Tab.set (fun _ => ⟨0, none⟩) s.domains d v }

/-- TARGET of a domain. -/
def domTarget (s : State) (d : Nat) : Nat := rf s .pwrDom d 1 0

/-- The states a domain takes (R543). -/
def domTakes (d t : Nat) : Bool :=
  if d < 272 then decide (t ≤ 2) else if d < 300 then decide (t = 0 ∨ t = 2) else decide (d = 300 ∧ t = 0)

/-- Transition time in MCLK (R543). -/
def domTime (d st _to : Nat) : Nat :=
  if st = dON then 32
  else if d < 256 then (if st = dRET then 256 else 772)
  else if d < 272 then 128
  else if d < 292 then 64
  else if d < 300 then 32
  else 256

/-- The domain is in transition or asked for another state. -/
def domBusy (s : State) (d : Nat) : Bool := (dom s d).moving.isSome || (dom s d).st != domTarget s d

/-- A porter channel of porter `p` has a run or a full shadow. -/
def porterBusy (s : State) (p : Nat) : Bool :=
  (List.range 16).any fun k => let a := chanAgent p k
    (s.agent a).act.isSome || !(s.agent a).queue.isEmpty || !(liveCtxs s a).isEmpty

/-- Block retention is in force or in progress. -/
def retaining (s : State) : Bool :=
  match s.life with
  | .entering _ | .retained | .leaving _ _ => true
  | _ => false

/-- A window entry on link port `l` is not CLOSED. -/
def linkInUse (s : State) (l : Nat) : Bool :=
  (busyWins s).any fun w => winPort s w == l || peerPort s w == l

/-- A TARGET write is refused (R545). -/
def domRefused (s : State) (d t : Nat) : Bool :=
  !domTakes d t || retaining s ||
  (decide (d < 256) && quarantined s (d % 64)) ||
  (decide (256 ≤ d ∧ d < 272 ∧ t ≠ 0) && rg s .pgCtrl (d - 256) != 0) ||
  (decide (272 ≤ d ∧ d < 288 ∧ t ≠ 0) && (bitOf (rg s .ppCtrl (d - 272)) 0 || porterBusy s (d - 272))) ||
  (decide (288 ≤ d ∧ d < 292 ∧ t ≠ 0) && linkInUse s (d - 288))

/-- WAKE_N. -/
def wakeN (s : State) : Nat := min 16 (max 1 (rf s .pwrCtrl 0 4 0))

/-- Tile domains leaving RET or OFF now (R544). -/
def waking (s : State) : Nat := (s.domains.filter fun e => decide (e.1 < 256 ∧ e.2.st ≠ dON) && e.2.moving.isSome).length

/-- Start a domain's next transition toward its target: from a state other than ON it goes through ON; a tile's wake waits
for one of WAKE_N places (R543, R544). -/
def domStart (s : State) (d : Nat) : State :=
  let v := dom s d
  let t := domTarget s d
  if v.moving.isSome ∨ v.st = t then s
  else
    let dest := if v.st = dON then t else dON
    if d < 256 ∧ v.st ≠ dON ∧ wakeN s ≤ waking s then s
    else setDom s d { v with moving := some (dest, s.clk + domTime d v.st dest * 4) }

/-- A write of PWR.DOM[d].TARGET (R544, R545). -/
def doDomTarget (d : Nat) (v : Word) (s : State) : State :=
  if domRefused s d (fld v 1 0) then setRf s .pwrDom d 7 7 1
  else domStart (setRf (setRf s .pwrDom d 7 7 0) .pwrDom d 1 0 (fld v 1 0)) d

/-- Physical rows of a tile: first row and row after the last. -/
def tileRows (t c : Nat) : Nat × Nat := (physRow c t 0 0, physRow c t 0 0 + 34 * 2064)

/-- Every row of a tile holds zeros with valid check bits (R547). -/
def zeroTile (s : State) (t c : Nat) : State :=
  let (a, b) := tileRows t c
  { s with
    mem := s.mem.filter fun e => decide (e.1 < a * 64 ∨ b * 64 ≤ e.1)
    ups := s.ups.filter fun e => decide (e.1 < a * 4 ∨ b * 4 ≤ e.1) }

/-- The satchels of group `g` are emptied (R182). -/
def emptySatchels (s : State) (g : Nat) : State :=
  [g, 16 + g].foldl (fun s x => s.setSat x { emptySat with nextId := (s.sat x).nextId }) s

/-- Clear VALID of every record of a Tally unit (R547): word 0 bit 31 of the eight words of a record. -/
def clearRecords (s : State) (x : Nat) : State :=
  { s with
    tallyMem := s.tallyMem.filter fun e => decide (e.1 < tallyWord x 0 0 ∨ tallyWord x 1024 0 ≤ e.1)
    upsOther := s.upsOther.filter fun e =>
      decide (e.1 < Store.tally.site (tallyWord x 0 0) ∨ Store.tally.site (tallyWord x 1024 0) ≤ e.1) }

/-- What a domain finds as it enters ON from OFF (R547). -/
def domWakes (s : State) (d : Nat) : State :=
  if d < 256 then zeroTile s (d / 64) (d % 64)
  else if d < 272 then clearRecords (clearRecords (emptySatchels s (d - 256)) (d - 256)) (d - 240)
  else s

/-- A running copy of a tile that leaves ON stops without its switch; its request waits at the front of the column's queue and starts
anew once the tile is in ON (R546; DESIGN CHOICE, log entry 55). -/
def abandonTile (s : State) (d : Nat) : State :=
  let c := d % 64
  match (s.col c).copy with
  | some k =>
    if k.tier ≠ d / 64 then s else
    let s1 := abandonCopy none s c
    s1.setCol c { s1.col c with remapQ := ⟨k.retire, k.tier, k.bank, k.row, k.sw⟩ :: (s1.col c).remapQ }
  | none => s

/-- DOMAIN_TRANSITION_DONE: the domain is in its new state, goes on to a target that was replaced, and the next tiles that
wait may wake (R544). As a tile leaves ON, accesses that have not issued their lanes meet a mapped-out access (R546). -/
def doDomDone (d : Nat) (s : State) : State :=
  let v := dom s d
  match v.moving with
  | some (dest, e) =>
    if s.clk < e then s else
    let s1 := if v.st = dOFF ∧ dest = dON then domWakes s d
      else if v.st = dON ∧ d < 256 then sweepOut (abandonTile s d) (holeCheck (d % 64) (d / 64)) fun t => t == d / 64 else s
    let s2 := domStart (setDom s1 d ⟨dest, none⟩) d
    ((s2.domains.map Prod.fst).filter fun i => decide (i < 256)).foldl domStart s2
  | none => s

/-! ### Block retention (R548 to R551) -/

/-- PWR.RESULT. -/
def pwrResult (s : State) (code : Nat) : State := setRf s .pwrResult 0 7 0 code

/-- A bitstream load is in progress. -/
def loading (s : State) : Bool :=
  match s.loader.phase with
  | .idle => false
  | _ => true

/-- Traffic or a load keeps RETAIN out (R548, code 0x01). -/
def retainBusy (s : State) : Bool :=
  (List.range 16).any (fun g => rg s .pgCtrl g != 0) || anyChanBusy s ||
  ((busyAgents s).any fun a => decide (a < 32) && (!(liveCtxs s a).isEmpty || (loadedCtx s a).isSome || !(s.agent a).queue.isEmpty)) ||
  !(busyWins s).isEmpty || s.pmapOp.isSome || loading s

/-- PWR.CMD RETAIN (R548, R549). -/
def doRetain (s : State) : State :=
  if retainBusy s then pwrResult s 1
  else if retaining s || s.life != .ready || (List.range 301).any (domBusy s) then pwrResult s 2
  else if s.safe then pwrResult s 5
  else
    let s1 := (List.range 301).foldl (fun s d => setRf s .pwrDom d 9 8 (domTarget s d)) s
    { pwrResult s1 4 with life := .entering (s.clk + 128 * 4), wake := false }

/-- The domains go down: porters, links and sectors to OFF, the others to RET; RESULT is 0 (R549). -/
def domainsDown (s : State) : State :=
  (List.range 301).foldl (fun s d =>
    if (dom s d).st ≠ dON then s else setDom s d ⟨if d < 272 ∨ d = 300 then dRET else dOFF, none⟩) (pwrResult s 0)

/-- RETENTION_ENTERED (R549). -/
def doRetained (s : State) : State :=
  match s.life with
  | .entering e =>
    if s.clk < e then s else
    { calm domainsDown s with life := .retained }
  | _ => s

/-- Domains whose SAVED state is ON among a range. -/
def savedOn (s : State) (a n : Nat) : List Nat := ((List.range n).map (a + ·)).filter fun d => rf s .pwrDom d 9 8 == 0

/-- MCLK of the exit sequence: control, then the others together, then tiles WAKE_N at a time (R543, R551). -/
def exitTime (s : State) : Nat :=
  let stage2 := if savedOn s 256 16 ≠ [] then 128 else if savedOn s 272 20 ≠ [] then 64 else if savedOn s 292 8 ≠ [] then 32 else 0
  256 + stage2 + ((savedOn s 0 256).length + wakeN s - 1) / wakeN s * 256

/-- The exit sequence starts (R551). -/
def startExit (s : State) : State := { s with life := .leaving (s.clk + exitTime s * 4) (s.clk + 1024), wake := false }

/-- PWR.CMD WAKE. -/
def doWake (s : State) : State := if s.life = .retained then startExit (pwrResult s 4) else pwrResult s 6

/-- WAKE_PIN: phj_wake_n is sampled low, at an MCLK edge (R551). -/
def doWakePin (s : State) : State :=
  if s.life = .retained ∧ mclkEdge s ∧ bitOf (rg s .pwrCtrl) 8 then startExit (pwrResult s 4) else s

/-- PWR.CMD with a reserved operation. -/
def doPwrReserved (s : State) : State := pwrResult s 3

/-- The first running edge at or after this one that is an ACLK edge. -/
def evenRun (s : State) : Nat := (s.run + 1) / 2 * 2

/-- The domains are back in their SAVED states; RESULT is 0. -/
def domainsUp (s : State) : State :=
  (List.range 301).foldl (fun s d => setDom s d ⟨rf s .pwrDom d 9 8, none⟩) (pwrResult s 0)

/-- The end of the exit: the wheel stands at position 0 (R551). -/
def exitDone (s : State) : State :=
  { calm domainsUp s with
    life := .ready, wheelPos := 0, run := evenRun s, skipNext := none, heldFrom := 0, heldTo := 0 }

/-! ### Thermal protection (R557 to R561) -/

/-- The highest of 64 readings and its lowest sensor. -/
def hottest : List (Nat × Int) → Option (Nat × Int)
  | [] => none
  | (i, t) :: l => match hottest l with
    | some (j, u) => some (if t < u then (j, u) else (i, t))
    | none => some (i, t)

/-- Thresholds of the levels: one below the one before it acts as that one (R563). -/
def levelThresholds (s : State) : List Nat :=
  let w := rg s .thmThr
  let a := fld w 15 8
  let b := max a (fld w 23 16)
  [a, b, max b (fld w 31 24)]

/-- MAX of the latest sample. -/
def thermMax (s : State) : Int := sext 8 (rf s .thmStat 0 7 0)

/-- The level of phj_throt_req: what the samples since REQ was reached ask for, while THM.CTRL.REQ_EN is 1 (R558; bit 18 of the stored
word is the samples' request). -/
def throtReq (s : State) : Bool := bitOf (rg s .thmCtrl) 0 && bitOf (rg s .thmStat) 18

/-- The level of phj_therm_trip: high while MAX is at or above TRIP (R560). -/
def thermTrip (s : State) : Bool := decide ((rf s .thmCtrl 0 23 16 : Int) ≤ thermMax s)

/-- THM.STAT: both outputs at the level they have now. -/
def readThmStat (s : State) : Word := setFld (setFld (rg s .thmStat) 18 18 (b2n (throtReq s))) 19 19 (b2n (thermTrip s))

/-- The edge of the last sample. -/
def lastTherm : Nat := 1170

/-- THERMAL_SAMPLE: readings, MAX, PEAK, the request, the automatic level, the trip output (R557 to R560). A sensor that the
sample gives no reading for reads a free value (log entry 5). -/
def doThermal (temps : List (BitVec 8)) (s : State) : State :=
  let t := fun (i : Nat) => temps.getD i (Config.sensor s.free i)
  let rd := (List.range 64).map fun i => (i, sext 8 (t i).toNat)
  let first := !bitOf (rg s .thmTs 0) 8
  let s1 := (List.range 64).foldl (fun s i => setRg s .thmTs i (BitVec.ofNat 32 ((t i).toNat + 256)))
    { setLast s lastTherm with free := s.free + 1 }
  match hottest rd with
  | none => s1
  | some (i, m) =>
    let old := rg s .thmStat
    let byte := fun (v : Int) => (v % 256).toNat
    let peak := if first ∨ sext 8 (fld old 31 24) < m then byte m else fld old 31 24
    let ctl := rg s .thmCtrl
    let hyst : Int := fld ctl 7 4
    let req : Int := fld (rg s .thmThr) 7 0
    let on := decide (req ≤ m) || (bitOf old 18 && decide (req - hyst ≤ m))
    let lv := fld old 17 16
    let thr := levelThresholds s
    let comp := (thr.filter fun (v : Nat) => decide ((v : Int) ≤ m)).length
    let below := decide (0 < lv ∧ m < (thr.getD (lv - 1) 0 : Int) - hyst)
    let n := if below then s.dwell + 1 else 0
    let (lv1, n1) := if lv < comp then (comp, 0) else if max 1 (fld ctl 15 8) ≤ n then (lv - 1, 0) else (lv, n)
    let w := BitVec.ofNat 32 (byte m + 256 * i + 65536 * lv1 + 262144 * b2n on + 16777216 * peak)
    { setRg s1 .thmStat 0 w with dwell := n1 }

end Sys2Proof.Machine
end

