-- ==== Sys2Proof/Machine/Crypto.lean ====
section
/-! DEFINITION. The two checks a Clele image carries: CRC-32C over its structural section and HMAC-SHA-256 over the words
before its tag (R421, R514, R516). The spec names the two functions; their text is the published one (log entry 7). -/

namespace Sys2Proof.Machine

/-! ### CRC-32C -/

/-- One bit of the reflected division by the Castagnoli polynomial. -/
def crcBit (c : Word) : Word := if bitOf c 0 then (c >>> 1) ^^^ 0x82F63B78 else c >>> 1

/-- One byte. -/
def crcByte (c : Word) (b : Byte) : Word := (List.range 8).foldl (fun c _ => crcBit c) (c ^^^ b.setWidth 32)

/-- CRC-32C of bytes. -/
def crc32c (bs : List Byte) : Word := ~~~(bs.foldl crcByte 0xFFFFFFFF)

/-- The bytes of image words, each little-endian (R514). -/
def imageBytes (ws : List Word) : List Byte := ws.flatMap fun w => natBytes 4 w.toNat

/-! ### SHA-256 and HMAC -/

/-- Round constants. -/
def shaK0 : List Word := [
  0x428A2F98, 0x71374491, 0xB5C0FBCF, 0xE9B5DBA5, 0x3956C25B, 0x59F111F1, 0x923F82A4, 0xAB1C5ED5,
  0xD807AA98, 0x12835B01, 0x243185BE, 0x550C7DC3, 0x72BE5D74, 0x80DEB1FE, 0x9BDC06A7, 0xC19BF174,
  0xE49B69C1, 0xEFBE4786, 0x0FC19DC6, 0x240CA1CC, 0x2DE92C6F, 0x4A7484AA, 0x5CB0A9DC, 0x76F988DA,
  0x983E5152, 0xA831C66D, 0xB00327C8, 0xBF597FC7, 0xC6E00BF3, 0xD5A79147, 0x06CA6351, 0x14292967]

/-- Round constants, second half. -/
def shaK1 : List Word := [
  0x27B70A85, 0x2E1B2138, 0x4D2C6DFC, 0x53380D13, 0x650A7354, 0x766A0ABB, 0x81C2C92E, 0x92722C85,
  0xA2BFE8A1, 0xA81A664B, 0xC24B8B70, 0xC76C51A3, 0xD192E819, 0xD6990624, 0xF40E3585, 0x106AA070,
  0x19A4C116, 0x1E376C08, 0x2748774C, 0x34B0BCB5, 0x391C0CB3, 0x4ED8AA4A, 0x5B9CCA4F, 0x682E6FF3,
  0x748F82EE, 0x78A5636F, 0x84C87814, 0x8CC70208, 0x90BEFFFA, 0xA4506CEB, 0xBEF9A3F7, 0xC67178F2]

/-- Initial hash words. -/
def shaH : List Word := [
  0x6A09E667, 0xBB67AE85, 0x3C6EF372, 0xA54FF53A, 0x510E527F, 0x9B05688C, 0x1F83D9AB, 0x5BE0CD19]

/-- Rotate right. -/
def ror (w : Word) (n : Nat) : Word := w.rotateRight n

/-- The message schedule after the first 16 words, newest word first in `acc`. -/
def shaMore : Nat → List Word → List Word
  | 0, acc => acc
  | n + 1, acc =>
    let g := fun i => acc.getD i 0
    let a := g 14
    let b := g 1
    let s0 := ror a 7 ^^^ ror a 18 ^^^ (a >>> 3)
    let s1 := ror b 17 ^^^ ror b 19 ^^^ (b >>> 10)
    shaMore n ((g 15 + s0 + g 6 + s1) :: acc)

/-- One round on the eight working words. -/
def shaRound (v : List Word) (k : Word × Word) : List Word :=
  let g := fun i => v.getD i 0
  let e := g 4
  let a := g 0
  let t1 := g 7 + (ror e 6 ^^^ ror e 11 ^^^ ror e 25) + ((e &&& g 5) ^^^ (~~~e &&& g 6)) + k.1 + k.2
  let t2 := (ror a 2 ^^^ ror a 13 ^^^ ror a 22) + ((a &&& g 1) ^^^ (a &&& g 2) ^^^ (g 1 &&& g 2))
  [t1 + t2, a, g 1, g 2, g 3 + t1, e, g 5, g 6]

/-- Four bytes as a big-endian word. -/
def beWord (bs : List Byte) : Word := BitVec.ofNat 32 (leNat bs.reverse)

/-- One block of 64 bytes. -/
def shaBlock (h : List Word) (bs : List Byte) : List Word :=
  let m := (List.range 16).map fun i => beWord ((bs.drop (4 * i)).take 4)
  let w := (shaMore 48 m.reverse).reverse
  let v := ((shaK0 ++ shaK1).zip w).foldl shaRound h
  (h.zip v).map fun p => p.1 + p.2

/-- Blocks of a padded message. -/
def shaBlocks : Nat → List Word → List Byte → List Word
  | 0, h, _ => h
  | n + 1, h, bs => shaBlocks n (shaBlock h (bs.take 64)) (bs.drop 64)

/-- SHA-256 of bytes, as 32 bytes. -/
def sha256 (bs : List Byte) : List Byte :=
  let n := (bs.length + 9 + 63) / 64
  let pad := bs ++ [0x80] ++ List.replicate (n * 64 - bs.length - 9) 0 ++ (natBytes 8 (bs.length * 8)).reverse
  (shaBlocks n shaH pad).flatMap fun w => (natBytes 4 w.toNat).reverse

/-- HMAC-SHA-256 with a 32-byte key. -/
def hmacSha256 (key bs : List Byte) : List Byte :=
  let k := key ++ List.replicate (64 - key.length) 0
  let inner := sha256 (k.map (fun b => b ^^^ 0x36) ++ bs)
  sha256 (k.map (fun b => b ^^^ 0x5C) ++ inner)

end Sys2Proof.Machine
end

