-- ==== Sys2Proof/Machine/Bitstream.lean ====
section
/-! DEFINITION. Loading a Clele image: commands, the image's words, the checks in their order, applying, the seal (R67, R94,
R95, R102, R121, R131, R197, R321, R514 to R524). -/

namespace Sys2Proof.Machine

/-! ### Commands (R517, R518, R521) -/

/-- phj_lc_state as last sampled. -/
def lcState (s : State) : Nat := rf s .sboxSec 0 19 16

/-- The self-test has not completed (R517). -/
def notReady (s : State) : Bool := decide (s.life = .starting ∨ s.life = .coldHeld)

/-- Some fill sequencer is busy or has a queued launch. -/
def fillsBusy (s : State) : Bool :=
  (busyAgents s).any fun a => decide (a < 32) && (!(liveCtxs s a).isEmpty || (loadedCtx s a).isSome || !(s.agent a).queue.isEmpty)

/-- The reason a load command is refused, in the order of R517's table. -/
def loadRefusal (s : State) (part : Bool) : Option Nat :=
  if loading s then some 1
  else if notReady s then some 2
  else if !part && s.sealed_ then some 3
  else if part && !bitOf (rg s .cfgStat) 4 then some 4
  else if part && (anyChanBusy s || fillsBusy s) then some 5
  else if lcState s = 0xF then some 6
  else none

/-- CFG.RESULT. -/
def setResult (s : State) (code item : Nat) : State := setRg s .cfgResult 0 (BitVec.ofNat 32 (code + 65536 * (item % 65536)))

/-- CFG.CMD LOAD or PARTIAL. -/
def doLoad (part : Bool) (s : State) : State :=
  match loadRefusal s part with
  | some code => setResult s code 0
  | none => { setResult s 0 0 with loader := ⟨.receiving, part, [], s.loader.result, false, false, 0⟩ }

/-- The load is over; a seal that waited takes effect (R524). -/
def loadOver (s : State) (result : Nat) : State :=
  let s1 := { s with loader := { s.loader with phase := .idle, result := result } }
  if s1.sealWant then genBump { s1 with sealed_ := true, sealWant := false } genConfig else s1

/-- A load given up before any register is written: code 0x0C (R518, R523). -/
def abandonLoad (s : State) : State := loadOver (setResult s 0x0C 0) s.loader.result

/-- CFG.CMD CANCEL. -/
def doCancel (s : State) : State :=
  match s.loader.phase with
  | .receiving | .checking _ => abandonLoad s
  | _ => s

/-- CFG.CMD with the reserved operation. -/
def doCfgReserved (s : State) : State := setResult s 0x0D 0

/-- Word `i` of an image as a number. -/
def imgWord (ws : List Word) (i : Nat) : Nat := (ws.getD i 0).toNat

/-- A word written into the aperture; false where it is answered SLVERR (R518). -/
def takeWord (s : State) (v : Word) : State × Bool :=
  let l := s.loader
  if l.phase = .receiving then
    let ws := l.words ++ [v]
    let full := decide (3 ≤ ws.length ∧ imgWord ws 2 ≤ ws.length)
    (setRf { s with loader := { l with words := ws, phase := if full then .checking s.clk else .receiving } } .cfgRx 0 15 0
      (min 65535 ws.length), true)
  else (s, false)

/-- LOAD_WORD. -/
def doLoadWord (w : Who) (v : Word) (s : State) : State := let (s1, ok) := takeWord s v; answerWith s1 w 0 (!ok)

/-- CFG.SEAL.GO (R524). -/
def doSeal (s : State) : State :=
  if loading s then { s with sealWant := true } else if s.sealed_ then s else genBump { s with sealed_ := true } genConfig

/-! ### Items (R515, R516) -/

/-- The sections' register sets. -/
def structuralSet : List RegId :=
  [.regionCtrl, .regionPbase, .regionXbase, .regionRows, .regionColmaskLo, .regionColmaskHi, .regionPerm, .regionStat, .winCtrl,
    .lpCrdInit, .lotSeed]
def freeSet : List RegId :=
  [.colWheel, .caravanCtrl, .caravanWin, .lotCtrl, .lotTicket, .porterSplit, .fchSel, .chgProfCtrl, .chgProfGeom, .chgProfFbase,
    .chgProfEsc, .chgSrSeed, .chgAnxNext, .chgAnxEnd, .satCtrl, .regCtrl, .regLevel, .regPassPg, .regClassTarget,
    .regClassLimit, .regClassRsv, .fuIe, .fuEsc, .fuCtrl, .fuCurfew, .fuQuiet, .fuWin, .itinWord, .pwrDom]

/-- One item: word address relative to the privileged view, data words. -/
structure Item where
  addr : Nat
  data : List Word
  deriving DecidableEq, Repr

/-- Cut a section into items: the items before the first malformed one, and whether all are well formed. -/
def cutItems : Nat → List Word → List Item × Bool
  | 0, ws => ([], ws.isEmpty)
  | _ + 1, [] => ([], true)
  | _ + 1, [_] => ([], false)
  | n + 1, a :: c :: t =>
    let k := c.toNat
    if a.toNat < 2 ^ 22 ∧ 1 ≤ k ∧ k < 65536 ∧ k ≤ t.length then
      let (l, ok) := cutItems n (t.drop k)
      (⟨a.toNat, t.take k⟩ :: l, ok)
    else ([], false)

/-- The register of each data word of an item. -/
def Item.targets (it : Item) : List (Option (RegId × Nat) × Word) :=
  ((List.range it.data.length).zip it.data).map fun e => (regAt (4 * (it.addr + e.1)), e.2)

/-- Every word of the item lies in the set. -/
def Item.inSet (it : Item) (set : List RegId) : Bool :=
  it.targets.all fun e => match e.1 with | some (id, _) => set.contains id | none => false

/-- A section's items, and the index of the first item that fails R515 or R516. -/
def checkItems (ws : List Word) (set : List RegId) : List Item × Option Nat :=
  let (l, ok) := cutItems ws.length ws
  let bad := ((List.range l.length).zip l).find? fun e => !e.2.inSet set
  (l, match bad with | some e => some e.1 | none => if ok then none else some l.length)

/-! ### Writing registers from an image (R103, R516, R520) -/

/-- The sources of unit `n` that may escalate, and those with an enable (R464, R493). -/
def sourceMask (ok : Nat → Bool) : Word := BitVec.ofNat 32 (((List.range 32).filter ok).map (2 ^ ·)).sum

/-- The RW fields of a register, and its RWL fields (R12, R493). -/
def softMask (id : RegId) (i : Nat) : Word :=
  match id with
  | .fuIe => sourceMask (srcListed i)
  | .fuWin => if i < 64 then id.row.rw else 0
  | _ => id.row.rw
def sealMask (id : RegId) (i : Nat) : Word :=
  match id with
  | .fuEsc => sourceMask fun b => srcListed i b && !safeSource i b
  | _ => id.row.rwl

/-- The Steward writes one register word. -/
def imageWrite (s : State) (id : RegId) (i : Nat) (v : Word) : State :=
  match id with
  | .colWheel => wheelWrite s i v
  | .itinWord => storeWord s .itin i v
  | .regClassRsv => doRsvWrite i v s
  | .regClassTarget => doTargetWrite i v s
  | .pwrDom => doDomTarget i v s
  | .chgSrSeed => doSrSeed i v s
  | .porterSplit => doSplit i v s
  | .fchSel => doFchSel v s
  | .satCtrl => doSwapMode i v s
  | _ => let m := softMask id i ||| sealMask id i; setRg s id i ((rg s id i &&& ~~~m) ||| (v &&& m))

/-- Write a list of register words in order. -/
def writeAll (s : State) (l : List (Option (RegId × Nat) × Word)) : State :=
  l.foldl (fun s e => match e.1 with | some (id, i) => imageWrite s id i e.2 | none => s) s

/-- The number of registers of a family. -/
def RegId.size (id : RegId) : Nat := (id.row.dims.map Prod.snd).prod

/-- The reset step: every register of both sets at its reset value (R520). -/
def resetSets (s : State) : State :=
  let set := (structuralSet ++ freeSet).filter fun id => decide (id ≠ .pwrDom)
  let s1 := { s with
    regs := s.regs.filter fun e => !set.any fun id => id.num == e.1 / 1048576
    wheels := s.wheels.filter fun e => decide (e.1 / 4096 = s.wheelSet % 2)
    store := [], upsOther := s.upsOther.filter fun e => decide (Store.itin.site 16384 ≤ e.1) }
  let doms := (s.regs.filter fun e => e.1 / 1048576 == RegId.pwrDom.num).map fun e => e.1 % 1048576
  let s4 := doms.foldl (fun s d => doDomTarget d 0 s) s1
  (List.range 32).foldl (fun s x => doSrSeed x 1 s) (ovsUpdate (setRg (setRg { s4 with decay := [] } .regMult 0 0) .regRsvSum 0 0))

/-! ### Checks of the configuration as it will stand (R519 order 5) -/

/-- Two regions share a physical cell. -/
def sharedCells (a b : Region) : Bool :=
  (a.mask &&& b.mask) != 0 && decide (a.rowBase < b.rowBase + b.rowCount ∧ b.rowBase < a.rowBase + a.rowCount)

/-- A region's apertures as (base, length). -/
def Region.apertures (r : Region) : List (Nat × Nat) := if r.kind = 2 then [(r.pbase, r.cap), (r.xbase, r.cap)] else [(r.pbase, r.cap)]

/-- Two ranges overlap. -/
def overlap (a b : Nat × Nat) : Bool := decide (a.1 < b.1 + b.2 ∧ b.1 < a.1 + a.2)

/-- No range overlaps a later one. -/
def disjoint : List (Nat × Nat) → Bool
  | [] => true
  | a :: t => t.all (fun b => !overlap a b) && disjoint t

/-- No region shares a cell with a later one. -/
def cellsApart : List Region → Bool
  | [] => true
  | a :: t => t.all (fun b => !sharedCells a b) && cellsApart t

/-- R94 and R95 over the valid descriptors. -/
def regionsOk (s : State) : Bool :=
  let l := ((List.range 64).map (region s)).filter Region.valid
  let aps := l.flatMap Region.apertures
  l.all (fun r => !r.bad s) && cellsApart l && aps.all (fun a => decide (a.1 + a.2 ≤ 2 ^ 30)) && disjoint aps

/-- The owner in a direction of the lane of column `c` at position `p`. -/
def ownerOf (s : State) (set c p : Nat) (d : Dir) : Nat :=
  let w := Tab.get (fun _ => 0) s.wheels (set * 4096 + c * 64 + p)
  match d with
  | .rd => fld w 6 0
  | .wr => fld w 22 16

/-- The owners of every column at a position. -/
def ownersAt (s : State) (set p : Nat) (d : Dir) : List Nat := (List.range 64).map fun c => ownerOf s set c p d

/-- The most lanes an owner may have in a pair of positions, and in one position (R121). -/
def pairLimit (o : Nat) (d : Dir) : Nat := if 0x10 ≤ o ∧ o < 0x20 then (match d with | .rd => 4 | .wr => 2) else if 0x20 ≤ o ∧ o < 0x30 then 1 else 128
def oneLimit (o : Nat) : Nat := if 0x30 ≤ o ∧ o < 0x40 then 1 else if 0x40 ≤ o ∧ o < 0x44 then 2 else 64

/-- Each owner of a list is within a limit. -/
def within (l : List Nat) (lim : Nat → Nat) : Bool := l.all fun o => decide (o = 0 ∨ (l.filter (· == o)).length ≤ lim o)

/-- The port limits of R121 in one direction; pairs start at odd positions and wrap. -/
def limitsOk (s : State) (set : Nat) (d : Dir) : Bool :=
  ((List.range 64).all fun p => within (ownersAt s set p d) oneLimit) &&
  ((List.range 32).all fun h =>
    within (ownersAt s set (2 * h + 1) d ++ ownersAt s set ((2 * h + 2) % 64) d) (fun o => pairLimit o d))

/-- Every column has an open lane of a direction (R67). -/
def openOk (s : State) (set : Nat) (d : Dir) : Bool :=
  (List.range 64).all fun c => (List.range 64).any fun p => ownerOf s set c p d == 0

/-- The codes written are those of R102. -/
def codesOk (ws : List (Option (RegId × Nat) × Word)) : Bool :=
  ws.all fun e => match e.1 with
    | some (.colWheel, _) => ownerLegal (fld e.2 6 0) && ownerLegal (fld e.2 22 16)
    | _ => true

/-- The members of chain `n`, none where it is not valid. -/
def chainMembers (s : State) (n : Nat) : List Nat :=
  let w := rg s .caravanCtrl n
  if bitOf w 0 then (List.range (fld w 9 5)).map fun k => (fld w 4 1 + k) % 16 else []

/-- SWAP_MODE of each port as the image leaves it: the last word written to SAT[x].CTRL, else the register. -/
def swapModeOf (s : State) (ws : List (Option (RegId × Nat) × Word)) (x : Nat) : Nat :=
  match ws.reverse.find? fun e => decide (e.1 = some (RegId.satCtrl, x)) with
  | some e => fld e.2 1 0
  | none => rf s .satCtrl x 1 0

/-- R197 over the chains. -/
def caravansOk (s : State) (ws : List (Option (RegId × Nat) × Word)) : Bool :=
  let all := (List.range 8).flatMap (chainMembers s)
  ((List.range 8).all fun n =>
    let c := rg s .caravanCtrl n
    let w := rg s .caravanWin n
    !bitOf c 0 || decide (2 ≤ fld c 9 5 ∧ fld c 9 5 ≤ 16 ∧ fld w 9 0 + fld w 26 16 ≤ 1024)) &&
  decide all.Nodup && all.all fun x => decide (swapModeOf s ws x = 0)

/-! ### The image (R514, R519, R521) -/

/-- The lengths an image's header gives its sections. -/
def imgS (ws : List Word) : Nat := imgWord ws 3
def imgN (ws : List Word) : Nat := imgWord ws 4

/-- The sections of an image. -/
def imgStructural (ws : List Word) : List Word := (ws.drop 8).take (imgS ws)
def imgFree (ws : List Word) : List Word := (ws.drop (8 + imgS ws)).take (imgN ws)

/-- Check 1. -/
def headerCheck (ws : List Word) (part : Bool) : Bool :=
  let w1 := ws.getD 1 0
  decide (imgWord ws 0 = 0x504A0001 ∧ fld w1 7 0 = 1 ∧ fld w1 31 16 = 0x1024 ∧ imgWord ws 2 = 16 + imgS ws + imgN ws ∧
    imgWord ws 2 ≤ 32768 ∧ bitOf w1 8 = part) &&
  (if part then decide (imgS ws = 0) else decide (ws.getD 6 0 = crc32c (imageBytes (imgStructural ws))))

/-- A key word as the Steward reads it: 0 where it cannot be corrected (R394, R413). -/
def keyWord (s : State) (j : Nat) : Word := let r := loadWord s .sbox j; if r.ue then 0 else r.data

/-- What the Steward's reads of the key find is counted and raised (R394). -/
def keyReads (s : State) : State := (List.range 8).foldl (fun s j => sboxFound s j (loadWord s .sbox j)) s

/-- The key and the tag as bytes (R413, R516). -/
def keyBytes (s : State) : List Byte := (List.range 8).flatMap fun j => natBytes 4 (keyWord s j).toNat
def tagOk (s : State) (ws : List Word) : Bool :=
  let n := imgWord ws 2 - 8
  decide (hmacSha256 (keyBytes s) (imageBytes (ws.take n)) = imageBytes ((ws.drop n).take 8))

/-- The tag is checked (R521). -/
def tagChecked (s : State) : Bool :=
  match lcState s with
  | 0 => false
  | 5 => bitOf (rg s .sboxSec) 0
  | _ => true

/-- The Steward may use the key: it is locked, and no wipe holds the port (R414, R416). Reads of it that a wipe keeps waiting find the
key unlocked when it ends. -/
def keyUsable (s : State) : Bool := bitOf (rg s .sboxSec) 0 && s.wipeEnd.isNone

/-- Check 2. -/
def authCheck (s : State) (ws : List Word) : Bool :=
  !s.loader.wiped && (!tagChecked s || (keyUsable s && tagOk s ws))

/-- The first item of the image's sections that writes a register of `ids` (log entry 8). -/
def itemOf (l : List Item) (ids : List RegId) : Nat :=
  match ((List.range l.length).zip l).find? fun e => e.2.targets.any fun t => match t.1 with | some (id, _) => ids.contains id | none => false with
  | some e => e.1
  | none => 0

/-- The words an image writes, in order. -/
def imageTargets (ws : List Word) : List (Option (RegId × Nat) × Word) :=
  ((cutItems ws.length (imgStructural ws)).1 ++ (cutItems ws.length (imgFree ws)).1).flatMap Item.targets

/-- The set an image's wheel words, or its reset step, leave to be exchanged in; else the active set. -/
def wheelToCheck (s : State) (ws : List (Option (RegId × Nat) × Word)) : Nat :=
  if !s.loader.part || ws.any (fun e => match e.1 with | some (.colWheel, _) => true | _ => false) then 1 - s.wheelSet % 2
  else s.wheelSet % 2

/-- Check 5: the failing item, or none. -/
def configCheck (s : State) (ws : List Word) : Option Nat :=
  let ts := imageTargets ws
  let c := writeAll (if s.loader.part then s else resetSets s) ts
  let set := wheelToCheck s ts
  let sIt := (cutItems ws.length (imgStructural ws)).1
  let nIt := (cutItems ws.length (imgFree ws)).1
  if !regionsOk c then some (itemOf sIt (structuralSet.take 8))
  else if !(codesOk ts && openOk c set .rd && openOk c set .wr && limitsOk c set .rd && limitsOk c set .wr) then
    some (itemOf nIt [.colWheel])
  else if !caravansOk c ts then some (itemOf nIt [.caravanCtrl, .caravanWin, .satCtrl])
  else none

/-- The first failing check: code and item. -/
def imageVerdict (s : State) : Option (Nat × Nat) :=
  let ws := s.loader.words
  if !headerCheck ws s.loader.part then some (7, 0)
  else if !authCheck s ws then some (8, 0)
  else if s.loader.part && ws.getD 6 0 != rg s .winDigest then some (0x0B, 0)
  else
    match (checkItems (imgStructural ws) structuralSet).2, (checkItems (imgFree ws) freeSet).2 with
    | some i, _ => some (9, i)
    | none, some i => some (9, i)
    | none, none => (configCheck s ws).map fun i => (0x0A, i)

/-- Steps of applying: the reset step of a full load and one per data word (R522). -/
def resetSteps (s : State) : Nat := if s.loader.part then 0 else 256
def applySteps (s : State) : Nat := resetSteps s + (imageTargets s.loader.words).length

/-- IMAGE_CHECK_DONE. -/
def doImageCheck (s : State) : State :=
  match s.loader.phase with
  | .checking _ =>
    let s := if headerCheck s.loader.words s.loader.part && tagChecked s && keyUsable s then keyReads s else s
    match imageVerdict s with
    | some (code, item) =>
      loadOver (raise (setResult s code item) fuStw (if code = 8 then 3 else 4)) 6
    | none =>
      { s with loader := { s.loader with phase := .applying s.clk (s.clk + 4 * applySteps s), auth := tagChecked s, written := 0 } }
  | _ => s

/-- One step of applying. -/
def applyStep (s : State) : State :=
  let n := s.loader.written
  let s1 := { s with loader := { s.loader with written := n + 1 } }
  if n + 1 < resetSteps s then s1
  else if n + 1 = resetSteps s then resetSets s1
  else match (imageTargets s.loader.words)[n - resetSteps s]? with
    | some e => writeAll s1 [e]
    | none => s1

/-- The next step of applying falls at this MCLK edge. -/
def applyTick (s : State) : State :=
  match s.loader.phase with
  | .applying a _ => if mclkEdge s ∧ a < s.clk ∧ s.loader.written < applySteps s then applyStep s else s
  | _ => s

/-- The lottery LFSRs at the end of a full load (R131), and the Changers' (R321). -/
def seedAll (s : State) : State :=
  let seed := rg s .lotSeed
  let one := fun (w : Word) => if w = 0 then 1 else w
  let s1 := (List.range 64).foldl (fun s c => setRg s .colLotLfsr c (one (seed ^^^ BitVec.ofNat 32 (c * 0x01010101)))) s
  (List.range 32).foldl (fun s x => setRg s .chgSrState x (one (rg s .chgSrSeed x))) s1

/-- The digest and the counts of a load that has completed (R520, R535). -/
def loadedRegs (s : State) : State :=
  let ws := s.loader.words
  let s1 := setRg s .cfgImage 0 (ws.getD 5 0)
  let s2 := setRf (setRf s1 .cfgStat 0 5 5 (b2n s.loader.auth)) .cfgStat 0 6 6 0
  if s.loader.part then bump s2 .cfgLoads 0 31 16
  else
    let s3 := setRf (bump (seedAll s2) .cfgLoads 0 15 0) .cfgStat 0 4 4 1
    let s4 := setRg s3 .winDigest 0 (crc32c (imageBytes (imgStructural ws)))
    { s4 with caps := Tab.set (fun _ => 0) s4.caps fullVersion (imgWord ws 5) }

/-- APPLY_DONE: LFSRs, digest, counts, the wheel exchange, DONE (R520). -/
def doApplyDone (s : State) : State :=
  match s.loader.phase with
  | .applying _ e =>
    if s.clk < e then s else
    let s1 := (List.range (applySteps s - s.loader.written)).foldl (fun s _ => applyStep s) s
    let wheel := wheelToCheck s (imageTargets s.loader.words) ≠ s.wheelSet % 2
    let s2 := genBump (loadedRegs s1) genConfig
    loadOver (if wheel then askExchange s2 else s2) 5
  | _ => s

/-- A warm reset meets a load (R523). -/
def warmLoad (s : State) : State :=
  match s.loader.phase with
  | .idle => s
  | .applying _ _ => loadOver (genBump (setRf s .cfgStat 0 6 6 1) genConfig) s.loader.result
  | _ => abandonLoad s

/-- The time by which the checks are over (R522): 64 and 8192 MCLK. -/
def checkBound : Nat := (64 + 8192) * 4

/-- CFG.STAT.STATE. -/
def cfgState (s : State) : Nat :=
  if notReady s then 0 else
  match s.loader.phase with
  | .idle => s.loader.result
  | .receiving => 2
  | .checking _ => 3
  | .applying _ _ => 4

end Sys2Proof.Machine
end

