-- ==== Sys2Proof/Machine/Resets.lean ====
section
/-! DEFINITION. Resets of port groups, porters and link ports; cold and warm reset, the self-test's repairs, the rails (R60,
R61, R175 to R180, R203, R270, R299, R390, R408, R440, R441, R511, R542, R553 to R556). -/

namespace Sys2Proof.Machine

/-! ### Edge 0 (R175, R270, R408) -/

/-- Index of a master's reset. -/
def rstOf : Master → Nat
  | .pg g => rstPg (g % 16)
  | .pt p => rstPorter (p % 16)
  | .lk l => rstLink (l % 4)

/-- The agents a reset stops, and DETAIL of its aborts (R270). -/
def rstAgents (m : Nat) : List Nat :=
  if m < 16 then [m, 16 + m] else if m < 32 then (List.range 16).map (chanAgent (m - 16)) else []
def rstDetail (m : Nat) : Nat := if m < 16 then 2 else 1

/-- A reset of master `m` starts at this edge, by its line or by command; one in progress goes on. -/
def beginRst (m : Nat) (line : Bool) (s : State) : State :=
  let r := s.rst m
  if r.active then s.setRst m { r with lineLow := r.lineLow || line, cmd := r.cmd || !line }
  else
    let s1 := s.setRst m ⟨true, r.lineLow || line, !line, false, false, false, s.clk, s.run, 0⟩
    let s2 := abortAgents s1 m (rstAgents m) (rstDetail m)
    if m < 16 then enterReap s2 (2 ^ m) else s2

/-! ### Edge 1 (R175 to R177, R203, R440, R511, R556) -/

/-- A port group's satchel is emptied; its fills in flight complete in their lanes. A member behind the head of a chain owes no exchange
that came before, and joins the rounds to come (R203). -/
def rstSatchel (s : State) (x : Nat) : State :=
  let v := s.sat x
  let empty := { emptySat with nextId := v.nextId, fills := v.fills }
  match chainOf s x with
  | some (c, k + 1) =>
    let done := (s.caravan c.n).rounds.map fun r => if r.2.contains (k + 1) then r else (r.1, r.2 ++ [k + 1])
    (s.setCaravan c.n (c.owed done)).setSat x { empty with ready := true, deaf := true }
  | _ => s.setSat x empty

/-- A Tally unit's setting and open row are cleared; closed rows are still written (R349, R556). -/
def rstTally (s : State) (x : Nat) : State :=
  let t := s.tally x
  s.setTally x { t with set := noTaly, old := noTaly, samp := noTaly, cur := noTaly, fresh := false, oldFresh := false, row := emptyRow,
                        pend := t.pend.filter fun p => p.due.isSome }

/-- The meta buffers of a Changer are cleared (R556). -/
def rstMetas (s : State) (x : Nat) : State := (List.range 8).foldl (fun s p => s.setMetaBuf x p freshMeta) s

/-- Edge 1 of a port-group reset. Slot-port writes sampled before edge 0 commit; no response to them is presented any more (DESIGN CHOICE,
log entry 44: R175 states the commits, and of responses only that reads have none). -/
def pgEdge1 (s : State) (g : Nat) : State :=
  let s1 := filterQueues (clearActive s g) fun k _ => decide (k % 37 ≠ 20 + g)
  let clear := fun (v : SlotDir) => ({ idleDir with batch := v.batch, next := v.next } : SlotDir)
  let one := fun (s : State) (x : Nat) =>
    let s1 := (s.setRdDir x (clear (s.rdDir x))).setWrDir x (clear (s.wrDir x))
    rstMetas (rstTally (rstSatchel (s1.setEscs x []) x) x) x
  let s2 := one (one (s1.setScalar g []) g) (16 + g)
  { s2 with pieces := s2.pieces.filter fun p => !((rstAgents g).contains p.agent && decide (p.rd = .waiting)) }

/-- Edge 1 of a porter reset: no new burst; nothing not yet committed is written. The W beats owed go out with WSTRB all 0
(`sendBeats`). -/
def porterEdge1 (s : State) (p : Nat) : State :=
  let mine := fun (q : Piece) => isChan q.agent && agentPorter q.agent == p && !(decide (q.dst.space = 4 ∧ q.wr = .presented))
  let gone := (s.pieces.filter mine).map Piece.sq
  let s1 := filterQueues s fun k _ => decide (k % 37 ≠ p)
  let lost := fun (u : Use) => match u with
    | .piece sq => gone.contains sq
    | _ => false
  { s1 with
    wrLanes := s1.wrLanes.filter fun w => !lost w.use
    exports := s1.exports.filter fun e => !gone.contains e.sq
    pieces := s1.pieces.filter fun q => !mine q }

/-- Every unanswered packet of link port `l` is treated as NACKed with LINK_RESET (R440). -/
def nackAll (s : State) (l : Nat) : State :=
  let v := s.link l
  let sqs := ((v.outQ.map OutPkt.sqs) ++ (v.sent.map SentPkt.sqs)).filter fun q => !q.isEmpty
  sqs.eraseDups.foldl (fun s q => nackPacket (s.setLink l { s.link l with outQ := (s.link l).outQ.filter OutPkt.answer, sent := [] }) l q 0xB) s

/-- Edge 1 of a link port reset: windows closed, packets NACKed locally, credits 0. An inbound packet whose flits have not all arrived is
discarded from its first uncommitted stripe on; one that has arrived whole is written and answered, and answers wait for the peer's
credits (R172, R177; log entry 44). -/
def linkEdge1 (s : State) (l : Nat) : State :=
  let s1 := nackAll (linkResetWins s l) l
  let v := s1.link l
  let keep := v.inQ.filter fun q => q.owed == 0 && !q.drop
  let kept := fun (u : Use) => match u with
    | .inbound m id => m != l || keep.any fun q => q.id == id / 16
    | _ => false
  let lost := fun (u : Use) => match u with
    | .inbound m id => m == l && !keep.any fun q => q.id == id / 16
    | _ => false
  let s2 := filterQueues s1 fun k e => decide (k % 37 ≠ 16 + l) || kept e.use
  { s2 with wrLanes := s2.wrLanes.filter fun w => !lost w.use }.setLink l
    { idleLink with seq := v.seq, nextIn := v.nextIn, inQ := keep, outQ := v.outQ.filter OutPkt.answer }

/-- Edge 1 of the reset of master `m`. -/
def rstEdge1 (s : State) (m : Nat) : State :=
  if m < 16 then pgEdge1 s m else if m < 32 then porterEdge1 s (m - 16) else linkEdge1 s (m - 32)

/-- Resets whose edge 1 is this running edge. -/
def rstTick (s : State) : State :=
  if heldEdge s then s else
  ((s.rsts.filter fun e => e.2.active && decide (s.run = e.2.runAt + 1)).map Prod.fst).foldl rstEdge1 s

/-! ### Completion (R178 to R180) -/

/-- The master of a lane belongs to the master in reset. -/
def rstLane (m : Nat) (master : Nat) : Bool :=
  if m < 16 then decide (master = m ∨ master = 16 + m ∨ master = masterScalar m)
  else if m < 32 then decide (master = masterPorter (m - 16)) else decide (master = masterLink (m - 32))

/-- No deferral buffer holds an entry (R115). -/
def buffersEmpty (s : State) : Bool := s.cols.all fun e => e.2.defer.isEmpty

/-- The reclaim of master `m` is done: lanes over, AXI answered, inbound packets written, runs stopped, buffers drained. -/
def reclaimed (s : State) (m : Nat) : Bool :=
  decide ((s.rst m).runAt < s.run) && buffersEmpty s &&
  !(s.rdLanes.any fun l => rstLane m l.master) && !(s.wrLanes.any fun l => rstLane m l.master) &&
  !(decide (16 ≤ m ∧ m < 32) && s.bursts.any fun b => b.porter == m - 16) &&
  (decide (m < 32) || (s.link (m - 32)).inQ.isEmpty) &&
  !(s.aborts.any fun b => b.rsts.contains m && !b.fired)

/-- A link port whose reset is over returns its whole allowance (R171, R177). -/
def allowance (s : State) (m : Nat) : State :=
  if m < 32 ∨ (s.rst m).active ∨ (s.rst m).lineLow then s else
  let l := m - 32
  let s := (List.range 4).foldl (fun s k => freshCredit s (linkCredit l k)) s
  s.setLink l { s.link l with
    backHdr := inHdr s l, backData := inData s l, owedHdr := 0, owedData := 0, allowHdr := inHdr s l, allowData := inData s l }

/-- The reset is over in this edge: the master samples again from a later one (R180). -/
def Rst.over (r : Rst) (s : State) : Rst := { r with endAt := if r.active || r.lineLow then 0 else s.clk + 1 }

/-- RESET_COMPLETE: completion is asserted, the credits of a porter's channels being back; with its line high the master is out of
reset (R178, R180). -/
def doRstComplete (m : Nat) (s : State) : State :=
  let r := s.rst m
  if r.active ∧ reclaimed s m then
    let s1 := if 16 ≤ m ∧ m < 32 then restoreCredits s (m - 16) else s
    allowance (s1.setRst m (Rst.over { r with active := false, cmd := false, done := true } s)) m
  else s

/-- RESET_LINE_RELEASE. -/
def doRstRelease (m : Nat) (s : State) : State :=
  let r := s.rst m
  if !r.lineLow then s
  else if r.active then s.setRst m { r with lineLow := false, early := true }
  else allowance (s.setRst m (Rst.over { r with lineLow := false, done := false } s)) m

/-- Completion of a command's reset falls one edge after it rose, its line being high (R178). -/
def rstDoneEnds (s : State) : State :=
  ((s.rsts.filter fun e => e.2.done && !e.2.active && !e.2.lineLow).map Prod.fst).foldl
    (fun s m => s.setRst m { s.rst m with done := false }) s

/-- RECLAIM_TIMEOUT: an AXI response is still missing at edge 4096 (R179). -/
def doReclaimTimeout (p : Nat) (s : State) : State :=
  let r := s.rst (rstPorter p)
  if p < 16 ∧ r.active ∧ !r.timeout ∧ r.runAt + 4096 ≤ s.run ∧ s.bursts.any (fun b => b.porter == p) then
    raise (s.setRst (rstPorter p) { r with timeout := true }) fuPorter 12 p
  else s

/-! ### Cold reset (R553, R554) -/

/-- A cold reset takes force: every register and every domain at its reset value; time stands until the release. -/
def doColdReset (s : State) : State := { State.reset with life := .coldHeld, free := s.free }

/-- COLD_RESET_RELEASE: the divider starts at BCLK edge 0. -/
def doColdRelease (s : State) : State := if s.life = .coldHeld then { s with life := .starting } else s

/-- RESET_KIND_CHANGE: phj_rst_cold is seen high during a warm reset. -/
def doKindChange (s : State) : State :=
  match s.life with
  | .warmHeld => doColdReset s
  | _ => s

/-- Failing rows of bank slot `b` of a tile by the self-test's list, in rising order. -/
def failing (l : List (Nat × Nat × Nat × Nat)) (c t b : Nat) : List Nat :=
  (List.range 2064).filter fun r => l.contains (c, t, b, r)

/-- The self-test's rows of one bank slot: spare rows that fail are dead, user rows that fail take the lowest free spare
rows as first failures; false where more fail than usable spare rows remain (R48, R61). -/
def repairBank (l : List (Nat × Nat × Nat × Nat)) (c t b : Nat) (s : State) : State × Bool :=
  let f := failing l c t b
  let dead := (f.filter fun r => decide (2048 ≤ r)).map (· - 2048)
  let rows := f.filter fun r => decide (r < 2048)
  let good := (List.range 16).filter fun e => !dead.contains e
  let s1 := dead.foldl (fun s e => setSpareRow s c t b e ⟨0, 0, false, true⟩) s
  if good.length < rows.length then (s1, false)
  else ((rows.zip good).foldl (fun s e => setSpareRow s c t b e.2 ⟨e.1, 1, true, false⟩) s1, true)

/-- The self-test's repairs of one tile: spare banks first, then banks 0 to 31 in order (R50, R61). The order, which decides
which failing banks SB0 and SB1 take, is the model's (DESIGN CHOICE, log entry 9); a spare bank taken over here keeps the
remaps of its own failing rows. -/
def repairTile (l : List (Nat × Nat × Nat × Nat)) (c t : Nat) (s : State) : State :=
  let spare := fun (s : State) (d : Nat) =>
    let (s1, ok) := repairBank l c t (32 + d) s
    if ok then s1 else
      let ti := s1.tile c t
      clearBank c t (32 + d) (s1.setTile c t (if d = 0 then { ti with sb0 := ⟨false, true, 0⟩ } else { ti with sb1 := ⟨false, true, 0⟩ }))
  (List.range 32).foldl (fun s b =>
    let (s1, ok) := repairBank l c t b s
    if ok then s1 else
    let ti := s1.tile c t
    match freeSpareBank ti with
    | some 0 => s1.setTile c t { ti with sb0 := ⟨true, true, b⟩ }
    | some _ => s1.setTile c t { ti with sb1 := ⟨true, true, b⟩ }
    | none => if octetOut s1 c t (b / 8) then s1 else withdraw s1 c t (b / 8) (some 1)) (spare (spare s 0) 1)

/-- The repairs of the start-up self-test, from the rows that fail it: a free value (R61, log entry 9). -/
def selfTestRepairs (s : State) : State :=
  let l := Config.selfTestFailures
  let tiles := (l.map fun e => (e.1, e.2.1)).eraseDups
  tiles.foldl (fun s e => if e.1 < 64 ∧ e.2 < 4 then repairTile l e.1 e.2 s else s) s

/-- The edge of READY (R554). -/
def readyEdge : Nat := 331200

/-- SELF_TEST_COMPLETE: READY at BCLK edge 331 200; every link port returns its allowance, and each column's first scrub
request enters its queue (R171, R554, R569). -/
def doSelfTest (s : State) : State :=
  if s.life = .starting ∧ readyEdge ≤ s.clk then
    let s1 := selfTestRepairs { s with life := .ready }
    let s2 := (List.range 4).foldl (fun s l => allowance s (rstLink l)) s1
    (List.range 64).foldl (fun s c => doScrubRequest c s) s2
  else s

/-! ### Warm reset (R555, R556) -/

/-- Every run, shadow and queued launch ends without record, taint or credit restoration; the first activation of a channel
loads its credits (R390, R555). -/
def endAllRuns (s : State) : State :=
  let s1 := stopAllRuns s
  (s1.agents.map Prod.fst).foldl (fun s a => s.setAgent a { s.agent a with queue := [], keep := none })
    { s1 with aborts := s1.aborts.map fun b => { b with pins := [], chans := [] } }

/-- Interrupt pending and active bits, regulation levels and pressures are cleared (R556). -/
def warmClears (s : State) : State :=
  { setRg s .regMult 0 0 with decay := [], intPend := 0, intPulse := 0, intOwner := [], intSel := [] }

/-- The actions of a warm reset at its start edge; it writes no memory array and moves no time. Window entries close after the pending bits
are cleared, so that the transitions raise the window event (R438). -/
def warmWork (s : State) : State :=
  let s0 := endAllRuns { s with life := .warmHeld, warmNext := false }
  let s1 := (List.range 36).foldl (fun s m => (beginRst m false (s.setRst m { s.rst m with active := false }))) s0
  let s2 := warmLoad (pmapAbandon ((s1.cols.map Prod.fst).foldl (abandonCopy (some 6)) s1))
  let s3 := (busyWins s2).foldl (fun s w => closeWin s w (some 0xB)) (warmClears (enterReap s2 (2 ^ 18 - 1)))
  bump (setRf s3 .pwrRst 0 1 0 2) .pwrRst 0 31 16

/-- A warm reset starts. -/
def warmStart (s : State) : State := calm warmWork s

/-- WARM_RESET: phj_rst_n is seen low with phj_rst_cold low (R553). -/
def doWarmReset (s : State) : State :=
  match s.life with
  | .coldHeld => s
  | .starting => doColdReset s
  | .ready | .warmHeld | .warmBusy _ => warmStart s
  | .retained => startExit { s with warmNext := true }
  | .entering _ | .leaving _ _ => { s with warmNext := true }

/-- Every action of the warm reset is done, no earlier than 1200 BCLK after its start (R553, R555). -/
def warmDone (s : State) : Bool :=
  decide ((s.rst 0).at_ + 1200 ≤ s.clk) && !(s.rsts.any fun e => e.2.active) && buffersEmpty s &&
  s.reapEnter == 0 && (busyWins s).isEmpty

/-- The wheel starts at position 0 (R100). -/
def wheelStart (s : State) : State := { s with wheelPos := 0, run := evenRun s }

/-- With phj_rst_n high, at an ACLK edge: the wheel starts there if this is the first one, and phj_ready rises if the reset is complete
(R100, R555). -/
def warmGoesOn (s : State) (wheel : Bool) : State :=
  if !aclkEdge s then s else
  let s1 := if wheel then wheelStart s else s
  { s1 with life := if warmDone s1 then .ready else .warmBusy false }

/-- WARM_RESET_COMPLETE: phj_rst_n is high; what an ACLK edge brings follows at this one or the next (R100, R555). -/
def doWarmComplete (s : State) : State :=
  match s.life with
  | .warmHeld => warmGoesOn { s with life := .warmBusy true } true
  | .warmBusy wheel => warmGoesOn s wheel
  | _ => s

/-- RETENTION_EXIT_DONE; a warm reset that waited for the exit starts (R551, R553, R555). -/
def doRetentionExit (s : State) : State :=
  match s.life with
  | .leaving e _ =>
    if e ≤ s.clk ∧ aclkEdge s then
      let s1 := exitDone s
      if s1.warmNext then warmStart s1 else s1
    else s
  | _ => s

/-- RETENTION_ENTERED; a reset or an event that came during the entry starts the exit. -/
def doRetentionEntered (s : State) : State :=
  let s1 := doRetained s
  if s1.life = .retained ∧ (s1.warmNext ∨ s1.wake) then startExit s1 else s1

/-- RAIL_LEAVES_TOLERANCE: while a cold reset is not in force, nothing is guaranteed until one is (R542). -/
def doRail (s : State) : State := if s.life = .coldHeld then s else { s with railsLost := true }

end Sys2Proof.Machine
end

