-- ==== Sys2Proof/Machine/Control.lean ====
section
/-! DEFINITION. The control matrix: views, the default target, reads and writes of every register, answers (R12 to R16, R68, R97,
R104, R116, R145, R168, R181, R206, R239, R273, R274, R300, R338, R355, R392, R417, R443, R461, R493, R513, R525 to R535,
R550, R562 to R567). -/

namespace Sys2Proof.Machine

/-! ### Addresses (R16, R564 to R566) -/

/-- The offset of index `i` from a family's base. -/
def dimOffset : List (Nat × Nat) → Nat → Nat
  | [], _ => 0
  | (st, _) :: t, i => let n := (t.map Prod.snd).prod; i / n * st + dimOffset t (i % n)

/-- The control-space offset of a register, view base removed. -/
def RegId.offset (id : RegId) (i : Nat) : Nat := id.row.base + dimOffset id.row.dims i

/-- Index `k` of block `n` in blocks of `m`; past its block it names no register. -/
def ix (n m k : Nat) : Nat := if k < m then n * m + k else 1048576

/-- The register, if index `i` exists in its family (R566). -/
def regIf (id : RegId) (i : Nat) : Option (RegId × Nat) := if i < id.size then some (id, i) else none

/-- The page of a control-space offset. -/
def pageNo (off : Nat) : Nat := off / 65536

/-- Completion after acceptance: 3 MCLK, and 4 more behind an APB4 bridge (R529, R564). -/
def answerTime (off : Nat) : Nat := if pageNo off ∈ [0x00, 0x02, 0x03, 0x09, 0x28] then 28 else 12

/-! ### The unprivileged view (R530, R531) -/

/-- Fields of CM.UV[t]. -/
def uvTask (s : State) (t : Nat) : Nat := rf s .cmUvTask t 9 0
def uvClass (s : State) (t : Nat) : Nat := rf s .cmUvTask t 12 10
def uvOn (s : State) (t : Nat) : Bool := bitOf (rg s .cmUvTask t) 31
def uvBell (s : State) (t n : Nat) : Bool := let w := rg s .cmUvBells t; decide (fld w 9 0 ≤ n ∧ n < fld w 9 0 + fld w 26 16)
def uvSlot (s : State) (t n : Nat) : Bool := let w := rg s .cmUvSlots t; decide (fld w 5 0 ≤ n ∧ n < fld w 5 0 + fld w 14 8)
def uvChan (s : State) (t p k : Nat) : Bool := let w := rg s .cmUvChan t; decide (fld w 3 0 = p) && bitOf w (16 + k)
/-- Processor `t` owns the port group of index `x`, satchel, Changer and Tally units included. -/
def uvOwn (t x : Nat) : Bool := decide (t < 16 ∧ x % 16 = t)
/-- An open or close of a window entry, or its STAT, is the caller's. -/
def uvWin (s : State) (t n : Nat) : Bool := decide (n < 4096 ∧ rf s .winCfg n 25 16 = uvTask s t)

/-- The bells of a TAINT word that lie in the caller's range. -/
def uvTaint (s : State) (t i : Nat) : Word :=
  BitVec.ofNat 32 (((List.range 32).filter fun b => uvBell s t ((32 * i + b) / 2)).map (2 ^ ·)).sum

/-- What R531 allows processor `t`: register, index, direction, value written. -/
def uvAllows (s : State) (t : Nat) (id : RegId) (i : Nat) (write : Bool) (v : Word) : Bool :=
  match id with
  | .capList | .capFormats => !write
  | .bellRdy | .bellFree | .bellRdyLast | .bellFreeLast | .bellRing | .bellTake | .bellInit => uvBell s t i
  | .bellTkres | .bellWatch => decide (i = t)
  | .satCtrl | .satStat | .satSwaps | .satEcc | .fsStat => !write && uvOwn t i
  | .satStallLo | .satStallHi => !write && uvOwn t (i / 7)
  | .satStallClr | .fsLaunch => uvOwn t i
  | .caravanCtrl | .caravanWin | .caravanStat | .caravanRounds => !write
  | .porterChDesc0 | .porterChDesc1 | .porterChDesc2 | .porterChDesc3 | .porterChArm | .porterChStat | .porterChCredit
  | .porterChCrdret | .porterChPieces | .porterChHold | .porterChAct | .porterChShd => uvChan s t (i / 16) (i % 16)
  | .pmapCmd => write && uvSlot s t (fld v 5 0)
  | .pmapInactEnt | .pmapActEnt => uvSlot s t (i / 4096)
  | .pmapSlotStat | .pmapSlotPins | .pmapSlotEwait | .pmapSlotFaults => uvSlot s t i
  | .pmapCmdResult | .pmapStat => !write
  | .chgProfCtrl | .chgProfGeom | .chgProfFbase | .chgProfEsc => !write && uvOwn t (i / 8)
  | .chgAnxNext | .chgAnxEnd | .chgSrSeed | .chgSrState | .chgEscqStat | .chgQBlocks | .chgQSat | .chgQFlush | .chgQEsc
  | .chgQRefused | .chgQNan | .chgQMaxerr | .chgREsc | .chgRRetry | .chgRSat | .chgSentCnt | .chgFmtFaults => !write && uvOwn t i
  | .chgSentLast | .chgCntClr | .tallyCntClr => uvOwn t i
  | .tallyCtrl | .tallyCfg | .tallyNext | .tallyRows | .tallyClamps | .tallyParts | .tallyIgnored | .tallyEcc => !write && uvOwn t i
  | .tallyRecW => !write && uvOwn t (i / 8192)
  | .pgStat | .pgAborts => !write && uvOwn t i && decide (i < 16)
  | .pgLastAbort => uvOwn t i
  | .tabtStat | .tabtCmd | .tabtTaint => true
  | .tabtRecInfo | .tabtRecAgent | .tabtRecDetail | .tabtRecAddrLo | .tabtRecAddrHi | .tabtRecTime =>
    decide (rf s .tabtRecInfo i 25 16 = uvTask s t)
  | .sboxLockop => decide (i / 1024 ≠ 2)
  | .sboxData | .sboxSet | .sboxClr => decide (0x1C00 ≤ i ∧ i < 0x2000)
  | .winDigest => true
  | .winStat => uvWin s t i
  | .winCmd => write && decide (fld v 13 12 < 2) && uvWin s t (fld v 11 0)
  | .intcTgtCtrl | .intcTgtClaim | .intcTgtEoi | .intcTgtRunning | .intcTgtStat => decide (i = t)
  | .intcSgi => true
  | .intcSrcCfg => decide (t < 16 ∧ i / 16 = t)
  | _ => false

/-- The register an access reaches, or none for the default target (R526). -/
def routed (s : State) (w : Who) (r : Option (RegId × Nat)) (write : Bool) (v : Word) : Option (RegId × Nat) :=
  match r with
  | none => none
  | some (id, i) =>
    if w.steward then some (id, i)
    else if 18 ≤ w.proc then none
    else if w.priv then (if w.prot then some (id, i) else none)
    else if uvOn s w.proc && uvAllows s w.proc id i write v then some (id, i)
    else none

/-- The default target answers (R526, R471, R535). -/
def defaultAnswer (s : State) (w : Who) (off : Nat) (write : Bool) : State :=
  let addr := off + (if w.priv then 0x800000 else 0)
  let det := (if w.steward then 510 else if 18 ≤ w.proc then 511 else 288 + w.proc) + 512 * b2n write + 1024 * b2n w.prot
  let s1 := raise s fuCtrl 4 addr det
  let s2 := if bitOf (rg s1 .cmErrLast) 31 then s1
    else setRg (setRg s1 .cmErrLast 0 (BitVec.ofNat 32 (det + 2 ^ 31))) .cmErrAddr 0 (BitVec.ofNat 32 addr)
  answerWith s2 w 0 true

/-- Block retention keeps an access from its page (R550). -/
def asleepPage (s : State) (off : Nat) : Bool :=
  (match s.life with
   | .retained => true
   | .leaving _ c => decide (s.clk < c)
   | _ => false) && !decide (pageNo off ∈ [0x00, 0x28, 0x2A])

/-- An answer given at acceptance completes after the time of its page; a held access is answered later (R529). -/
def timed (off sub : Nat) (write : Bool) (f : State → State) (s : State) : State :=
  let s1 := f { s with answers := [] }
  { s1 with answers := s.answers ++ s1.answers.map fun a => { a with due := s.clk + answerTime off, sub := sub, write := write } }

/-! ### The matrix's grant and its order (R527, R528) -/

/-- Two accesses carry one AxID of one manager. -/
def sameId (a b : Who) : Bool := a.steward == b.steward && a.proc == b.proc && a.alt == b.alt

/-- The pages of the Strongbox windows, which one port serves (R396). -/
def sboxPage (sub : Nat) : Bool := decide (0x22 ≤ sub ∧ sub ≤ 0x25)

/-- An earlier access of the same ID keeps one for subordinate `sub` waiting: one for another subordinate is outstanding, or
a subordinate holds one (R294, R380, R410). -/
def idWaits (s : State) (w : Who) (sub : Nat) : Bool :=
  (s.answers.any fun a => decide (s.clk < a.due ∧ a.sub ≠ sub) && sameId a.who w) ||
  (s.pmapHeld.any fun h => sameId h.who w) || (s.tkHeld.any fun h => sameId h.who w) ||
  (s.bellOps.any fun o => decide (sub ≠ 0x0E) && o.who.any fun v => sameId v w) ||
  (s.sboxWait.any fun q => sameId q.who w && (!sboxPage sub || !sboxFree s q)) ||
  (s.sboxAns.any fun a => sameId a.who w && !sboxPage sub)

/-- Accesses of the management port that are not yet answered, of one direction; a burst counts once. -/
def openAccesses (s : State) (write : Bool) : Nat :=
  (s.answers.filter fun a => decide (s.clk < a.due) && !a.who.steward && !a.more && a.write == write).length +
  (s.pmapHeld.filter fun h => !h.who.steward && h.value.isSome == write).length +
  (if write then (s.bellOps.filter fun o => o.who.any fun v => !v.steward).length else s.tkHeld.length) +
  (s.sboxWait.filter fun q => !q.who.steward && q.op.writes == write).length +
  (s.sboxAns.filter fun a => !a.who.steward && a.write == write).length

/-- The management port has eight accesses outstanding in either direction (R163): it takes none until one is answered. -/
def portFull (s : State) (w : Who) : Bool := !w.steward && decide (8 ≤ openAccesses s false ∨ 8 ≤ openAccesses s true)

/-- An access of the control matrix stands at the Strongbox port: the next for its windows waits behind it (R397). -/
def boxTaken (s : State) (sub : Nat) : Bool := sboxPage sub && s.sboxWait.any fun q => !q.who.steward && sboxFree s q

/-- The matrix accepts an access at this edge: an MCLK edge, the grant at its manager and not yet given at this edge. -/
def granted (s : State) (w : Who) (sub : Nat) : Bool :=
  mclkEdge s && decide (s.gate ≤ s.clk) && (s.parked == w.steward) && !idWaits s w sub && !portFull s w && !boxTaken s sub

/-- The subordinate of an access: its page, or the default target. -/
def subOf (s : State) (w : Who) (r : Option (RegId × Nat)) (off : Nat) (write : Bool) (v : Word) : Nat :=
  if (routed s w r write v).isSome then pageNo off else 128

/-- An access that is not accepted leaves the block as it is and stays with its manager, but for the grant: presented by the
manager on which it is not parked, it brings the grant over, and is accepted one MCLK later. -/
def present (s : State) (w : Who) (sub : Nat) : State :=
  if mclkEdge s && (s.parked != w.steward) && decide (s.clk < s.gate ∨ s.turn ≤ s.clk) && !idWaits s w sub then
    { s with parked := w.steward, gate := max s.gate (s.clk + 1), turn := s.clk + 5 }
  else s

/-- An accepted access of one word: the register's own effect, or the default target's. -/
def reached (w : Who) (r : Option (RegId × Nat)) (off : Nat) (write : Bool) (v : Word) (f : RegId → Nat → State → State)
    (s : State) : State :=
  if asleepPage s off then answerWith s w 0 true
  else match routed s w r write v with
    | some (id, i) => f id i s
    | none => defaultAnswer s w off write

/-- The Steward reaches the words of the Strongbox by its own way to the port, not through the matrix (R396). -/
def stewardBox (w : Who) (r : Option (RegId × Nat)) : Bool :=
  w.steward && match r with
    | some (id, _) => decide (id ∈ [.sboxData, .sboxSet, .sboxClr])
    | none => false

/-- One access: nothing is accepted while a cold reset is in force. -/
def access (s : State) (w : Who) (r : Option (RegId × Nat)) (off : Nat) (write : Bool) (v : Word)
    (f : RegId → Nat → State → State) : State :=
  let sub := subOf s w r off write v
  if s.life = .coldHeld then s
  else if stewardBox w r then reached w r off write v f s
  else if !granted s w sub then present s w sub
  else timed off sub write (reached w r off write v f) { s with gate := s.clk + 1 }

/-! ### What registers read (R12 and the field tables) -/

/-- A number as a register word. -/
def wd (n : Nat) : Word := BitVec.ofNat 32 n

/-- Add derived fields to a stored word. -/
def plus (s : State) (id : RegId) (i n : Nat) : Word := rg s id i ||| wd n

/-- The bank slots in service in a tile, with their positions (R49, R50). -/
def slotsInService (s : State) (c t : Nat) : List (Nat × Nat) :=
  ((List.range 32).filter fun b => !octetOut s c t (b / 8)).map fun b => (b, servingBank (s.tile c t) b)

/-- Free spare rows of a bank slot. -/
def freeRows (s : State) (c t b : Nat) : Nat :=
  ((List.range 16).filter fun e => let x := spareRow s c t b e; !x.valid && !x.dead).length

/-- TIER[t].SPARE. -/
def readSpare (s : State) (c t : Nat) : Word :=
  let ti := s.tile c t
  wd (b2n (!ti.sb0.taken) + b2n (!ti.sb1.taken) + 16 * ti.octOut + 256 * ti.sb0.bank + 8192 * b2n ti.sb0.serving +
    65536 * ti.sb1.bank + 2097152 * b2n ti.sb1.serving)

/-- TIER[t].ROWS_FREE. -/
def readRowsFree (s : State) (c t : Nat) : Word :=
  let l := (slotsInService s c t).map fun b => (b.1, freeRows s c t b.2)
  let m := l.foldl (fun m e => min m e.2) 31
  let b := ((l.find? fun e => e.2 == m).map Prod.fst).getD 0
  let ti := s.tile c t
  let extra := (if ti.sb0.taken then 0 else freeRows s c t 32) + (if ti.sb1.taken then 0 else freeRows s c t 33)
  wd (m + 256 * b + 65536 * ((l.map Prod.snd).sum + extra))

/-- RMT_DATA, as RMT_SEL chooses. -/
def readRmt (s : State) (c : Nat) : Word :=
  let w := rg s .colRmtSel c
  let x := spareRow s c (fld w 10 9) (if bitOf w 11 then 32 + fld w 8 4 % 2 else fld w 8 4) (fld w 3 0)
  wd (x.lrow + 2048 * x.gen + 8192 * b2n x.valid + 16384 * b2n x.dead)

/-- Withdrawn octets of a column. -/
def octetsOut (s : State) (c : Nat) : Nat := ((List.range 16).filter fun i => octetOut s c (i / 4) (i % 4)).length

/-- REGION[n].STAT. -/
def readRegionStat (s : State) (n : Nat) : Word :=
  let r := region s n
  wd ((((List.range 64).filter fun c => nbit r.mask c).map (octetsOut s)).sum + 2048 * b2n (regionBad s n))

/-- The longest head wait of a column's direction, running waits included. -/
def maxWait (s : State) (c : Nat) (d : Dir) (kept : Nat) : Nat :=
  (List.range 37).foldl (fun m r => let q := s.queue (queueKey c d r); if q.entries.isEmpty then m else max m (headWait s q)) kept

/-- A slot-port direction's batch is in aborted state (R159, R160). -/
def abortedDir (v : SlotDir) : Bool :=
  v.failed.any fun f => (v.isOpen && f.1 == v.batch) || v.beats.any fun b => b.batch == f.1

/-- Flags of a reset: in progress, completion, early release. -/
def rstBits (s : State) (m : Nat) : Nat := let r := s.rst m; b2n r.active + 2 * b2n r.done + 4 * b2n r.early

/-- PG[g].STAT. -/
def readPgStat (s : State) (g : Nat) : Word :=
  wd (b2n (slotReady s g) + 2 * b2n (slotReady s (16 + g)) + 4 * b2n (scalarReady s g) + 8 * rstBits s (rstPg g) +
    256 * (s.scalar g).length + 65536 * b2n (abortedDir (s.rdDir g)) + 131072 * b2n (abortedDir (s.wrDir g)) +
    262144 * b2n (abortedDir (s.rdDir (16 + g))) + 524288 * b2n (abortedDir (s.wrDir (16 + g))))

/-- PP[p].STAT. -/
def readPpStat (s : State) (p : Nat) : Word :=
  let n := fun (w : Bool) => min 2047 (s.bursts.filter fun b => b.porter == p && b.write == w).length
  let r := s.rst (rstPorter p)
  wd (n false + 65536 * n true + 2 ^ 27 * b2n r.active + 2 ^ 28 * b2n r.done + 2 ^ 29 * b2n r.timeout + 2 ^ 30 * b2n r.early)

/-- LP[l].CRD_STAT. -/
def readCrdStat (s : State) (l : Nat) : Word :=
  let v := s.link l
  wd (v.outData + 256 * v.outHdr + 65536 * v.owedData + 16777216 * v.owedHdr)

/-- SAT[x].STAT. -/
def readSatStat (s : State) (x : Nat) : Word :=
  let v := s.sat x
  let on := stalled s x
  let cause := match v.read with
    | some r => if on then stallCause s x r else 0
    | none => 0
  plus s .satStat x (b2n v.front + 2 * b2n v.swap.isSome + 4 * b2n (atSwap s x) + 8 * b2n on + 16 * cause +
    256 * popBits 1024 (v.fill v.back).toNat)

/-- The instruction index a live context stands at. -/
def pcNow (s : State) (a : Nat) : Nat :=
  match (liveCtxs s a).head? with
  | some k => (s.ctx a k).start + (s.ctx a k).pc
  | none => 0

/-- FS[x].STAT. -/
def readFsStat (s : State) (x : Nat) : Word :=
  plus s .fsStat x ((s.agent x).queue.length + 8 * b2n (!(liveCtxs s x).isEmpty) + 65536 * (pcNow s x % 16384))

/-- CARAVAN[n].STAT. -/
def readCaravanStat (s : State) (n : Nat) : Word :=
  let held := match chainIn s.chainRegs n with
    | some c => headHeld s c
    | none => false
  plus s .caravanStat n (16 * b2n held)

/-- A launch of channel `a` waits behind an abort of its task (R266). -/
def heldAbort (s : State) (a : Nat) : Bool :=
  let v := s.agent a
  (if v.todo then v.act.toList else v.queue).any fun l => aborting s l.task

/-- CH[k].STAT. -/
def readChStat (s : State) (i : Nat) : Word :=
  let a := 32 + i
  let v := s.agent a
  plus s .porterChStat i (b2n v.act.isSome + 2 * b2n (!v.queue.isEmpty) + 4 * b2n (decide (1 < (liveCtxs s a).length)) +
    8 * b2n (heldAbort s a) + 64 * b2n (chanHeld s a) + 128 * b2n (crdEn v && v.credit == 0) + 256 * queueLen s a +
    65536 * slotsHeld s a)

/-- A descriptor as CH[k].ACT and SHD show it. -/
def readLaunch (l : Option Launch) : Word :=
  match l with
  | some d => wd (d.start + 65536 * d.task + 2 ^ 31)
  | none => 0

/-- PORTER[p].STAT. -/
def readPorterStat (s : State) (p : Nat) : Word :=
  let bits := fun (f : Agent → Bool) => ((List.range 16).filter fun k => f (s.agent (chanAgent p k))).map (2 ^ ·)
  wd ((bits fun v => v.act.isSome).sum + 65536 * (bits fun v => !v.queue.isEmpty).sum)

/-- PMAP.STAT. -/
def readPmapStat (s : State) : Word :=
  match s.pmapOp with
  | some o => plus s .pmapStat 0 (1 + 256 * o.slot)
  | none => rg s .pmapStat

/-- PMAP.SLOT[n].STAT. -/
def readSlotStat (s : State) (n : Nat) : Word :=
  let waits := s.ctxs.any fun e => e.2.ewait.any fun w => w.1 == n
  plus s .pmapSlotStat n (2 * b2n (pmapBusy s n) + 4 * b2n waits)

/-- TALLY[x].CFG. -/
def readTallyCfg (s : State) (x : Nat) : Word :=
  let t := (s.tally x).set
  wd (b2n t.en + 2 * (t.rowg % 256) + 512 * t.trec + 524288 * t.task)

/-- BELL[n].RDY_LAST and FREE_LAST. -/
def readBellLast (s : State) (b : Nat) : Word :=
  let v := s.bell b
  wd (v.orig + 512 * v.scope + 65536 * v.task.getD 0 + 2 ^ 31 * b2n v.rung)

/-- SBOX.STAT. -/
def readSboxStat (s : State) : Word :=
  wd (s.reapSet + 262144 * b2n s.wipeEnd.isSome + 524288 * (s.reapAt.getD 0 % 1024))

/-- FU[n].STATE (R476, R479). -/
def readFuState (s : State) (n : Nat) : Word :=
  let u := s.fu n
  wd (b2n (!u.esc && escalating s n != 0) + 2 * b2n u.esc + 4 * b2n u.quar + 8 * b2n u.par)

/-- FU[n].CURFEW_CNT. -/
def readCurfew (s : State) (n : Nat) : Word :=
  match (s.fu n).curfew with
  | some (t0, _) => wd ((tclk s - t0) % 2 ^ 24 + 2 ^ 31)
  | none => rg s .fuCurfewCnt n

/-- INTC.TGT[t].RUNNING. -/
def readRunning (s : State) (t : Nat) : Word :=
  match runningPrio s s.regs t with
  | some p => wd (p + 256)
  | none => 0xFF

/-- CFG.STAT. -/
def readCfgStat (s : State) : Word := plus s .cfgStat 0 (cfgState s + 8 * b2n s.sealed_ + 256 * lcState s)

/-- PWR.STAT. Domains count as ON from READY on (R13: the register reads 0 at the release of cold reset). -/
def readPwrStat (s : State) : Word :=
  let on := if notReady s then 0 else 301 - ((s.domains.filter fun e => decide (e.1 < 301 ∧ e.2.st ≠ dON)).length)
  wd ((match s.life with
       | .retained => 1
       | .entering _ => 2 + 8
       | .leaving _ _ => 1 + 4
       | .ready => 8
       | _ => 0) + 65536 * on)

/-- An octet's bit of the STORAGE record: withdrawn, or in a column whose quarantine is complete (R534). -/
def octetGone (s : State) (u o : Nat) : Bool := octetOut s (u % 64) (u / 64) o || (s.fu (u % 64)).quarDone

/-- Word `j` of the octet map. -/
def octetWord (s : State) (j : Nat) : Nat :=
  (((List.range 32).filter fun i => octetGone s (8 * j + i / 4) (i % 4)).map (2 ^ ·)).sum

/-- Octets whose bit is set. -/
def octetsGone (s : State) : Nat := ((List.range 64).map fun c => if (s.fu c).quarDone then 16 else octetsOut s c).sum

/-- Spare banks never taken into service. -/
def spareBanksFree (s : State) : Nat := 512 - (s.tiles.map fun e => b2n e.2.sb0.taken + b2n e.2.sb1.taken).sum

/-- Word 0 of a capability record. -/
def capHead (id len : Nat) : Nat := id + 65536 + 16777216 * len

/-- Word `k` of the first four records (R533, R534): IDENT, STORAGE, CONFIG, LIMITS. -/
def readCap (s : State) (k : Nat) : Word :=
  let st := rg s .cfgStat
  let cap := 2 ^ 30 - 2 ^ 20 * octetsGone s
  if k < 4 then wd ([capHead 1 4, 0x10, 0x10244C54, 0x10A1].getD k 0)
  else if k < 12 then
    wd ([capHead 2 40, 0xB0, (Tab.get (fun _ => 0) s.caps genStorage).toNat, cap % 2 ^ 32, cap / 2 ^ 32,
      ((List.range 64).map (octetsOut s)).sum + 65536 * ((List.range 64).filter fun c => (s.fu c).quarDone).length,
      spareBanksFree s, 0].getD (k - 4) 0)
  else if k < 44 then wd (octetWord s (k - 12))
  else if k < 52 then
    wd ([capHead 3 8, 0xD0, (Tab.get (fun _ => 0) s.caps genConfig).toNat, (rg s .winDigest).toNat,
      (Tab.get (fun _ => 0) s.caps fullVersion).toNat,
      fld st 4 4 + 2 * b2n s.sealed_ + 4 * fld st 5 5 + 8 * fld st 6 6 + 16 * lcState s, (rg s .cfgLoads).toNat, 0].getD (k - 44) 0)
  else wd ([capHead 4 6, 0xF0, 64 + 256 * 64 + 65536 * winCount s, 1024 + 65536 * 16384, 16 + 256 * 16 + 65536 * 8 + 16777216 * 85,
      512 + 65536 * 18].getD (k - 52) 0)

/-- The FORMATS record. -/
def readFormats (k : Nat) : Word := wd ([capHead 5 3, 0, 0xFFFF].getD k 0)

/-- The value a register shows at this edge, where reading has no effect of its own. -/
def shown (s : State) (w : Who) (id : RegId) (i : Nat) : Word :=
  match id with
  | .colStorStat => plus s id i (b2n (s.col i).copy.isSome + 2 * (s.col i).remapQ.length)
  | .colRmtData => readRmt s i
  | .colTierSpare => readSpare s (i / 4) (i % 4)
  | .colTierRowsFree => readRowsFree s (i / 4) (i % 4)
  | .regionStat => readRegionStat s i
  | .colWheel => Tab.get (fun _ => 0) s.wheels (s.wheelSet * 4096 + i)
  | .xbarWheelPos => wd (s.wheelPos + 256 * s.wheelSet + 512 * b2n s.wheelPend + 65536 * (s.turns % 65536))
  | .xbarWheelSw => wd (b2n s.wheelPend)
  | .xbarSkipStat => wd (s.levelNow + 4 * b2n s.skipNext.isSome)
  | .colDeferStat => plus s id i (s.col i).defer.length
  | .lotStarveLast => match s.starving with
    | some k => setFld (rg s id) 31 16 (headWait s (s.queue k))
    | none => rg s id
  | .colLotMaxwait => wd (maxWait s i .rd (rf s id i 15 0) + 65536 * maxWait s i .wr (rf s id i 31 16))
  | .pgStat => readPgStat s i
  | .pgRstCmd => wd (b2n (s.rst (rstPg i)).cmd)
  | .ppStat => readPpStat s i
  | .ppRstCmd => wd (b2n (s.rst (rstPorter i)).cmd)
  | .lpCrdStat => readCrdStat s i
  | .lpRstCmd => wd (b2n (s.rst (rstLink i)).cmd)
  | .lpStat => plus s id i (rstBits s (rstLink i))
  | .satCtrl => if (chainOf s i).isSome then setFld (rg s id i) 1 0 0 else rg s id i
  | .satStat => readSatStat s i
  | .fsStat => readFsStat s i
  | .caravanStat => readCaravanStat s i
  | .porterChStat => readChStat s i
  | .porterChCredit => wd (s.agent (32 + i)).credit
  | .porterChAct => readLaunch (s.agent (32 + i)).act
  | .porterChShd => readLaunch (s.agent (32 + i)).queue.head?
  | .porterReord => plus s id i (slotsUsed s i)
  | .porterStat => readPorterStat s i
  | .fchStat => plus s id i (256 * ((List.range 64).filter (farHeld s)).length)
  | .tabtStat => plus s id i (((List.range 8).filter fun j => bitOf (rg s .tabtRecInfo j) 0).length +
      256 * min 255 (s.aborts.filter Abort.fired).length)
  | .tabtTaint => if w.priv || w.steward then rg s id i else rg s id i &&& uvTaint s w.proc i
  | .pmapStat => readPmapStat s
  | .pmapSlotStat => readSlotStat s i
  | .pmapSlotPins => wd (pinsOld s i + 65536 * pinCount s i (activeBank s i))
  | .chgEscqStat => plus s id i (s.escs i).length
  | .tallyCfg => readTallyCfg s i
  | .tallyNext => wd (tallyNext s i + 65536 * ((s.tally i).sq % 65536))
  | .bellRdy => wd ((bellCount s (2 * i)).data.toNat % 65536)
  | .bellFree => wd ((bellCount s (2 * i + 1)).data.toNat % 65536)
  | .bellRdyLast => readBellLast s (2 * i)
  | .bellFreeLast => readBellLast s (2 * i + 1)
  | .sboxStat => readSboxStat s
  | .winStat => plus s id i (4 * winOutst s i)
  | .regMult => if bitOf (rg s .regCtrl) 0 then rg s id else 0
  | .fuCurfewCnt => readCurfew s i
  | .fuState => readFuState s i
  | .fuLedgerStat => plus s id i (s.fu i).ledger.length
  | .fuTrack => plus s id i (s.fu i).track.length
  | .fuLedgerInfo => (ledgerAt s (i / 8) (i % 8)).info
  | .fuLedgerLoc => (ledgerFor s w (i / 8) (i % 8)).loc
  | .fuLedgerDetail => (ledgerFor s w (i / 8) (i % 8)).det
  | .fuLedgerTime => (ledgerFor s w (i / 8) (i % 8)).time
  | .fuErrHold => wd (rf s id 0 0 0 + 2 * b2n (errPin s) + 4 * b2n s.errPulse.isSome)
  | .fuTstampLo => wd (tclk s)
  | .fuTstampHi => wd (tclk s / 2 ^ 32)
  | .intcPend | .intcSetpend | .intcClrpend => srcWord s.intPend i
  | .intcActive => srcWord (activeBits s) i
  | .intcLine => srcWord s.intLine i
  | .intcTgtClaim => wd (selOf s i)
  | .intcTgtRunning => readRunning s i
  | .intcTgtStat => plus s id i (b2n (intReq s i) + 2 * b2n (asleep s i) + 4 * b2n (wakeReq s i))
  | .cfgStat => readCfgStat s
  | .cfgSeal => wd (b2n s.sealed_)
  | .pwrStat => readPwrStat s
  | .pwrDom => plus s id i (16 * (dom s i).st + 64 * b2n ((dom s i).moving.isSome || (s.life != .retained && domBusy s i)))
  | .thmStat => readThmStat s
  | .capList => readCap s i
  | .capFormats => readFormats i
  | _ => rg s id i

/-! ### Reads (R15) -/

/-- The requester's capture for a high word, if it holds one. -/
def captured (s : State) (w : Who) (id : RegId) (i : Nat) : Option Word :=
  (s.captures.find? fun c => decide (c.who = whoNum w ∧ c.id = id.num ∧ c.idx = i)).map Capture.val

/-- Drop a requester's capture. -/
def dropCapture (s : State) (w : Who) : State := { s with captures := s.captures.filter fun c => decide (c.who ≠ whoNum w) }

/-- A low-word read captures the high word of the same instant. -/
def capture (s : State) (w : Who) (hi : RegId) (i : Nat) : State :=
  { dropCapture s w with captures := (dropCapture s w).captures ++ [⟨whoNum w, hi.num, i, shown s w hi i⟩] }

/-- A read of a register whose reading has no effect but a capture's: the capture serves one read of its high word. -/
def readPlain (w : Who) (id : RegId) (i : Nat) (s : State) : State :=
  match id.high with
  | some hi => answerWith (capture s w hi i) w (shown s w id i) false
  | none => match captured s w id i with
    | some v => answerWith (dropCapture s w) w v false
    | none => answerWith s w (shown s w id i) false

/-- A read of ITIN.WORD[i], counted as a fetch's reads are (R239). -/
def readItin (w : Who) (i : Nat) (s : State) : State :=
  let c := loadWord s .itin i
  let note := fun (s : State) (ue : Bool) => setRg s .itinEccLast 0 (wd (i + 16384 * b2n ue + 32768))
  let s1 := if c.ue then note (bump s .itinEcc 0 31 16) true else if c.ce then note (bump s .itinEcc 0 15 0) false else s
  answerWord s1 w c

/-- A read of a word of TALLY[x].REC (R352, R355). -/
def readTallyWord (w : Who) (i : Nat) (s : State) : State :=
  let c := loadWord s .tally i
  answerWord (countTally s (i / 8192) (b2n c.ce) (b2n c.ue) (i / 8 % 1024)) w c

/-- A register read. -/
def readReg (w : Who) (id : RegId) (i : Nat) (s : State) : State :=
  match id with
  | .itinWord => readItin w i s
  | .tallyRecW => readTallyWord w i s
  | .pmapInactEnt => doInactRead w (i / 4096) (i % 4096) s
  | .pmapActEnt => answerWord s w (loadWord s .pmap (pmapIx (i / 4096) (activeBank s (i / 4096)) (i % 4096)))
  | .bellTkres => doTkresRead w i s
  | .sboxData | .sboxSet | .sboxClr => doSboxRead w i s
  | .sboxLockop =>
    if i / 1024 = 0 then doLockOp w (i % 1024) .acq s
    else if i / 1024 = 3 then doLockOp w (i % 1024) .read s
    else doLockOp w (i % 1024) (.bad false) s
  | .fuLedgerInfo => doLedgerRead w (i / 8) (i % 8) s
  | .intcTgtClaim => doClaim w i s
  | _ => readPlain w id i s

/-! ### Writes (R12, R14 and the chapters) -/

/-- A write that a register answers OKAY. -/
def ok (w : Who) (s : State) : State := answerWith s w 0 false

/-- Software's write of plain fields: RW, RWL unless sealed, W1C; other bits stay (R12, R14, R524). -/
def plainWrite (w : Who) (id : RegId) (i : Nat) (v : Word) (s : State) : State :=
  let m := softMask id i ||| (if s.sealed_ && !w.steward then 0 else sealMask id i)
  setRg s id i (((rg s id i &&& ~~~m) ||| (v &&& m)) &&& ~~~(v &&& id.row.w1c))

/-- A latched register: writing 1 to VALID clears it whole. -/
def latchWrite (w : Who) (id : RegId) (i : Nat) (valid : Nat) (v : Word) (s : State) : State :=
  if bitOf v valid then setRg s id i 0 else plainWrite w id i v s

/-- A write of COL[c].WHEEL[p]: RWL. -/
def wheelReg (w : Who) (i : Nat) (v : Word) (s : State) : State := if s.sealed_ && !w.steward then s else wheelWrite s i v

/-- REMAP_CMD with GO = 1. -/
def remapCmd (c : Nat) (v : Word) (s : State) : State :=
  match fld v 19 18 with
  | 0 => remapRequest c false (fld v 17 16) (fld v 15 11) (fld v 10 0) s
  | 1 => remapRequest c true (fld v 17 16) (fld v 15 11) 0 s
  | _ => remapResult s c 4

/-- XBAR.CONF_CLR with GO = 1. -/
def confCmd (v : Word) (s : State) : State := if bitOf v 8 then doConfClrAll s else doConfClr (fld v 6 0) s

/-- STALL_CLR with GO = 1. -/
def stallCmd (x : Nat) (v : Word) (s : State) : State := if bitOf v 3 then doStallClrAll x s else doStallClr x (fld v 2 0) s

/-- The task an unprivileged launch or abort is forced to (R531). -/
def forcedTask (s : State) (w : Who) (v : Nat) : Nat := if w.priv || w.steward then v else uvTask s w.proc

/-- The passport an arm forces: TASK, PRIV and CLASS, SCOPE kept (R531). -/
def forcedPass (s : State) (w : Who) (d1 : Word) : Word :=
  if w.priv || w.steward then d1
  else setFld (setFld (setFld d1 9 0 (uvTask s w.proc)) 12 12 0) 15 13 (uvClass s w.proc)

/-- PMAP.CMD with GO = 1. -/
def pmapCommand (v : Word) (s : State) : State :=
  match fld v 9 8 with
  | 0 => doPmapSwap (fld v 5 0) s
  | 1 => doPmapStart true (fld v 5 0) s
  | 2 => doPmapStart false (fld v 5 0) s
  | _ => doPmapReserved (fld v 5 0) s

/-- WIN.CMD with GO = 1. -/
def winCommand (w : Who) (v : Word) (s : State) : State :=
  match fld v 13 12 with
  | 0 => doOpen w (fld v 11 0) s
  | 1 => doClose (fld v 11 0) s
  | 2 => doForceClose (fld v 11 0) s
  | _ => doWinReserved (fld v 11 0) s

/-- CFG.CMD with GO = 1. -/
def cfgCommand (v : Word) (s : State) : State :=
  match fld v 1 0 with
  | 0 => doLoad false s
  | 1 => doLoad true s
  | 2 => doCancel s
  | _ => doCfgReserved s

/-- PWR.CMD with GO = 1. -/
def pwrCommand (v : Word) (s : State) : State :=
  match fld v 1 0 with
  | 0 => doRetain s
  | 1 => doWake s
  | _ => doPwrReserved s

/-- A write of FU[n].FIRST (R470). -/
def firstWrite (n : Nat) (v : Word) (s : State) : State :=
  if bitOf v 7 then doFirstClear n s else if bitOf v 6 then doFirstOvf n s else s

/-- A write of SBOX.SEC: WIPED cleared, the key locked. -/
def secWrite (w : Who) (v : Word) (s : State) : State :=
  let s1 := if bitOf v 3 then setRf s .sboxSec 0 3 3 0 else s
  if bitOf v 0 then doKeyLock w s1 else ok w s1

/-- A bell operation's write: GO, and tokens for a ring or take. -/
def bellWrite (w : Who) (n : Nat) (v : Word) (f : Who → Nat → Bool → Nat → Nat → State → State) (s : State) : State :=
  if bitOf v 31 && decide (fld v 7 0 ≠ 0) then f w n (bitOf v 8) (fld v 10 9) (fld v 7 0) s else ok w s

/-- A write of SBOX.LOCKOP. -/
def lockWrite (w : Who) (i : Nat) (s : State) : State :=
  if i / 1024 = 1 then doLockOp w (i % 1024) .rel s
  else if i / 1024 = 2 then doLockOp w (i % 1024) .brk s
  else doLockOp w (i % 1024) (.bad true) s

/-- The registers that start traffic, whose writes the safe state refuses (R490); the bells' own answer at their completing
edge (R378). -/
def starts (id : RegId) : Bool := decide (id ∈ [.porterChArm, .fsLaunch, .pmapCmd, .winCmd, .colRemapCmd, .tabtCmd])

/-- A write is answered SLVERR and has no effect: the safe state, a load cut short (R490, R523). -/
def writeRefused (s : State) (id : RegId) : Bool :=
  (s.safe && starts id) || (bitOf (rg s .cfgStat) 6 && decide (id ∈ [.porterChArm, .fsLaunch]))

/-- The effect of a write that is answered OKAY at once. -/
def writeEffect (w : Who) (id : RegId) (i : Nat) (v : Word) (s : State) : State :=
  let go := bitOf v 31
  match id with
  | .colRemapCmd => if go then remapCmd i v s else s
  | .colWheel => wheelReg w i v s
  | .xbarWheelSw => if bitOf v 0 then doWheelGo s else s
  | .xbarSkipCtrl => doSkipCtrl v s
  | .xbarConfClr => if go then confCmd v s else s
  | .pgCtrl => doPortCtrl i v s
  | .pgRstCmd => if bitOf v 0 then beginRst (rstPg i) false s else s
  | .ppRstCmd => if bitOf v 0 then beginRst (rstPorter i) false s else s
  | .lpRstCmd => if bitOf v 0 then beginRst (rstLink i) false s else s
  | .pgLastAbort => latchWrite w id i 7 v s
  | .satCtrl => doSwapMode i v s
  | .fsLaunch => if go then doFsLaunch i (fld v 13 0) (forcedTask s w (fld v 23 14)) s else s
  | .satStallClr => if go then stallCmd i v s else s
  | .itinWord => storeWord s .itin i v
  | .porterChArm => if bitOf v 0 then doArm (i / 16) (i % 16) (forcedPass s w) s else s
  | .porterChCrdret => returnCredits s (32 + i) (fld v 11 0)
  | .porterSplit => doSplit i v s
  | .fchSel => doFchSel v s
  | .tabtCmd => if go then doSoftAbort (forcedTask s w (fld v 9 0)) s else s
  | .tabtRecInfo => if bitOf v 0 then doRecordClear i s else s
  | .tabtTaint => plainWrite w id i (if w.priv || w.steward then v else v &&& uvTaint s w.proc i) s
  | .pmapCmd => if go then pmapCommand v s else s
  | .chgSrSeed => doSrSeed i v s
  | .chgSentLast => latchWrite w id i 31 v s
  | .chgCntClr => if go then doChangerClr i s else s
  | .tallyCntClr => if go then doTallyClr i s else s
  | .bellMmLast => latchWrite w id i 31 v s
  | .winCmd => if go then winCommand w v s else s
  | .winRejLast =>
    if bitOf v 31 then setRg (setRg (setRg s .winRejLast 0 0) .winRejDigest 0 0) .winRejEpoch 0 0 else plainWrite w id i v s
  | .regClassRsv => doRsvWrite i v s
  | .regClassTarget => doTargetWrite i v s
  | .regMissLast => latchWrite w id i 31 v s
  | .fuStat => doStatClear i v s
  | .fuForce => doForce i v s
  | .fuFirst => firstWrite i v s
  | .fuLedgerClr => if go then doLedgerClr i s else s
  | .fuSafeCmd => if go then doSafeCmd s else s
  | .fuErrHold => doErrHold (bitOf v 0) s
  | .intcSrcCfg => doSrcCfg i v s
  | .intcSetpend => doSetPend i v s
  | .intcClrpend => doClrPend i v s
  | .intcTgtEoi => if go then doEoi i (fld v 8 0) s else s
  | .intcSgi => if go then doSgi (fld v 12 8) (fld v 2 0) s else s
  | .cfgCmd => if go then cfgCommand v s else s
  | .cfgSeal => if bitOf v 0 then doSeal s else s
  | .cmErrLast => if bitOf v 31 then setRg (setRg s .cmErrLast 0 0) .cmErrAddr 0 0 else plainWrite w id i v s
  | .pwrCmd => if go then pwrCommand v s else s
  | .pwrDom => doDomTarget i v s
  | _ => plainWrite w id i v s

/-- A register write with its answer. -/
def writeReg (w : Who) (id : RegId) (i : Nat) (v : Word) (s : State) : State :=
  if writeRefused s id then answerWith s w 0 true else
  match id with
  | .pmapInactEnt => doInactWrite w (i / 4096) (i % 4096) v s
  | .bellRing => bellWrite w i v doBellRing s
  | .bellTake => bellWrite w i v doBellTake s
  | .bellInit => if bitOf v 31 then doBellInit w i (bitOf v 16) (fld v 15 0) s else ok w s
  | .sboxReap => if bitOf v 31 then doReap w (fld v 4 0) s else ok w s
  | .sboxSec => secWrite w v s
  | .sboxKey => doKeyWrite w i v s
  | .sboxData => doSboxWrite w i (.write v) s
  | .sboxSet => doSboxWrite w i (.set v) s
  | .sboxClr => doSboxWrite w i (.clr v) s
  | .sboxLockop => lockWrite w i s
  | .winCfg => if winWriteOk s i then ok w (doWinWrite i .cfg v s) else answerWith s w 0 true
  | .winMap => if winWriteOk s i then ok w (doWinWrite i .map v s) else answerWith s w 0 true
  | .winSize => if winWriteOk s i then ok w (doWinWrite i .size v s) else answerWith s w 0 true
  | .cfgLoad => doLoadWord w v s
  | _ => ok w (writeEffect w id i v s)

/-! ### Accesses -/

/-- A write of register `i` of a family. -/
def ctlWrite (w : Who) (id : RegId) (i : Nat) (v : Word) (s : State) : State :=
  access s w (regIf id i) (id.offset i) true v fun id i => writeReg w id i v

/-- A read of register `i` of a family. -/
def ctlRead (w : Who) (id : RegId) (i : Nat) (s : State) : State :=
  access s w (regIf id i) (id.offset i) false 0 fun id i => readReg w id i

/-- The view an address lies in (R16). -/
def Who.at_ (w : Who) (addr : Nat) : Who := { w with priv := decide (0x800000 ≤ addr) }

/-- The register at a control-space address, in either view. -/
def regAddr (addr : Nat) : Option (RegId × Nat) := if addr < 0x1000000 then regAt (addr % 0x800000) else none

/-- Accesses of one word by address. -/
def wordWrite (w : Who) (addr : Nat) (v : Word) (s : State) : State :=
  access s (Who.at_ w addr) (regAddr addr) (addr % 0x800000) true v fun id i => writeReg (Who.at_ w addr) id i v
def wordRead (w : Who) (addr : Nat) (s : State) : State :=
  access s (Who.at_ w addr) (regAddr addr) (addr % 0x800000) false 0 fun id i => readReg (Who.at_ w addr) id i

/-! ### Bursts of the management port (R163, R168) -/

/-- The address of beat `k` of a burst of `n` beats. -/
def beatAddr (f : AxiForm) (addr n k : Nat) : Nat :=
  let sz := if f.wide then 8 else 4
  match f.kind with
  | .fixed => addr
  | .incr => if k = 0 then addr else addr - addr % sz + k * sz
  | .wrap => let lo := addr - addr % (sz * n); lo + (addr - lo + k * sz) % (sz * n)

/-- The words a read beat names. -/
def beatWords (f : AxiForm) (addr n k : Nat) : List Nat :=
  let a := beatAddr f addr n k
  if f.wide && a % 8 == 0 then [a, a + 4] else [a - a % 4]

/-- The words a write beat takes effect in, with their data; none unless WSTRB names whole words (R168). -/
def beatWrites (f : AxiForm) (addr n : Nat) (k : Nat) (b : MgmtBeat) : List (Nat × Word) :=
  let a := beatAddr f addr n k
  let lo := (a - a % 8, b.data.setWidth 32)
  let hi := (a - a % 8 + 4, (b.data >>> 32).setWidth 32)
  if b.strb = 0xFF then [lo, hi] else if b.strb = 0x0F then [lo] else if b.strb = 0xF0 then [hi] else []

/-- A burst without effect: FIXED, or an atomic transaction (R168). -/
def refusedForm (f : AxiForm) : Bool := f.kind == .fixed || f.atomic

/-- MGMT.ERR after a burst that gives `n` SLVERR responses, from its value before it. -/
def countErr (w : Who) (before : Nat) (n : Nat) (s : State) : State :=
  if w.steward then s else setRf s .mgmtErr 0 15 0 (min 65535 (before + n))

/-- The words of a write burst, one after the other at the acceptance edge; one response for those answered at once, SLVERR where one of
them, or a beat, is refused. -/
def burstWrite (w : Who) (l : List (Nat × Word)) (bad : Bool) (s : State) : State :=
  let word := fun (s : State) (e : Nat × Word) =>
    reached (Who.at_ w e.1) (regAddr e.1) (e.1 % 0x800000) true e.2 (fun id i => writeReg (Who.at_ w e.1) id i e.2) s
  let s1 := l.foldl word s
  let err := bad || s1.answers.any RegAns.err
  if l.length ≠ 0 ∧ s1.answers.isEmpty ∧ !bad then s1
  else countErr w (rf s .mgmtErr 0 15 0) (b2n err) { s1 with answers := [⟨w, 0, err, s.clk, 0, true, false⟩] }

/-- One beat of a read burst: its words, its one response. -/
def beatRead (w : Who) (l : List Nat) (s : State) : State :=
  let word := fun (s : State) (a : Nat) =>
    reached (Who.at_ w a) (regAddr a) (a % 0x800000) false 0 (fun id i => readReg (Who.at_ w a) id i) s
  let s1 := l.foldl word { s with answers := [] }
  let err := s1.answers.any RegAns.err
  countErr w (rf s .mgmtErr 0 15 0) (b2n err)
    { s1 with answers := s.answers ++ s1.answers.map fun a => { a with err := err, more := true } }

/-- The last word of a burst closes it. -/
def burstEnd (s : State) : State :=
  { s with answers := s.answers.dropLast ++ (s.answers.getLast?.toList.map fun a => { a with more := false }) }

/-- A read beat answered SLVERR without effect; its data, which the spec does not state, is free. -/
def beatRefused (w : Who) (s : State) : State :=
  countErr w (rf s .mgmtErr 0 15 0) 1
    { s with free := s.free + 1, answers := s.answers ++ [⟨w, Config.badWord s.free, true, s.clk, 0, false, true⟩] }

/-- How many words of a burst go into the load aperture, which takes one word per MCLK (R518). -/
def loadWords (l : List (Nat × Word)) : Nat :=
  (l.filter fun e => match regAddr e.1 with | some (id, _) => id == .cfgLoad | none => false).length

/-- A burst is accepted as one request: all its words at that edge (log entry 57). `n` words of it go into the load aperture and keep the
next access waiting an MCLK each but the first (R518). -/
def burst (w : Who) (addr : Nat) (write : Bool) (n : Nat) (f : State → State) (s : State) : State :=
  let sub := subOf s (Who.at_ w addr) (regAddr addr) (addr % 0x800000) write 0
  if s.life = .coldHeld then s
  else if !granted s w sub then present s w sub
  else timed (addr % 0x800000) sub write f { s with gate := s.clk + 1 + 4 * (n - 1) }

/-- A write of the management port or the Steward by address. -/
def addrWrite (w : Who) (addr : Nat) (f : AxiForm) (beats : List MgmtBeat) (s : State) : State :=
  let l := ((List.range beats.length).zip beats).map fun e => beatWrites f addr beats.length e.1 e.2
  let bad := l.any List.isEmpty || refusedForm f
  let words := if refusedForm f then [] else l.flatten
  match l with
  | [[e]] => if refusedForm f then burst w addr true 0 (burstWrite w [] true) s else wordWrite w e.1 e.2 s
  | _ => burst w addr true (loadWords words) (burstWrite w words bad) s

/-- A read of the management port or the Steward by address. -/
def addrRead (w : Who) (addr : Nat) (f : AxiForm) (beats : Nat) (s : State) : State :=
  let l := (List.range beats).map (beatWords f addr beats)
  if refusedForm f then burst w addr false 0 (fun s => burstEnd (l.foldl (fun s _ => beatRefused w s) s)) s
  else match l with
  | [[a]] => wordRead w a s
  | _ => burst w addr false 0 (fun s => burstEnd (l.foldl (fun s ws => beatRead w ws s) s)) s

/-- The plain form of an access of one word, and the beat that carries it (R168). -/
def plainForm : AxiForm := ⟨.incr, false, false, false⟩
def wordBeat (addr : Nat) (v : Word) : MgmtBeat :=
  if addr % 8 = 0 then ⟨v.setWidth 64, 0x0F⟩ else ⟨v.setWidth 64 <<< 32, 0xF0⟩

/-- DEFAULT_TARGET: an access that reaches no register (R526). -/
def doDefault (w : Who) (addr : Nat) (write : Bool) (s : State) : State :=
  access s (Who.at_ w addr) (regAddr addr) (addr % 0x800000) write 0 fun _ _ s => s

end Sys2Proof.Machine
end

