-- ==== Sys2Proof/Machine/Clock.lean ====
section
/-! DEFINITION. The block's own time: what happens at each BCLK edge whatever is commanded. An edge has two halves in the
model (log entry 1): at the first time advances and everything that an edge brings by itself happens; commands given then are
commands of that edge; the second half does what depends on them. -/

namespace Sys2Proof.Machine

/-- Do `f` for each member of a list in order. -/
def each (l : List Nat) (f : Nat → State → State) (s : State) : State := l.foldl (fun s i => f i s) s

/-- Do `f` for 0 to n - 1. -/
def upto (n : Nat) (f : Nat → State → State) (s : State) : State := each (List.range n) f s

/-- Clocks of the crossbar and of itineraries stand: block retention and the exit from it (R549, R551). -/
def clocksStand (s : State) : Bool :=
  match s.life with
  | .coldHeld | .retained | .leaving _ _ => true
  | _ => false

/-! ### Time (R8, R9, R100, R117) -/

/-- BCLK advances by one edge; answers that completed before it are past. -/
def nextEdge (s : State) : State :=
  { s with clk := s.clk + 1, late := false, answers := s.answers.filter fun a => decide (s.clk < a.due) }

/-- The register file's past at MCLK edges (R505). -/
def pastM (s : State) : State :=
  if mclkEdge s then { s with regsM1 := s.regs, regsM2 := s.regsM1, regsM3 := s.regsM2 } else s

/-- A running edge: the wheel advances (R100); the register file's past at running edges (R137). -/
def runEdge (s : State) : State :=
  if heldEdge s || clocksStand s then s else
  { s with
    run := s.run + 1
    wheelPos := (s.wheelPos + 1) % 64
    turns := if s.wheelPos = 63 then s.turns + 1 else s.turns
    regsB1 := s.regs
    regsB2 := s.regsB1 }

/-- The register file as it stands at an ACLK edge, before the commands of that edge (R149, R198). -/
def pastA (s : State) : State := if aclkEdge s then { chainsTake s with regsA := s.regs } else s

/-- Time advances by one BCLK edge. -/
def advanceTime (s : State) : State := runEdge (pastA (pastM (nextEdge s)))

/-! ### Columns (R99 to R145) -/

/-- The running edge at which a lane issues, by its bank stage (R101). -/
def laneEdge (bank : Nat) : Nat := bank - 4

/-- A stripe whose lane a wheel exchange has given away fails as a slot miss (R103, R104, R109). -/
def laneGone (s : State) (d : Dir) (x beat k col : Nat) : State := stripeFails s d x beat k 6 { refusedAt 6 with col := col }

/-- A request of a porter or link port whose reserved lane is gone enters its queue, where it would have without that lane (R79, R244). -/
def toQueue (s : State) (c : Nat) (d : Dir) (r : Nat) (e : QEntry) : State :=
  let k := queueKey c d r
  let q := s.queue k
  s.setQueue k (if q.entries.isEmpty then ⟨[e], e.at_, false⟩ else { q with entries := q.entries ++ [e] })

/-- The queue entry of the piece half or inbound stripe that a reserved lane carried; it enters 3 BCLK after its presentation. -/
def laneEntry (s : State) (u : Use) (accs : List Acc) (data : List Coded) (link : Bool) (at_ : Nat) : QEntry :=
  match u with
  | .piece sq => match s.piece sq with
    | some q => ⟨u, accs, data, passClass q.pass, some q.task, at_, if link then some (agentPorter q.agent) else none⟩
    | none => ⟨u, accs, data, 8, none, at_, none⟩
  | _ => ⟨u, accs, data, 8, none, at_, none⟩

/-- The requester number of a lane's master (R123). -/
def requesterOf (master : Nat) : Nat := if 64 ≤ master then 16 + (master - 64) else master - 48

/-- A read lane still to issue follows the wheel set now in force (R103). -/
def refitRead (s : State) (l : RdLane) : State :=
  let own := ownerIn s l.col .rd (laneEdge l.bank - s.run)
  if laneEdge l.bank < s.run then s else
  match l.use with
  | .slot x n k => if own = slotOwner x then s else laneGone (dropLane s l) .rd x n k l.col
  | .fill x i => if own = slotOwner x then s else unissueFill (dropLane s l) x i
  | .piece _ =>
    let r := requesterOf l.master
    if own = (if r < 16 then porterOwner r else linkOwner (r - 16)) then s else
    toQueue (dropLane s l) l.col .rd r (laneEntry s l.use l.accs [] (decide (16 ≤ r)) (laneEdge l.bank))
  | _ => s

/-- A write lane still to issue follows the wheel set now in force (R103). -/
def refitWrite (s : State) (w : WrLane) : State :=
  let own := ownerIn s w.col .wr (laneEdge w.bank - s.run)
  let gone := { s with wrLanes := s.wrLanes.filter fun v => decide (v ≠ w) }
  let queued := fun (o r : Nat) => if own = o then s else
    toQueue gone w.col .wr r (laneEntry s w.use w.accs w.data false (laneEdge w.bank - 1))
  if laneEdge w.bank < s.run then s else
  match w.use with
  | .slot x n k => if own = slotOwner x then s else laneGone s .wr x n k w.col
  | .piece _ => queued (porterOwner (requesterOf w.master)) (requesterOf w.master)
  | .inbound l _ => queued (linkOwner l) (16 + l)
  | _ => s

/-- WHEEL_EXCHANGE: from the exchange BCLK on every lane follows the new set; one that has issued completes under the old (R103). Lanes
reserved ahead that the new set gives to another owner are given up (log entry 20). -/
def doWheelExchange (s : State) : State :=
  let s1 := flipWheels s
  if s1.wheelSet = s.wheelSet then s else s1.wrLanes.foldl refitWrite (s1.rdLanes.foldl refitRead s1)

/-- Both directions of every column. -/
def lotteries (f : Nat → Dir → State → State) (s : State) : State := upto 64 (fun c s => f c .wr (f c .rd s)) s

/-- Announced skips begin; thermal skips are announced (R117, R120, R570). -/
def skips (s : State) : State := doThermalSkip (groupLevel (doSlotSkip s))

/-- A scalar access completes as a regulated transaction (R449, R451). -/
def regScalar (s : State) (g id : Nat) (d : Dir) : State :=
  match (s.scalar g).find? fun x => x.id == id with
  | some x => match x.ready with
    | some r => setScalarAt (regDone s (passClass x.pass) (20 + g) d r) g { x with ready := none }
    | none => s
  | none => s

/-- A read lane whose data is at the crossbar output at this edge completes a regulated transaction. -/
def regReadLane (s : State) (l : RdLane) : State :=
  match l.use with
  | .piece sq => match s.piece sq with
    | some p => regRead s p (requesterOf l.master)
    | none => s
  | .scalar g id => if ((s.scalar g).any fun x => x.id == id && x.req.we) then s else regScalar s g id .rd
  | _ => s

/-- A write lane at its bank stage completes a regulated transaction. -/
def regWriteLane (s : State) (l : WrLane) : State :=
  match l.use with
  | .piece sq => match s.piece sq with
    | some p => regWrite s p
    | none => s
  | .scalarWr g id => regScalar s g id .wr
  | _ => s

/-- Regulated transactions that complete at this edge. -/
def regComplete (s : State) : State :=
  (s.wrLanes.filter fun l => decide (l.bank = s.run)).foldl regWriteLane
    ((s.rdLanes.filter fun l => decide (l.bank + 7 = s.run)).foldl regReadLane s)

/-- Lanes at their bank stage, draws, issues. Draws see the queues as they stood before this edge's issues (R134). -/
def laneWork (s : State) : State :=
  if heldEdge s then s else
  lotteries doIssue (lotteries doLongRoad (lotteries doDraw (regComplete (captureReads (stepLfsrs (doWheelExchange s))))))

/-- Every write lane whose bank stage has come commits. -/
def commits (s : State) : State := if heldEdge s then s else upto 64 doStripeCommit s

/-- Deferred entries drain, one a tile (R113). -/
def drains (s : State) : State := each (s.cols.map Prod.fst) (fun c s => upto 4 (doDrain c) s) s

/-- The occupancy marks of the deferral buffers follow (R122). -/
def deferHighs (s : State) : State := each (s.cols.map Prod.fst) deferHigh s

/-- A lane whose consumer is gone leaves once its data is due. -/
def orphanLanes (s : State) : State :=
  let gone := fun (l : RdLane) => match l.use with
    | .piece sq => (s.piece sq).isNone
    | .scalar g id => !(s.scalar g).any fun x => x.id == id
    | .slot x n _ => !(s.rdDir x).beats.any fun b => b.id == n
    | .fill x i => !(s.sat x).fills.any fun f => f.id == i
    | _ => false
  { s with rdLanes := s.rdLanes.filter fun l => !(gone l && decide (l.due ≤ s.run)) }

/-- The credits of the link ports come home: for stripes committed and packets discarded at earlier edges (R171, R172). -/
def linkCredits (s : State) : State := upto 4 (fun l s => if linkUp s l then creditsHome s l else s) s

/-- The Steward's work in the columns that have any (R48 to R66, R482). -/
def stewardWork (s : State) : State :=
  let one := fun (c : Nat) (s : State) =>
    doScrubRequest c (scrubRetarget c (doRemapStart c (doRemapSwitch c (doCopyMerged c (doScrubResult c (wbRetry c s))))))
  let s1 := upto 64 one s
  each ((s1.fus.filter fun e => e.2.quar && !e.2.quarDone).map Prod.fst) doQuarDone s1

/-- Starvation flags (R139). -/
def starvations (s : State) : State :=
  each (s.queues.map Prod.fst) (fun k => doStarve (k / 74) (if k / 37 % 2 = 0 then .rd else .wr) (k % 37)) s

/-! ### Ports and satchels -/

/-- Port enables that fall end open batches and held reads (R149). -/
def portsClose (s : State) : State :=
  upto 32 (fun x s =>
    if pgEnabled s (groupOf x) (if x < 16 then 0 else 1) then s else
    let s1 := closePort s x
    match (s1.sat x).read with
    | some r => satAbandon s1 x r
    | none => s1) s

/-- The narrow writes of column `c` whose read halves are due merge, each that can (R127). -/
def narrowMerges (c : Nat) (s : State) : State :=
  (s.rdLanes.filter (narrowHit s c)).foldl (fun s _ => doNarrowMerge c s) s

/-- Deliveries and responses of the ports, records and buffered accesses that go on. -/
def portWork (s : State) : State :=
  if heldEdge s then s else
  let slot := fun (x : Nat) (s : State) => escDrain (doTallyWrite x (doWriteResponse x (doReadDelivery x s))) x
  let scalar := fun (g : Nat) (s : State) => scalarRetry (doScalarResponse g s) g
  upto 16 scalar (upto 32 slot (upto 64 narrowMerges (if aclkEdge s then portsClose s else s)))

/-- Satchels: stalls counted, held reads, landings, hops, repetitions. -/
def satchelWork (s : State) : State :=
  let s1 := if aclkEdge s then countStalls (upto 32 doStallEnd s) else s
  upto 32 (fun x s => doEscRetry x (doHop x (doFillLand x (doStallLimit x s)))) s1

/-- Exchanges, and what an exchange mode settles. -/
def exchanges (s : State) : State := upto 32 (fun x s => doExchange x (swapSettle s x)) s

/-! ### Agents (R211, R237, R242, R286) -/

/-- Decode the instruction a context stands before. -/
def decodeNext (a k : Nat) (s : State) : State :=
  match (s.ctx a k).buf[(s.ctx a k).pc]? with
  | none => s
  | some w =>
    match fld w 31 28 with
    | 0 => doEnd a k w s
    | 1 => (match fld w 20 19 with
      | 0 => doSetaLo a k w s
      | 1 => doSetaHi a k w s
      | _ => doSetaTop a k w s)
    | 2 => doAdda a k w s
    | 3 => doModa a k w s
    | 4 => doLoop a k w s
    | 5 => doEndl a k w s
    | 6 => doTest a k w s
    | 7 => doMove a k w s
    | 8 => doWait a k w s
    | 9 => doRing a k w s
    | 10 => doFence a k w s
    | 11 => doSwap a k w s
    | 12 => doFmt a k w s
    | 13 => doTaly a k w s
    | 14 => doHand a k w s
    | _ => doCpya a k w s

/-- The context has a MOVE under way. -/
def moving (s : State) (a k : Nat) : Bool := match (s.ctx a k).hold with | .move _ _ _ => true | _ => false

/-- One BCLK of a fill sequencer's context. -/
def sequencerStep (a k : Nat) (s : State) : State := if moving s a k then doGenerate a k s else decodeNext a k s

/-- An agent's live contexts, the handing run's first (R235). -/
def handingFirst (s : State) (a : Nat) : List Nat :=
  (liveCtxs s a).filter (fun k => !(s.ctx a k).behind) ++ (liveCtxs s a).filter fun k => (s.ctx a k).behind

/-- The context could generate a piece at this edge (R235, R242). -/
def couldGenerate (s : State) (a k : Nat) : Bool :=
  let c := s.ctx a k
  c.live && agentUp s a && decide (c.at_ ≤ s.clk) && sidesKnown c &&
  (match c.hold with
   | .move dst src _ => pieceRoom s a (c.reg src) (c.reg dst)
   | _ => false)

/-- A run started under HAND yields to its handing run where both can generate (R235). -/
def yields (s : State) (a k : Nat) : Bool := (s.ctx a k).behind && couldGenerate s a (otherCtx k)

/-- A porter's MOVEs that stand at their turn begin without a decoder step. -/
def enterNext (a k : Nat) (s : State) : State :=
  match (s.ctx a k).buf[(s.ctx a k).pc]? with
  | some w => enterMove a k w s
  | none => s

/-- Contexts of a porter's channels, in round-robin order after `last`: (channel, context). -/
def porterCtxs (p last : Nat) : List (Nat × Nat) :=
  (List.range 32).map fun i => let j := (last + i) % 32; (chanAgent p (j / 2), j % 2)

/-- The contexts of a porter that run, in round-robin order after `last`. -/
def runningCtxs (s : State) (p last : Nat) : List (Nat × Nat) := (porterCtxs p last).filter fun e => (s.ctx e.1 e.2).live

/-- One BCLK of a porter's decoder: one step (R242). -/
def porterDecode (p : Nat) (s : State) : State :=
  let s1 := (runningCtxs s p 0).foldl (fun s e => enterNext e.1 e.2 s) s
  (runningCtxs s p (ptr s (ptrDec p))).foldl (fun s e =>
    if moving s e.1 e.2 then (if sidesKnown (s.ctx e.1 e.2) && !yields s e.1 e.2 then doGenerate e.1 e.2 s else s)
    else decodeNext e.1 e.2 s) s1

/-- The requesters of the page-map store in round-robin order: the fill sequencers and the porters (R286). -/
def requesters (s : State) : List Nat := (List.range 48).map fun i => (ptr s ptrLook + i) % 48

/-- Every context decodes or generates. -/
def decodes (s : State) : State :=
  each (requesters s) (fun r s =>
    if r < 32 then (handingFirst s r).foldl (fun s k => sequencerStep r k s) s else porterDecode (r - 32) s) s

/-- A context that stood before an instruction held for its handing run decodes it in the BCLK in which that run ends (R235, R237). -/
def heldDecode (a k : Nat) (s : State) : State :=
  match (s.ctx a k).buf[(s.ctx a k).pc]? with
  | some w => if behindHolds (fld w 31 28) then decodeNext a k s else s
  | none => s
def heldDecodes (s : State) : State :=
  each (requesters s) (fun r s =>
    (if r < 32 then (liveCtxs s r).map fun k => (r, k) else runningCtxs s (r - 32) (ptr s (ptrDec (r - 32)))).foldl
      (fun s e => heldDecode e.1 e.2 s) s) s

/-- The page-map store grants lookups, once a swap of this edge has taken effect: eight, one a requester, round-robin; a porter's
channels in turn (R282, R286, R287). -/
def lookups (s : State) : State :=
  each (requesters s) (fun r s =>
    (if r < 32 then (handingFirst s r).map fun k => (r, k) else runningCtxs s (r - 32) (ptr s (ptrLookCh (r - 32)))).foldl
      (fun s e => lookup e.1 e.2 s) s) s

/-- Fences and ends of runs. -/
def runEnds (s : State) : State :=
  heldDecodes (each (busyAgents s) (fun a s => [0, 1].foldl (fun s k => doRunEnd a k (doFenceComplete a k s)) s) s)

/-- An agent that begins to ask the store for a fetch (R211, R240). -/
def askFetch (a : Nat) (s : State) : State :=
  let v := s.agent a
  if v.reqAt.isNone && (fetchNext s a).isSome then s.setAgent a { v with reqAt := some s.clk } else s

/-- The store serves the fetch under way and, being free, grants one. -/
def fetches (s : State) : State :=
  let s1 := each (s.agents.map Prod.fst) askFetch s
  let s2 := match fetching s1 with
    | some a => doFetch a s1
    | none => s1
  match fetching s2, nextFetcher s2 with
  | none, some a => doFetch a s2
  | _, _ => s2

/-- Halves that become ready are timed as regulated transactions (R449). -/
def readyMarks (s : State) : State :=
  each ((s.agents.map Prod.fst).filter isChan) (fun a s =>
    let s1 := match nextRead s a with
      | some q => if q.src.space < 2 ∧ q.dst.space ≠ 4 then setPiece s { q with rdAt := readyAt s q.rdAt } else s
      | none => s
    match nextWrite s1 a with
    | some q => if q.dst.space < 2 ∧ q.rd = .complete then setPiece s1 { q with wrAt := readyAt s1 q.wrAt } else s1
    | none => s1) s

/-- Read halves that complete. -/
def readsDone (s : State) : State :=
  (s.pieces.map fun q => (q.agent, q.sq)).foldl (fun s e => doReadComplete e.1 e.2 s) s

/-- Porters present halves and send beats. -/
def porterWork (s : State) : State :=
  upto 16 (fun p s => doWriteHalf p (doReadHalf p s)) (readyMarks (sendBeats s))

/-- Tasks in rising order. -/
def risingTasks (l : List Nat) : List Nat := l.foldr (fun t l => l.takeWhile (fun u => decide (u < t)) ++ t :: l.dropWhile fun u => decide (u < t)) []

/-- Aborts that take effect, by task tag (R268), and aborts that are over. -/
def abortsFire (s : State) : State := each (risingTasks (s.aborts.map Abort.task)) doTaskAbort s
def abortsEnd (s : State) : State := each (s.aborts.map Abort.task) doAbortDone s

/-- Agents: itineraries, porters, the counters of waits and holds. -/
def agentWork (s : State) : State :=
  porterWork (fetches (exchanges (runEnds (decodes (countHolds (countWaits (abortsFire (readsDone s))))))))

/-! ### Links -/

/-- The stripes of one running edge of link port `l` (R32, R174). -/
def linkLanes (l : Nat) (s : State) : State :=
  if heldEdge s then s else
  upto (linkStripes s) (fun _ s => let s1 := presentInbound s l; if linkUp s1 l then presentOutbound s1 l else s1) s

/-- One BCLK of link port `l`. -/
def linkWork (l : Nat) (s : State) : State :=
  if !linkWrites s l then s else inboundEnds (linkLanes l (if linkUp s l then doPacketSend l s else s)) l

/-- The checks of inbound packets due at this edge, on the entries' states as the edge's commands leave them (R432, R435). -/
def linkChecks (s : State) : State := upto 4 (fun l s => if linkUp s l then inboundChecks s l else s) s

/-- Link ports and windows. -/
def linksWork (s : State) : State :=
  let s1 := upto 4 linkWork s
  each (busyWins s1) (fun w s => doOpenLimit w (doOpenRepeat w (winSettle s w))) s1

/-- Requests unanswered too long (R431). -/
def ackTimeouts (s : State) : State :=
  upto 4 (fun l s => (s.link l).sent.foldl (fun s p => doAckTimeout l p.seq p.link s) s) s

/-! ### MCLK and TCLK -/

/-- Bells, and what comes about at the Strongbox at an MCLK edge before the edge's accesses. -/
def mclkWork (s : State) : State :=
  if mclkEdge s then reapFinish (reapEntries (doBellComplete (doWipeDone s))) else s

/-- The Strongbox port decides between the accesses that stand at it and the reaper; a wipe writes its next word (R396, R397, R416). -/
def portDecides (s : State) : State := if mclkEdge s then wipeStep (doReapStep (sboxAccept s)) else s

/-- The Strongbox answers every access that completes at this edge (R398). -/
def sboxAnswers (s : State) : State := (s.sboxAns.filter fun a => decide (a.due ≤ s.clk)).foldl (fun s _ => doSboxComplete s) s

/-- Fault units at a TCLK edge, the error output, the safe state: what earlier edges have decided (R474, R480, R483, R490). -/
def faultWork (s : State) : State :=
  let s1 := if tclkEdge s then each (s.fus.map Prod.fst) doEscalation (each (s.fus.map Prod.fst) doTrackExpire s) else s
  doErrEnd (doSafeEntry s1)

/-- What a TCLK edge decides in the fault units, once the clears and events of that edge are known: recoveries, curfews (R476 to R486). -/
def unitWork (n : Nat) (s : State) : State := doCurfew n (doQuiet n (fuSettle s n))
def unitsDecide (s : State) : State := if tclkEdge s then each (s.fus.map Prod.fst) unitWork s else s

/-- Regulation at a TCLK edge (R450, R456, R457). -/
def regWork (s : State) : State :=
  if tclkEdge s then upto 8 (fun c s => doLevelDecay c (doLevelRise c s)) (regTick s) else s

/-! ### Limits and long operations -/

/-- Limits on waiting (R179, R262, R290). -/
def limits (s : State) : State :=
  let s1 := each (s.ctxs.map Prod.fst) (fun i => doEpochLimit (i / 2) (i % 2)) s
  let s2 := each (s1.farHold.map Prod.fst) doFarLimit s1
  ackTimeouts (upto 16 doReclaimTimeout s2)

/-- Page-map commands, loads, wipes, answers of the Strongbox. -/
def longWork (s : State) : State :=
  let s1 := applyTick (doPmapDone s)
  let s2 := match s1.loader.phase with
    | .checking t => if t + checkBound ≤ s1.clk then doImageCheck s1 else s1
    | _ => s1
  sboxAnswers (doApplyDone s2)

/-- Resets of masters and of the block. -/
def resetWork (s : State) : State :=
  let s1 := rstDoneEnds s
  let s2 := each ((s1.rsts.filter fun e => e.2.active).map Prod.fst) doRstComplete s1
  doSelfTest s2

/-- Transitions of domains that end (R544). -/
def domainsDone (s : State) : State :=
  each ((s.domains.filter fun e => e.2.moving.isSome).map Prod.fst) doDomDone s

/-- The stages of block retention and the end of a warm reset. -/
def lifeWork (s : State) : State :=
  match s.life with
  | .entering _ => doRetentionEntered s
  | .retained => if s.wake then startExit s else s
  | .leaving _ _ => doRetentionExit s
  | .warmBusy wheel => warmGoesOn s wheel
  | _ => s

/-! ### An edge -/

/-- What the first half of an edge brings before the array is written. Edge 1 of a reset comes before anything a master could still do at
it (R175 to R177). -/
def before (s : State) : State := laneWork (rstTick (skips (linkCredits s)))

/-- What it brings after. -/
def after (s : State) : State :=
  doSelect (abortsEnd (limits (resetWork (longWork (regWork (mclkWork (ringRelease (linksWork (agentWork
    (satchelWork (portWork (orphanLanes (starvations (stewardWork (faultWork s)))))))))))))))

/-- An edge with the clocks of the crossbar standing: throttle levels are still taken (R570), and the edge at which the exit is complete
announces a skip of the next cycle (R120). -/
def standing (s : State) : State :=
  let s1 := lifeWork (calm (fun s => doSelect (longWork (doWipeDone (faultWork (groupLevel s))))) s)
  if clocksStand s1 then s1 else calm doThermalSkip s1

/-- The first half of an edge, time having advanced. -/
def early (s : State) : State :=
  if clocksStand s then standing s
  else lifeWork (timeless domainsDone (calm after (timeless (fun s => deferHighs (commits (drains s))) (calm before s))))

/-- Tally exports that a unit may serve (R354). -/
def exportWork (s : State) : State :=
  (s.exports.filter fun e => e.due.isNone).foldl (fun s e => match s.piece e.sq with
    | some q => doExport q.agent e.sq s
    | none => s) s

/-- A sample of the temperature sensors is taken every 1024 TCLK edges (R557). -/
def sampleTherm (s : State) : State :=
  if tclkEdge s ∧ 0 < tclk s ∧ tclk s % 1024 = 0 ∧ doneNow s lastTherm = false then doThermal [] s else s

/-- The second half of an edge. -/
def lateWork (s : State) : State :=
  if clocksStand s then sampleTherm (unitsDecide (wipeStep s))
  else sampleTherm (unitsDecide (portDecides (deferHighs (drainSkip (exportWork (lookups (runEnds (linkChecks (upto 32 doFillIssue s)))))))))

/-- Time goes on by half an edge; under cold reset it stands. -/
def tick (s : State) : State :=
  match s.life with
  | .coldHeld => s
  | _ => if s.late then early (advanceTime s) else { calm lateWork s with late := true }

end Sys2Proof.Machine
end

