-- ==== Sys2Proof/Machine/BellCmds.lean ====
section
/-! DEFINITION. Meanings of the commands of bells. A register command is
the access that gives it, in the view its requester names. -/

namespace Sys2Proof.Machine

/-- BELL_RING (R379). A write of bellRing. -/
def execBellRing (w : Who) (n : Nat) (b : Bool) (scope cnt : Nat) (s : State) : Result :=
  steady s (ctlWrite w .bellRing n (wd (2 ^ 31 + cnt % 256 + 256 * b2n b + scope % 4 * 512)))

/-- BELL_TAKE (R380). A write of bellTake. -/
def execBellTake (w : Who) (n : Nat) (b : Bool) (scope cnt : Nat) (s : State) : Result :=
  steady s (ctlWrite w .bellTake n (wd (2 ^ 31 + cnt % 256 + 256 * b2n b + scope % 4 * 512)))

/-- BELL_INIT (R381). A write of bellInit. -/
def execBellInit (w : Who) (n : Nat) (b : Bool) (cnt : Nat) (s : State) : Result :=
  steady s (ctlWrite w .bellInit n (wd (2 ^ 31 + cnt % 65536 + 65536 * b2n b)))

/-- TKRES_READ (R380). A read of bellTkres. -/
def execTkresRead (w : Who) (t : Nat) (s : State) : Result := steady s (ctlRead w .bellTkres t)

/-- BELL_COMPLETE (R376). -/
def execBellComplete (s : State) : Result := steady s doBellComplete

end Sys2Proof.Machine
end

