-- ==== Sys2Proof/Machine/FaultCmds.lean ====
section
/-! DEFINITION. Meanings of the commands of regulation and fault units. A register command is
the access that gives it, in the view its requester names. -/

namespace Sys2Proof.Machine

/-- LEVEL_RISE (R456). -/
def execLevelRise (c : Nat) (s : State) : Result := steady s (doLevelRise c)

/-- LEVEL_DECAY (R457). -/
def execLevelDecay (c : Nat) (s : State) : Result := steady s (doLevelDecay c)

/-- RSV_WRITE (R460). A write of regClassRsv. -/
def execRsvWrite (w : Who) (c : Nat) (v : Word) (s : State) : Result := steady s (ctlWrite w .regClassRsv c v)

/-- TRACKER_EXPIRE (R474). -/
def execTrackerExpire (c : Nat) (s : State) : Result := steady s (doTrackExpire c)

/-- FORCE (R472). A write of fuForce. -/
def execForce (w : Who) (n : Nat) (v : Word) (s : State) : Result := steady s (ctlWrite w .fuForce n v)

/-- FU_STAT_CLEAR (R477). A write of fuStat. -/
def execFuStatClear (w : Who) (n : Nat) (v : Word) (s : State) : Result := steady s (ctlWrite w .fuStat n v)

/-- FIRST_CLEAR (R470). A write of fuFirst. -/
def execFirstClear (w : Who) (n : Nat) (s : State) : Result := steady s (ctlWrite w .fuFirst n 0x80)

/-- FIRST_OVF_CLEAR (R470). A write of fuFirst. -/
def execFirstOvfClear (w : Who) (n : Nat) (s : State) : Result := steady s (ctlWrite w .fuFirst n 0x40)

/-- LEDGER_CLR (R493). A write of fuLedgerClr. -/
def execLedgerClr (w : Who) (n : Nat) (s : State) : Result := steady s (ctlWrite w .fuLedgerClr n (wd (2 ^ 31)))

/-- LEDGER_CAPTURE_READ (R469). A read of fuLedgerInfo. -/
def execLedgerCaptureRead (w : Who) (n i : Nat) (s : State) : Result := steady s (ctlRead w .fuLedgerInfo (ix n 8 i))

/-- CURFEW_EXPIRY (R478). -/
def execCurfewExpiry (n : Nat) (s : State) : Result := steady s (doCurfew n)

/-- ESCALATION (R480). -/
def execEscalation (n : Nat) (s : State) : Result := steady s (doEscalation n)

/-- QUARANTINE_COMPLETE (R482). -/
def execQuarantineComplete (c : Nat) (s : State) : Result := steady s (doQuarDone c)

/-- ERR_PULSE_END (R483). -/
def execErrPulseEnd (s : State) : Result := steady s doErrEnd

/-- ERR_HOLD_WRITE (R483). A write of fuErrHold. -/
def execErrHoldWrite (w : Who) (hold : Bool) (s : State) : Result := steady s (ctlWrite w .fuErrHold 0 (wd (b2n hold)))

/-- QUIET_PERIOD (R485). -/
def execQuietPeriod (n : Nat) (s : State) : Result := steady s (doQuiet n)

/-- SELF_PAR (R487). -/
def execSelfPar (n : Nat) (s : State) : Result := steady s (doSelfPar n)

/-- STW_WDOG (R489). -/
def execStwWdog (s : State) : Result := steady s (fun s => raise s fuStw 2)

/-- SAFE_CMD (R488). A write of fuSafeCmd. -/
def execSafeCmd (w : Who) (s : State) : Result := steady s (ctlWrite w .fuSafeCmd 0 (wd (2 ^ 31)))

/-- SAFE_STATE_ENTRY (R490). -/
def execSafeStateEntry (s : State) : Result := steady s doSafeEntry

end Sys2Proof.Machine
end

