-- ==== Sys2Proof/Machine/ImageCmds.lean ====
section
/-! DEFINITION. Meanings of the commands of configuration images and regions. A register command is
the access that gives it, in the view its requester names. -/

namespace Sys2Proof.Machine

/-- The seven registers of a region descriptor, in the order of their addresses (R97). -/
def regionReg (i : Nat) : RegId :=
  match i with
  | 0 => .regionCtrl
  | 1 => .regionPbase
  | 2 => .regionXbase
  | 3 => .regionRows
  | 4 => .regionColmaskLo
  | 5 => .regionColmaskHi
  | _ => .regionPerm

/-- LOAD (R517). A write of cfgCmd. -/
def execLoad (w : Who) (s : State) : Result := steady s (ctlWrite w .cfgCmd 0 (wd (2 ^ 31)))

/-- PARTIAL (R517). A write of cfgCmd. -/
def execPartial (w : Who) (s : State) : Result := steady s (ctlWrite w .cfgCmd 0 (wd (2 ^ 31 + 1)))

/-- CANCEL (R518). A write of cfgCmd. -/
def execCancel (w : Who) (s : State) : Result := steady s (ctlWrite w .cfgCmd 0 (wd (2 ^ 31 + 2)))

/-- CFG_OP_RESERVED (R535). A write of cfgCmd. -/
def execCfgOpReserved (w : Who) (s : State) : Result := steady s (ctlWrite w .cfgCmd 0 (wd (2 ^ 31 + 3)))

/-- LOAD_WORD (R518). A write of cfgLoad. -/
def execLoadWord (w : Who) (v : Word) (s : State) : Result := steady s (ctlWrite w .cfgLoad 0 v)

/-- IMAGE_CHECK_DONE (R519). -/
def execImageCheckDone (s : State) : Result := steady s doImageCheck

/-- APPLY_DONE (R520). -/
def execApplyDone (s : State) : Result := steady s doApplyDone

/-- SEAL (R524). A write of cfgSeal. -/
def execSeal (w : Who) (s : State) : Result := steady s (ctlWrite w .cfgSeal 0 1)

/-- REGION_WRITE (R96). A write of the region descriptor's register of place `i`. -/
def execRegionWrite (w : Who) (n i : Nat) (v : Word) (s : State) : Result := steady s (ctlWrite w (regionReg i) n v)

end Sys2Proof.Machine
end

