-- ==== Sys2Proof/Machine/IntcCmds.lean ====
section
/-! DEFINITION. Meanings of the commands of the interrupt controller. A register command is
the access that gives it, in the view its requester names. -/

namespace Sys2Proof.Machine

/-- INTERRUPT_SELECT (R505). -/
def execInterruptSelect (s : State) : Result := steady s doSelect

/-- CLAIM (R506). A read of intcTgtClaim. -/
def execClaim (w : Who) (t : Nat) (s : State) : Result := steady s (ctlRead w .intcTgtClaim t)

/-- EOI (R509). A write of intcTgtEoi. -/
def execEoi (w : Who) (t src : Nat) (s : State) : Result := steady s (ctlWrite w .intcTgtEoi t (wd (2 ^ 31 + src % 512)))

/-- SGI (R497). A write of intcSgi. -/
def execSgi (w : Who) (dest id : Nat) (s : State) : Result :=
  steady s (ctlWrite w .intcSgi 0 (wd (2 ^ 31 + dest % 32 * 256 + id % 8)))

/-- SETPEND (R498). A write of intcSetpend. -/
def execSetpend (w : Who) (i : Nat) (v : Word) (s : State) : Result := steady s (ctlWrite w .intcSetpend i v)

/-- CLRPEND (R498). A write of intcClrpend. -/
def execClrpend (w : Who) (i : Nat) (v : Word) (s : State) : Result := steady s (ctlWrite w .intcClrpend i v)

/-- SRC_CFG_WRITE (R508). A write of intcSrcCfg. -/
def execSrcCfgWrite (w : Who) (s : Nat) (v : Word) (st : State) : Result := steady st (ctlWrite w .intcSrcCfg s v)

/-- TARGET_SLEEP (R510). -/
def execTargetSleep (t : Nat) (level : Bool) (s : State) : Result := steady s (doSleep t level)

end Sys2Proof.Machine
end

