-- ==== Sys2Proof/Machine/ItineraryCmds.lean ====
section
/-! DEFINITION. Meanings of the commands of itineraries. A register command is
the access that gives it, in the view its requester names. -/

namespace Sys2Proof.Machine

/-- ITINERARY_FETCH (R211). -/
def execItineraryFetch (a : Nat) (s : State) : Result := steady s (doFetch a)

/-- END (R233). -/
def execEnd (a k : Nat) (w : Word) (s : State) : Result := steady s (doEnd a k w)

/-- SETA_LO (R219). -/
def execSetaLo (a k : Nat) (w : Word) (s : State) : Result := steady s (doSetaLo a k w)

/-- SETA_HI (R219). -/
def execSetaHi (a k : Nat) (w : Word) (s : State) : Result := steady s (doSetaHi a k w)

/-- SETA_TOP (R219). -/
def execSetaTop (a k : Nat) (w : Word) (s : State) : Result := steady s (doSetaTop a k w)

/-- ADDA (R214). -/
def execAdda (a k : Nat) (w : Word) (s : State) : Result := steady s (doAdda a k w)

/-- MODA (R219). -/
def execModa (a k : Nat) (w : Word) (s : State) : Result := steady s (doModa a k w)

/-- LOOP (R224). -/
def execLoop (a k : Nat) (w : Word) (s : State) : Result := steady s (doLoop a k w)

/-- ENDL (R225). -/
def execEndl (a k : Nat) (w : Word) (s : State) : Result := steady s (doEndl a k w)

/-- TEST (R227). -/
def execTest (a k : Nat) (w : Word) (s : State) : Result := steady s (doTest a k w)

/-- MOVE (R220). -/
def execMove (a k : Nat) (w : Word) (s : State) : Result := steady s (doMove a k w)

/-- PIECE_GENERATE (R221). -/
def execPieceGenerate (a k : Nat) (s : State) : Result := steady s (doGenerate a k)

/-- WAIT (R228). -/
def execWait (a k : Nat) (w : Word) (s : State) : Result := steady s (doWait a k w)

/-- RING (R228). -/
def execRing (a k : Nat) (w : Word) (s : State) : Result := steady s (doRing a k w)

/-- FENCE (R229). -/
def execFence (a k : Nat) (w : Word) (s : State) : Result := steady s (doFence a k w)

/-- FENCE_COMPLETE (R229). -/
def execFenceComplete (a k : Nat) (s : State) : Result := steady s (doFenceComplete a k)

/-- SWAP (R230). -/
def execSwap (a k : Nat) (w : Word) (s : State) : Result := steady s (doSwap a k w)

/-- FMT (R231). -/
def execFmt (a k : Nat) (w : Word) (s : State) : Result := steady s (doFmt a k w)

/-- TALY (R232). -/
def execTaly (a k : Nat) (w : Word) (s : State) : Result := steady s (doTaly a k w)

/-- HAND (R234). -/
def execHand (a k : Nat) (w : Word) (s : State) : Result := steady s (doHand a k w)

/-- CPYA (R219). -/
def execCpya (a k : Nat) (w : Word) (s : State) : Result := steady s (doCpya a k w)

/-- RUN_END (R233). -/
def execRunEnd (a k : Nat) (s : State) : Result := steady s (doRunEnd a k)

end Sys2Proof.Machine
end

