-- ==== Sys2Proof/Machine/LinkCmds.lean ====
section
/-! DEFINITION. Meanings of the commands of link ports and remote windows. A register command is
the access that gives it, in the view its requester names. -/

namespace Sys2Proof.Machine

/-- INBOUND_WRITE (R432). -/
def execInboundWrite (l : Nat) (h : Header) (s : State) : Result := steady s (doInboundWrite l h)

/-- INBOUND_FLIT (R172). -/
def execInboundFlit (l : Nat) (data : List Row) (s : State) : Result := steady s (doInboundFlit l data)

/-- MALFORMED_HEADER (R173). -/
def execMalformedHeader (l : Nat) (h : Header) (s : State) : Result := steady s (doMalformed l h)

/-- STRAY_FLIT (R173). -/
def execStrayFlit (l : Nat) (s : State) : Result := steady s (doStrayFlit l)

/-- CREDIT_RETURN (R171). -/
def execCreditReturn (l hdr dat : Nat) (s : State) : Result := steady s (doCreditReturn l hdr dat)

/-- OUTBOUND_PACKET_SEND (R174). -/
def execOutboundPacketSend (l : Nat) (s : State) : Result := steady s (doPacketSend l)

/-- ACK (R430). -/
def execAck (l : Nat) (h : Header) (s : State) : Result := steady s (doAck l h)

/-- NACK (R430). -/
def execNack (l : Nat) (h : Header) (s : State) : Result := steady s (doNack l h)

/-- OPEN_REQ (R425). -/
def execOpenReq (l : Nat) (h : Header) (s : State) : Result := steady s (doOpenReq l h)

/-- OPEN_RSP (R426). -/
def execOpenRsp (l : Nat) (h : Header) (s : State) : Result := steady s (doOpenRsp l h)

/-- CLOSE_REQ (R437). -/
def execCloseReq (l : Nat) (h : Header) (s : State) : Result := steady s (doCloseReq l h)

/-- CLOSE_RSP (R438). -/
def execCloseRsp (l : Nat) (h : Header) (s : State) : Result := steady s (doCloseRsp l h)

/-- WINDOW_ENTRY_WRITE (R420). A write of winCfg, winMap or winSize. -/
def execWindowEntryWrite (w : Who) (n : Nat) (f : WinField) (v : Word) (s : State) : Result :=
  steady s (ctlWrite w (winReg f) n v)

/-- OPEN (R424). A write of winCmd. -/
def execOpen (w : Who) (n : Nat) (s : State) : Result := steady s (ctlWrite w .winCmd 0 (wd (2 ^ 31 + n % 4096)))

/-- CLOSE (R435). A write of winCmd. -/
def execClose (w : Who) (n : Nat) (s : State) : Result := steady s (ctlWrite w .winCmd 0 (wd (2 ^ 31 + 4096 + n % 4096)))

/-- FORCE_CLOSE (R436). A write of winCmd. -/
def execForceClose (w : Who) (n : Nat) (s : State) : Result :=
  steady s (ctlWrite w .winCmd 0 (wd (2 ^ 31 + 8192 + n % 4096)))

/-- WIN_OP_RESERVED (R443). A write of winCmd. -/
def execWinOpReserved (w : Who) (n : Nat) (s : State) : Result :=
  steady s (ctlWrite w .winCmd 0 (wd (2 ^ 31 + 12288 + n % 4096)))

/-- OPEN_REQ_REPEAT (R426). -/
def execOpenReqRepeat (n : Nat) (s : State) : Result := steady s (doOpenRepeat n)

/-- OPEN_LIMIT (R426). -/
def execOpenLimit (n : Nat) (s : State) : Result := steady s (doOpenLimit n)

/-- ACK_TIMEOUT (R431). -/
def execAckTimeout (l sq link : Nat) (s : State) : Result := steady s (doAckTimeout l sq link)

end Sys2Proof.Machine
end

