-- ==== Sys2Proof/Machine/PlaneCmds.lean ====
section
/-! DEFINITION. Meanings of the commands of register accesses by address. A register command is
the access that gives it, in the view its requester names. -/

namespace Sys2Proof.Machine

/-- LOW_WORD_READ (R15). -/
def execLowWordRead (w : Who) (addr : AxiRead) (s : State) : Result :=
  steady s (addrRead w addr.addr addr.form addr.beats)

/-- REGISTER_WRITE (R12, R168). -/
def execRegisterWrite (w : Who) (addr : AxiAddr) (v : List MgmtBeat) (s : State) : Result :=
  steady s (addrWrite w addr.addr addr.form v)

/-- DEFAULT_TARGET (R526). -/
def execDefaultTarget (w : Who) (addr : Nat) (write : Bool) (s : State) : Result := steady s (doDefault w addr write)

end Sys2Proof.Machine
end

