-- ==== Sys2Proof/Machine/PmapCmds.lean ====
section
/-! DEFINITION. Meanings of the commands of page maps, Changers, Tally units. A register command is
the access that gives it, in the view its requester names. -/

namespace Sys2Proof.Machine

/-- PMAP_SWAP (R281). A write of pmapCmd. -/
def execPmapSwap (w : Who) (s : Nat) (st : State) : Result := steady st (ctlWrite w .pmapCmd 0 (wd (2 ^ 31 + s % 64)))

/-- PMAP_COPY (R291). A write of pmapCmd. -/
def execPmapCopy (w : Who) (s : Nat) (st : State) : Result := steady st (ctlWrite w .pmapCmd 0 (wd (2 ^ 31 + 256 + s % 64)))

/-- PMAP_CLEAR (R291). A write of pmapCmd. -/
def execPmapClear (w : Who) (s : Nat) (st : State) : Result := steady st (ctlWrite w .pmapCmd 0 (wd (2 ^ 31 + 512 + s % 64)))

/-- PMAP_OP_RESERVED (R291). A write of pmapCmd. -/
def execPmapOpReserved (w : Who) (s : Nat) (st : State) : Result :=
  steady st (ctlWrite w .pmapCmd 0 (wd (2 ^ 31 + 768 + s % 64)))

/-- PMAP_OP_DONE (R291). -/
def execPmapOpDone (s : State) : Result := steady s doPmapDone

/-- INACT_WRITE (R294). A write of pmapInactEnt. -/
def execInactWrite (w : Who) (s i : Nat) (v : Word) (st : State) : Result :=
  steady st (ctlWrite w .pmapInactEnt (ix s 4096 i) v)

/-- EPOCH_WAIT_LIMIT (R290). -/
def execEpochWaitLimit (a k : Nat) (s : State) : Result := steady s (doEpochLimit a k)

/-- SR_SEED_WRITE (R321). A write of chgSrSeed. -/
def execSrSeedWrite (w : Who) (x : Nat) (v : Word) (s : State) : Result := steady s (ctlWrite w .chgSrSeed x v)

/-- CHANGER_CNT_CLR (R338). A write of chgCntClr. -/
def execChangerCntClr (w : Who) (x : Nat) (s : State) : Result := steady s (ctlWrite w .chgCntClr x (wd (2 ^ 31)))

/-- TALLY_RECORD_WRITE (R351). -/
def execTallyRecordWrite (x : Nat) (s : State) : Result := steady s (doTallyWrite x)

/-- TALLY_READ (R352). -/
def execTallyRead (g : Nat) (sel : Bool) (idx : Nat) (s : State) : Result := steady s (doTallyRead g sel idx)

/-- TALLY_CNT_CLR (R355). A write of tallyCntClr. -/
def execTallyCntClr (w : Who) (x : Nat) (s : State) : Result := steady s (ctlWrite w .tallyCntClr x (wd (2 ^ 31)))

end Sys2Proof.Machine
end

