-- ==== Sys2Proof/Machine/PorterCmds.lean ====
section
/-! DEFINITION. Meanings of the commands of porters, far traffic, aborts. A register command is
the access that gives it, in the view its requester names. -/

namespace Sys2Proof.Machine

/-- AXI_READ_DATA (R249). -/
def execAxiReadData (p id : Nat) (r : AxiResp) (data : List Row) (last : Bool) (s : State) : Result :=
  steady s (doAxiRead p id r data last)

/-- AXI_WRITE_RESPONSE (R249). -/
def execAxiWriteResponse (p id : Nat) (r : AxiResp) (s : State) : Result := steady s (doAxiWrite p id r)

/-- PIECE_READ_HALF (R243). -/
def execPieceReadHalf (p : Nat) (s : State) : Result := steady s (doReadHalf p)

/-- PIECE_READ_COMPLETE (R229). -/
def execPieceReadComplete (a sq : Nat) (s : State) : Result := steady s (doReadComplete a sq)

/-- PIECE_WRITE_HALF (R245). -/
def execPieceWriteHalf (p : Nat) (s : State) : Result := steady s (doWriteHalf p)

/-- TALLY_EXPORT_READ (R354). -/
def execTallyExportRead (a sq : Nat) (s : State) : Result := steady s (doExport a sq)

/-- SPLIT_WRITE (R246). A write of porterSplit. -/
def execSplitWrite (w : Who) (p : Nat) (v : Word) (s : State) : Result := steady s (ctlWrite w .porterSplit p v)

/-- ARM (R256). A write of porterChArm. -/
def execArm (w : Who) (p k : Nat) (s : State) : Result := steady s (ctlWrite w .porterChArm (ix p 16 k) 1)

/-- CRDRET (R252). A write of porterChCrdret. -/
def execCrdret (w : Who) (p k n : Nat) (s : State) : Result :=
  steady s (ctlWrite w .porterChCrdret (ix p 16 k) (wd (n % 4096)))

/-- FCH_SEL_WRITE (R259). A write of fchSel. -/
def execFchSelWrite (w : Who) (v : Word) (s : State) : Result := steady s (ctlWrite w .fchSel 0 v)

/-- FAR_CHANNEL_HOLD (R260). -/
def execFarChannelHold (mask : BitVec 64) (s : State) : Result := steady s (doFarHold mask)

/-- FAR_HOLD_LIMIT (R262). -/
def execFarHoldLimit (c : Nat) (s : State) : Result := steady s (doFarLimit c)

/-- TASK_ABORT (R264). -/
def execTaskAbort (task : Nat) (s : State) : Result := steady s (doTaskAbort task)

/-- ABORT_DONE (R266). -/
def execAbortDone (task : Nat) (s : State) : Result := steady s (doAbortDone task)

/-- SOFTWARE_ABORT (R271). A write of tabtCmd. -/
def execSoftwareAbort (w : Who) (task : Nat) (s : State) : Result :=
  steady s (ctlWrite w .tabtCmd 0 (wd (2 ^ 31 + task % 1024)))

/-- ABORT_RECORD_CLEAR (R274). A write of tabtRecInfo. -/
def execAbortRecordClear (w : Who) (i : Nat) (s : State) : Result := steady s (ctlWrite w .tabtRecInfo i 1)

end Sys2Proof.Machine
end

