-- ==== Sys2Proof/Machine/PowerCmds.lean ====
section
/-! DEFINITION. Meanings of the commands of power domains, block retention, resets of the block, thermal protection, rails. A register command is
the access that gives it, in the view its requester names. -/

namespace Sys2Proof.Machine

/-- DOMAIN_TARGET_WRITE (R544). A write of pwrDom. -/
def execDomainTargetWrite (w : Who) (d : Nat) (v : Word) (s : State) : Result := steady s (ctlWrite w .pwrDom d v)

/-- DOMAIN_TRANSITION_DONE (R543). -/
def execDomainTransitionDone (d : Nat) (s : State) : Result := storing s (doDomDone d)

/-- RETAIN (R549). A write of pwrCmd. -/
def execRetain (w : Who) (s : State) : Result := steady s (ctlWrite w .pwrCmd 0 (wd (2 ^ 31)))

/-- WAKE (R551). A write of pwrCmd. -/
def execWake (w : Who) (s : State) : Result := steady s (ctlWrite w .pwrCmd 0 (wd (2 ^ 31 + 1)))

/-- PWR_OP_RESERVED (R563). A write of pwrCmd. -/
def execPwrOpReserved (w : Who) (s : State) : Result := steady s (ctlWrite w .pwrCmd 0 (wd (2 ^ 31 + 2)))

/-- RETENTION_ENTERED (R549). -/
def execRetentionEntered (s : State) : Result := steady s doRetentionEntered

/-- WAKE_PIN (R551). -/
def execWakePin (s : State) : Result := steady s doWakePin

/-- RETENTION_EXIT_DONE (R551). -/
def execRetentionExitDone (s : State) : Result := powered s doRetentionExit

/-- COLD_RESET (R554). -/
def execColdReset (s : State) : Result := .next { doColdReset s with pending := s.pending }

/-- RESET_KIND_CHANGE (R553). -/
def execResetKindChange (s : State) : Result :=
  match s.life with
  | .warmHeld => .next { doColdReset s with pending := s.pending }
  | _ => powered s doKindChange

/-- COLD_RESET_RELEASE (R553). -/
def execColdResetRelease (s : State) : Result := .next { doColdRelease s with pending := s.pending }

/-- SELF_TEST_COMPLETE (R554). -/
def execSelfTestComplete (s : State) : Result := steady s doSelfTest

/-- WARM_RESET (R555). -/
def execWarmReset (s : State) : Result := powered s doWarmReset

/-- WARM_RESET_COMPLETE (R555). -/
def execWarmResetComplete (s : State) : Result := powered s doWarmComplete

/-- THERMAL_SAMPLE (R557). -/
def execThermalSample (temps : List (BitVec 8)) (s : State) : Result := steady s (doThermal temps)

/-- TAMPER_RELEASE (R416). -/
def execTamperRelease (s : State) : Result := steady s doTamperRelease

/-- PARITY_ERROR (R464). -/
def execParityError (site : ParitySite) (s : State) : Result := steady s (doParity site)

/-- STW_MEM_UE (R489). -/
def execStwMemUe (s : State) : Result := steady s (fun s => raise s fuStw 1)

/-- RAIL_LEAVES_TOLERANCE (R542). -/
def execRailLeavesTolerance (s : State) : Result := .next { doRail s with pending := s.pending }

end Sys2Proof.Machine
end

