-- ==== Sys2Proof/Machine/ResetCmds.lean ====
section
/-! DEFINITION. Meanings of the commands of resets of port groups, porters and link ports. A register command is
the access that gives it, in the view its requester names. -/

namespace Sys2Proof.Machine

/-- PORT_GROUP_RESET (R175). -/
def execPortGroupReset (g : Nat) (s : State) : Result := steady s (beginRst (rstPg (g % 16)) true)

/-- PG_RST_CMD (R175). A write of pgRstCmd. -/
def execPgRstCmd (w : Who) (g : Nat) (s : State) : Result := steady s (ctlWrite w .pgRstCmd g 1)

/-- PORTER_RESET (R176). -/
def execPorterReset (p : Nat) (s : State) : Result := steady s (beginRst (rstPorter (p % 16)) true)

/-- PP_RST_CMD (R176). A write of ppRstCmd. -/
def execPpRstCmd (w : Who) (p : Nat) (s : State) : Result := steady s (ctlWrite w .ppRstCmd p 1)

/-- LINK_PORT_RESET (R177). -/
def execLinkPortReset (l : Nat) (s : State) : Result := steady s (beginRst (rstLink (l % 4)) true)

/-- LP_RST_CMD (R177). A write of lpRstCmd. -/
def execLpRstCmd (w : Who) (l : Nat) (s : State) : Result := steady s (ctlWrite w .lpRstCmd l 1)

/-- RESET_COMPLETE (R178). -/
def execResetComplete (m : Master) (s : State) : Result := steady s (doRstComplete (rstOf m))

/-- RECLAIM_TIMEOUT (R179). -/
def execReclaimTimeout (p : Nat) (s : State) : Result := steady s (doReclaimTimeout p)

/-- RESET_LINE_RELEASE (R180). -/
def execResetLineRelease (m : Master) (s : State) : Result := steady s (doRstRelease (rstOf m))

end Sys2Proof.Machine
end

