-- ==== Sys2Proof/Machine/SatchelCmds.lean ====
section
/-! DEFINITION. Meanings of the commands of satchels, fills, caravans. A register command is
the access that gives it, in the view its requester names. -/

namespace Sys2Proof.Machine

/-- SATCHEL_READ (R185). -/
def execSatchelRead (x : Nat) (slots : List (Bool × Nat)) (fmt : Nat) (s : State) : Result :=
  steady s (doSatRead x slots fmt)

/-- SATCHEL_STALL_END (R185). -/
def execSatchelStallEnd (x : Nat) (s : State) : Result := steady s (doStallEnd x)

/-- SATCHEL_STALL_LIMIT (R187). -/
def execSatchelStallLimit (x : Nat) (s : State) : Result := steady s (doStallLimit x)

/-- SWAP_COMMAND (R194). -/
def execSwapCommand (x : Nat) (s : State) : Result := steady s (doSwapCommand x)

/-- EXCHANGE (R194). -/
def execExchange (x : Nat) (s : State) : Result := steady s (doExchange x)

/-- SWAP_MODE_WRITE (R198). A write of satCtrl. -/
def execSwapModeWrite (w : Who) (x : Nat) (v : Word) (s : State) : Result := steady s (ctlWrite w .satCtrl x v)

/-- STALL_CLR (R205). A write of satStallClr. -/
def execStallClr (w : Who) (x k : Nat) (s : State) : Result := steady s (ctlWrite w .satStallClr x (wd (2 ^ 31 + k % 8)))

/-- STALL_CLR_ALL (R205). A write of satStallClr. -/
def execStallClrAll (w : Who) (x : Nat) (s : State) : Result := steady s (ctlWrite w .satStallClr x (wd (2 ^ 31 + 8)))

/-- FS_LAUNCH (R189). A write of fsLaunch. -/
def execFsLaunch (w : Who) (x start task : Nat) (s : State) : Result :=
  steady s (ctlWrite w .fsLaunch x (wd (2 ^ 31 + start % 16384 + task % 1024 * 16384)))

/-- FILL_ISSUE (R191). -/
def execFillIssue (x : Nat) (s : State) : Result := steady s (doFillIssue x)

/-- FILL_LAND (R192). -/
def execFillLand (x : Nat) (s : State) : Result := steady s (doFillLand x)

/-- CARAVAN_HOP (R199). -/
def execCaravanHop (x : Nat) (s : State) : Result := steady s (doHop x)

/-- ESCAPE_RETRY (R331). -/
def execEscapeRetry (x : Nat) (s : State) : Result := steady s (doEscRetry x)

end Sys2Proof.Machine
end

