-- ==== Sys2Proof/Machine/SlotCmds.lean ====
section
/-! DEFINITION. Meanings of the commands of slot ports, scalar ports, columns, wheels, the lottery. A register command is
the access that gives it, in the view its requester names. -/

namespace Sys2Proof.Machine

/-- SLOT_READ_REQUEST (R105). -/
def execSlotReadRequest (x : Nat) (ds : List Desc) (fmt : Nat) (last : Bool) (s : State) : Result :=
  steady s (doSlotRead x ds fmt last)

/-- SLOT_WRITE_REQUEST (R107). -/
def execSlotWriteRequest (x : Nat) (ds : List Desc) (fmt : Nat) (tly last : Bool) (s : State) : Result :=
  steady s (doSlotWrite x ds fmt tly last)

/-- READ_DELIVERY (R152). -/
def execReadDelivery (x : Nat) (s : State) : Result := steady s (doReadDelivery x)

/-- WRITE_RESPONSE (R153). -/
def execWriteResponse (x : Nat) (s : State) : Result := steady s (doWriteResponse x)

/-- STRIPE_COMMIT (R108). -/
def execStripeCommit (c : Nat) (s : State) : Result := storing s (doStripeCommit c)

/-- DEFERRAL_DRAIN (R113). -/
def execDeferralDrain (c t : Nat) (s : State) : Result := storing s (doDrain c t)

/-- THERMAL_SKIP (R570). -/
def execThermalSkip (s : State) : Result := steady s doThermalSkip

/-- SLOT_SKIP (R117). -/
def execSlotSkip (s : State) : Result := steady s doSlotSkip

/-- SKIP_CTRL_WRITE (R570). A write of xbarSkipCtrl. -/
def execSkipCtrlWrite (w : Who) (v : Word) (s : State) : Result := steady s (ctlWrite w .xbarSkipCtrl 0 v)

/-- WHEEL_SW_GO (R103). A write of xbarWheelSw. -/
def execWheelSwGo (w : Who) (s : State) : Result := steady s (ctlWrite w .xbarWheelSw 0 1)

/-- WHEEL_EXCHANGE (R103). -/
def execWheelExchange (s : State) : Result := steady s doWheelExchange

/-- CONF_CLR (R116). A write of xbarConfClr. -/
def execConfClr (w : Who) (m : Nat) (s : State) : Result := steady s (ctlWrite w .xbarConfClr 0 (wd (2 ^ 31 + m % 128)))

/-- CONF_CLR_ALL (R116). A write of xbarConfClr. -/
def execConfClrAll (w : Who) (s : State) : Result := steady s (ctlWrite w .xbarConfClr 0 (wd (2 ^ 31 + 256)))

/-- LOTTERY_DRAW (R132). -/
def execLotteryDraw (c : Nat) (d : Dir) (s : State) : Result := steady s (doDraw c d)

/-- LONG_ROAD_GRANT (R141). -/
def execLongRoadGrant (c : Nat) (d : Dir) (s : State) : Result := steady s (doLongRoad c d)

/-- OPEN_LANE_ISSUE (R136). -/
def execOpenLaneIssue (c : Nat) (d : Dir) (s : State) : Result := steady s (doIssue c d)

/-- STARVATION_FLAG (R139). -/
def execStarvationFlag (c : Nat) (d : Dir) (r : Nat) (s : State) : Result := steady s (doStarve c d r)

/-- NARROW_WRITE_MERGE (R127). -/
def execNarrowWriteMerge (c : Nat) (s : State) : Result := steady s (doNarrowMerge c)

/-- SCALAR_REQUEST (R156). -/
def execScalarRequest (g : Nat) (q : ScalarReq) (s : State) : Result := steady s (doScalarRequest g q)

/-- SCALAR_RESPONSE (R157). -/
def execScalarResponse (g : Nat) (s : State) : Result := steady s (doScalarResponse g)

/-- PORT_DISABLE (R149). A write of pgCtrl. -/
def execPortDisable (w : Who) (g : Nat) (v : Word) (s : State) : Result := steady s (ctlWrite w .pgCtrl g v)

/-- PORT_ENABLE (R149). A write of pgCtrl. -/
def execPortEnable (w : Who) (g : Nat) (v : Word) (s : State) : Result := steady s (ctlWrite w .pgCtrl g v)

end Sys2Proof.Machine
end

