-- ==== Sys2Proof/Machine/StorageCmds.lean ====
section
/-! DEFINITION. Meanings of the commands of scrubbing and remaps. A register command is
the access that gives it, in the view its requester names. -/

namespace Sys2Proof.Machine

/-- SCRUB_CTRL_WRITE (R569). A write of colScrubCtrl. -/
def execScrubCtrlWrite (w : Who) (c : Nat) (v : Word) (s : State) : Result := steady s (ctlWrite w .colScrubCtrl c v)

/-- SCRUB_REQUEST (R569). -/
def execScrubRequest (c : Nat) (s : State) : Result := steady s (doScrubRequest c)

/-- SCRUB_READ_RESULT (R66). -/
def execScrubReadResult (c : Nat) (s : State) : Result := steady s (doScrubResult c)

/-- ROW_REMAP_REQUEST (R59). A write of colRemapCmd. -/
def execRowRemapRequest (w : Who) (c t b r : Nat) (s : State) : Result :=
  steady s (ctlWrite w .colRemapCmd c (wd (2 ^ 31 + t % 4 * 65536 + b % 32 * 2048 + r % 2048)))

/-- BANK_RETIREMENT_REQUEST (R59). A write of colRemapCmd. -/
def execBankRetirementRequest (w : Who) (c t b : Nat) (s : State) : Result :=
  steady s (ctlWrite w .colRemapCmd c (wd (2 ^ 31 + 2 ^ 18 + t % 4 * 65536 + b % 32 * 2048)))

/-- REMAP_KIND_RESERVED (R68). A write of colRemapCmd. -/
def execRemapKindReserved (w : Who) (c : Nat) (s : State) : Result :=
  steady s (ctlWrite w .colRemapCmd c (wd (2 ^ 31 + 2 ^ 19)))

/-- REMAP_START (R57). -/
def execRemapStart (c : Nat) (s : State) : Result := steady s (doRemapStart c)

/-- COPY_ROW_MERGED (R568). -/
def execCopyRowMerged (c : Nat) (s : State) : Result := steady s (doCopyMerged c)

/-- REMAP_SWITCH (R54). -/
def execRemapSwitch (c : Nat) (s : State) : Result := steady s (doRemapSwitch c)

end Sys2Proof.Machine
end

