-- ==== Sys2Proof/Machine/StrongboxCmds.lean ====
section
/-! DEFINITION. Meanings of the commands of the Strongbox. A register command is
the access that gives it, in the view its requester names. -/

namespace Sys2Proof.Machine

/-- SBOX_DATA_WRITE (R400). A write of sboxData. -/
def execSboxDataWrite (w : Who) (i : Nat) (v : Word) (s : State) : Result := steady s (ctlWrite w .sboxData i v)

/-- SBOX_SET (R400). A write of sboxSet. -/
def execSboxSet (w : Who) (i : Nat) (v : Word) (s : State) : Result := steady s (ctlWrite w .sboxSet i v)

/-- SBOX_CLR (R400). A write of sboxClr. -/
def execSboxClr (w : Who) (i : Nat) (v : Word) (s : State) : Result := steady s (ctlWrite w .sboxClr i v)

/-- ACQ (R405). A read of sboxLockop. -/
def execAcq (w : Who) (i : Nat) (s : State) : Result := steady s (ctlRead w .sboxLockop (ix 0 1024 i))

/-- REL (R407). A write of sboxLockop. -/
def execRel (w : Who) (i : Nat) (s : State) : Result := steady s (ctlWrite w .sboxLockop (ix 1 1024 i) 0)

/-- BREAK (R407). A write of sboxLockop. -/
def execBreak (w : Who) (i : Nat) (s : State) : Result := steady s (ctlWrite w .sboxLockop (ix 2 1024 i) 0)

/-- PEEK (R404). A read of sboxLockop. -/
def execPeek (w : Who) (i : Nat) (s : State) : Result := steady s (ctlRead w .sboxLockop (ix 3 1024 i))

/-- SBOX_ACCESS_COMPLETE (R398). -/
def execSboxAccessComplete (s : State) : Result := steady s doSboxComplete

/-- REAP (R408). A write of sboxReap. -/
def execReap (w : Who) (t : Nat) (s : State) : Result := steady s (ctlWrite w .sboxReap 0 (wd (2 ^ 31 + t % 32)))

/-- MP_RESET (R409). -/
def execMpReset (i : Nat) (s : State) : Result := steady s (doMpReset i)

/-- REAP_SWEEP_STEP (R411). -/
def execReapSweepStep (s : State) : Result := steady s doReapStep

/-- KEY_WRITE (R413). A write of sboxKey. -/
def execKeyWrite (w : Who) (j : Nat) (v : Word) (s : State) : Result := steady s (ctlWrite w .sboxKey j v)

/-- KEY_LOCK (R414). A write of sboxSec. -/
def execKeyLock (w : Who) (s : State) : Result := steady s (ctlWrite w .sboxSec 0 1)

/-- TAMPER (R415). -/
def execTamper (s : State) : Result := steady s doTamper

/-- LC_STATE_CHANGE (R415). -/
def execLcStateChange (v : Nat) (s : State) : Result := steady s (doLcChange v)

/-- WIPE_DONE (R416). -/
def execWipeDone (s : State) : Result := steady s doWipeDone

end Sys2Proof.Machine
end

