-- ==== Sys2Proof/Machine/Dispatch.lean ====
section
/-! DEFINITION. The command dispatch: one arm per constructor of Instr. -/

namespace Sys2Proof.Machine

/-- The effect of a command on everything but the queue. -/
def exec (i : Instr) (s : State) : Host.Outcome State Fault Refusal :=
  match i with
  | .lowWordRead w addr => Sys2Proof.Machine.execLowWordRead w addr s
  | .registerWrite w addr v => Sys2Proof.Machine.execRegisterWrite w addr v s
  | .defaultTarget w addr write => Sys2Proof.Machine.execDefaultTarget w addr write s
  | .slotReadRequest x ds fmt last => Sys2Proof.Machine.execSlotReadRequest x ds fmt last s
  | .slotWriteRequest x ds fmt tly last => Sys2Proof.Machine.execSlotWriteRequest x ds fmt tly last s
  | .readDelivery x => Sys2Proof.Machine.execReadDelivery x s
  | .writeResponse x => Sys2Proof.Machine.execWriteResponse x s
  | .stripeCommit c => Sys2Proof.Machine.execStripeCommit c s
  | .deferralDrain c t => Sys2Proof.Machine.execDeferralDrain c t s
  | .thermalSkip => Sys2Proof.Machine.execThermalSkip s
  | .slotSkip => Sys2Proof.Machine.execSlotSkip s
  | .skipCtrlWrite w v => Sys2Proof.Machine.execSkipCtrlWrite w v s
  | .wheelSwGo w => Sys2Proof.Machine.execWheelSwGo w s
  | .wheelExchange => Sys2Proof.Machine.execWheelExchange s
  | .confClr w m => Sys2Proof.Machine.execConfClr w m s
  | .confClrAll w => Sys2Proof.Machine.execConfClrAll w s
  | .lotteryDraw c d => Sys2Proof.Machine.execLotteryDraw c d s
  | .longRoadGrant c d => Sys2Proof.Machine.execLongRoadGrant c d s
  | .openLaneIssue c d => Sys2Proof.Machine.execOpenLaneIssue c d s
  | .starvationFlag c d r => Sys2Proof.Machine.execStarvationFlag c d r s
  | .narrowWriteMerge c => Sys2Proof.Machine.execNarrowWriteMerge c s
  | .scalarRequest g q => Sys2Proof.Machine.execScalarRequest g q s
  | .scalarResponse g => Sys2Proof.Machine.execScalarResponse g s
  | .portDisable w g v => Sys2Proof.Machine.execPortDisable w g v s
  | .portEnable w g v => Sys2Proof.Machine.execPortEnable w g v s
  | .axiReadData p id r data last => Sys2Proof.Machine.execAxiReadData p id r data last s
  | .axiWriteResponse p id r => Sys2Proof.Machine.execAxiWriteResponse p id r s
  | .inboundWrite l h => Sys2Proof.Machine.execInboundWrite l h s
  | .inboundFlit l data => Sys2Proof.Machine.execInboundFlit l data s
  | .malformedHeader l h => Sys2Proof.Machine.execMalformedHeader l h s
  | .strayFlit l => Sys2Proof.Machine.execStrayFlit l s
  | .creditReturn l hdr dat => Sys2Proof.Machine.execCreditReturn l hdr dat s
  | .outboundPacketSend l => Sys2Proof.Machine.execOutboundPacketSend l s
  | .ack l h => Sys2Proof.Machine.execAck l h s
  | .nack l h => Sys2Proof.Machine.execNack l h s
  | .openReq l h => Sys2Proof.Machine.execOpenReq l h s
  | .openRsp l h => Sys2Proof.Machine.execOpenRsp l h s
  | .closeReq l h => Sys2Proof.Machine.execCloseReq l h s
  | .closeRsp l h => Sys2Proof.Machine.execCloseRsp l h s
  | .portGroupReset g => Sys2Proof.Machine.execPortGroupReset g s
  | .pgRstCmd w g => Sys2Proof.Machine.execPgRstCmd w g s
  | .porterReset p => Sys2Proof.Machine.execPorterReset p s
  | .ppRstCmd w p => Sys2Proof.Machine.execPpRstCmd w p s
  | .linkPortReset l => Sys2Proof.Machine.execLinkPortReset l s
  | .lpRstCmd w l => Sys2Proof.Machine.execLpRstCmd w l s
  | .resetComplete m => Sys2Proof.Machine.execResetComplete m s
  | .reclaimTimeout p => Sys2Proof.Machine.execReclaimTimeout p s
  | .resetLineRelease m => Sys2Proof.Machine.execResetLineRelease m s
  | .satchelRead x slots fmt => Sys2Proof.Machine.execSatchelRead x slots fmt s
  | .satchelStallEnd x => Sys2Proof.Machine.execSatchelStallEnd x s
  | .satchelStallLimit x => Sys2Proof.Machine.execSatchelStallLimit x s
  | .swapCommand x => Sys2Proof.Machine.execSwapCommand x s
  | .exchange x => Sys2Proof.Machine.execExchange x s
  | .swapModeWrite w x v => Sys2Proof.Machine.execSwapModeWrite w x v s
  | .stallClr w x k => Sys2Proof.Machine.execStallClr w x k s
  | .stallClrAll w x => Sys2Proof.Machine.execStallClrAll w x s
  | .fsLaunch w x start task => Sys2Proof.Machine.execFsLaunch w x start task s
  | .fillIssue x => Sys2Proof.Machine.execFillIssue x s
  | .fillLand x => Sys2Proof.Machine.execFillLand x s
  | .caravanHop x => Sys2Proof.Machine.execCaravanHop x s
  | .escapeRetry x => Sys2Proof.Machine.execEscapeRetry x s
  | .itineraryFetch a => Sys2Proof.Machine.execItineraryFetch a s
  | .end_ a k w => Sys2Proof.Machine.execEnd a k w s
  | .setaLo a k w => Sys2Proof.Machine.execSetaLo a k w s
  | .setaHi a k w => Sys2Proof.Machine.execSetaHi a k w s
  | .setaTop a k w => Sys2Proof.Machine.execSetaTop a k w s
  | .adda a k w => Sys2Proof.Machine.execAdda a k w s
  | .moda a k w => Sys2Proof.Machine.execModa a k w s
  | .loop a k w => Sys2Proof.Machine.execLoop a k w s
  | .endl a k w => Sys2Proof.Machine.execEndl a k w s
  | .test a k w => Sys2Proof.Machine.execTest a k w s
  | .move a k w => Sys2Proof.Machine.execMove a k w s
  | .pieceGenerate a k => Sys2Proof.Machine.execPieceGenerate a k s
  | .wait a k w => Sys2Proof.Machine.execWait a k w s
  | .ring a k w => Sys2Proof.Machine.execRing a k w s
  | .fence a k w => Sys2Proof.Machine.execFence a k w s
  | .fenceComplete a k => Sys2Proof.Machine.execFenceComplete a k s
  | .swap a k w => Sys2Proof.Machine.execSwap a k w s
  | .fmt a k w => Sys2Proof.Machine.execFmt a k w s
  | .taly a k w => Sys2Proof.Machine.execTaly a k w s
  | .hand a k w => Sys2Proof.Machine.execHand a k w s
  | .cpya a k w => Sys2Proof.Machine.execCpya a k w s
  | .runEnd a k => Sys2Proof.Machine.execRunEnd a k s
  | .pieceReadHalf p => Sys2Proof.Machine.execPieceReadHalf p s
  | .pieceReadComplete a sq => Sys2Proof.Machine.execPieceReadComplete a sq s
  | .pieceWriteHalf p => Sys2Proof.Machine.execPieceWriteHalf p s
  | .tallyExportRead a sq => Sys2Proof.Machine.execTallyExportRead a sq s
  | .splitWrite w p v => Sys2Proof.Machine.execSplitWrite w p v s
  | .arm w p k => Sys2Proof.Machine.execArm w p k s
  | .crdret w p k n => Sys2Proof.Machine.execCrdret w p k n s
  | .fchSelWrite w v => Sys2Proof.Machine.execFchSelWrite w v s
  | .farChannelHold mask => Sys2Proof.Machine.execFarChannelHold mask s
  | .farHoldLimit c => Sys2Proof.Machine.execFarHoldLimit c s
  | .taskAbort task => Sys2Proof.Machine.execTaskAbort task s
  | .abortDone task => Sys2Proof.Machine.execAbortDone task s
  | .softwareAbort w task => Sys2Proof.Machine.execSoftwareAbort w task s
  | .abortRecordClear w j => Sys2Proof.Machine.execAbortRecordClear w j s
  | .pmapSwap w sl => Sys2Proof.Machine.execPmapSwap w sl s
  | .pmapCopy w sl => Sys2Proof.Machine.execPmapCopy w sl s
  | .pmapClear w sl => Sys2Proof.Machine.execPmapClear w sl s
  | .pmapOpReserved w sl => Sys2Proof.Machine.execPmapOpReserved w sl s
  | .pmapOpDone => Sys2Proof.Machine.execPmapOpDone s
  | .inactWrite w sl j v => Sys2Proof.Machine.execInactWrite w sl j v s
  | .epochWaitLimit a k => Sys2Proof.Machine.execEpochWaitLimit a k s
  | .srSeedWrite w x v => Sys2Proof.Machine.execSrSeedWrite w x v s
  | .changerCntClr w x => Sys2Proof.Machine.execChangerCntClr w x s
  | .tallyRecordWrite x => Sys2Proof.Machine.execTallyRecordWrite x s
  | .tallyRead g sel idx => Sys2Proof.Machine.execTallyRead g sel idx s
  | .tallyCntClr w x => Sys2Proof.Machine.execTallyCntClr w x s
  | .bellRing w n b scope cnt => Sys2Proof.Machine.execBellRing w n b scope cnt s
  | .bellTake w n b scope cnt => Sys2Proof.Machine.execBellTake w n b scope cnt s
  | .bellInit w n b cnt => Sys2Proof.Machine.execBellInit w n b cnt s
  | .tkresRead w t => Sys2Proof.Machine.execTkresRead w t s
  | .bellComplete => Sys2Proof.Machine.execBellComplete s
  | .sboxDataWrite w j v => Sys2Proof.Machine.execSboxDataWrite w j v s
  | .sboxSet w j v => Sys2Proof.Machine.execSboxSet w j v s
  | .sboxClr w j v => Sys2Proof.Machine.execSboxClr w j v s
  | .acq w j => Sys2Proof.Machine.execAcq w j s
  | .rel w j => Sys2Proof.Machine.execRel w j s
  | .break_ w j => Sys2Proof.Machine.execBreak w j s
  | .peek w j => Sys2Proof.Machine.execPeek w j s
  | .sboxAccessComplete => Sys2Proof.Machine.execSboxAccessComplete s
  | .reap w t => Sys2Proof.Machine.execReap w t s
  | .mpReset j => Sys2Proof.Machine.execMpReset j s
  | .reapSweepStep => Sys2Proof.Machine.execReapSweepStep s
  | .keyWrite w j v => Sys2Proof.Machine.execKeyWrite w j v s
  | .keyLock w => Sys2Proof.Machine.execKeyLock w s
  | .tamper => Sys2Proof.Machine.execTamper s
  | .lcStateChange v => Sys2Proof.Machine.execLcStateChange v s
  | .wipeDone => Sys2Proof.Machine.execWipeDone s
  | .windowEntryWrite w n f v => Sys2Proof.Machine.execWindowEntryWrite w n f v s
  | .open_ w n => Sys2Proof.Machine.execOpen w n s
  | .close w n => Sys2Proof.Machine.execClose w n s
  | .forceClose w n => Sys2Proof.Machine.execForceClose w n s
  | .winOpReserved w n => Sys2Proof.Machine.execWinOpReserved w n s
  | .openReqRepeat n => Sys2Proof.Machine.execOpenReqRepeat n s
  | .openLimit n => Sys2Proof.Machine.execOpenLimit n s
  | .ackTimeout l sq link => Sys2Proof.Machine.execAckTimeout l sq link s
  | .levelRise c => Sys2Proof.Machine.execLevelRise c s
  | .levelDecay c => Sys2Proof.Machine.execLevelDecay c s
  | .rsvWrite w c v => Sys2Proof.Machine.execRsvWrite w c v s
  | .trackerExpire c => Sys2Proof.Machine.execTrackerExpire c s
  | .force w n v => Sys2Proof.Machine.execForce w n v s
  | .fuStatClear w n v => Sys2Proof.Machine.execFuStatClear w n v s
  | .firstClear w n => Sys2Proof.Machine.execFirstClear w n s
  | .firstOvfClear w n => Sys2Proof.Machine.execFirstOvfClear w n s
  | .ledgerClr w n => Sys2Proof.Machine.execLedgerClr w n s
  | .ledgerCaptureRead w n j => Sys2Proof.Machine.execLedgerCaptureRead w n j s
  | .curfewExpiry n => Sys2Proof.Machine.execCurfewExpiry n s
  | .escalation n => Sys2Proof.Machine.execEscalation n s
  | .quarantineComplete c => Sys2Proof.Machine.execQuarantineComplete c s
  | .errPulseEnd => Sys2Proof.Machine.execErrPulseEnd s
  | .errHoldWrite w hold => Sys2Proof.Machine.execErrHoldWrite w hold s
  | .quietPeriod n => Sys2Proof.Machine.execQuietPeriod n s
  | .selfPar n => Sys2Proof.Machine.execSelfPar n s
  | .stwWdog => Sys2Proof.Machine.execStwWdog s
  | .safeCmd w => Sys2Proof.Machine.execSafeCmd w s
  | .safeStateEntry => Sys2Proof.Machine.execSafeStateEntry s
  | .interruptSelect => Sys2Proof.Machine.execInterruptSelect s
  | .claim w t => Sys2Proof.Machine.execClaim w t s
  | .eoi w t src => Sys2Proof.Machine.execEoi w t src s
  | .sgi w dest id => Sys2Proof.Machine.execSgi w dest id s
  | .setpend w j v => Sys2Proof.Machine.execSetpend w j v s
  | .clrpend w j v => Sys2Proof.Machine.execClrpend w j v s
  | .srcCfgWrite w sl v => Sys2Proof.Machine.execSrcCfgWrite w sl v s
  | .targetSleep t level => Sys2Proof.Machine.execTargetSleep t level s
  | .load w => Sys2Proof.Machine.execLoad w s
  | .partial_ w => Sys2Proof.Machine.execPartial w s
  | .cancel w => Sys2Proof.Machine.execCancel w s
  | .cfgOpReserved w => Sys2Proof.Machine.execCfgOpReserved w s
  | .loadWord w v => Sys2Proof.Machine.execLoadWord w v s
  | .imageCheckDone => Sys2Proof.Machine.execImageCheckDone s
  | .applyDone => Sys2Proof.Machine.execApplyDone s
  | .seal w => Sys2Proof.Machine.execSeal w s
  | .regionWrite w n j v => Sys2Proof.Machine.execRegionWrite w n j v s
  | .scrubCtrlWrite w c v => Sys2Proof.Machine.execScrubCtrlWrite w c v s
  | .scrubRequest c => Sys2Proof.Machine.execScrubRequest c s
  | .scrubReadResult c => Sys2Proof.Machine.execScrubReadResult c s
  | .rowRemapRequest w c t b r => Sys2Proof.Machine.execRowRemapRequest w c t b r s
  | .bankRetirementRequest w c t b => Sys2Proof.Machine.execBankRetirementRequest w c t b s
  | .remapKindReserved w c => Sys2Proof.Machine.execRemapKindReserved w c s
  | .remapStart c => Sys2Proof.Machine.execRemapStart c s
  | .copyRowMerged c => Sys2Proof.Machine.execCopyRowMerged c s
  | .remapSwitch c => Sys2Proof.Machine.execRemapSwitch c s
  | .domainTargetWrite w d v => Sys2Proof.Machine.execDomainTargetWrite w d v s
  | .domainTransitionDone d => Sys2Proof.Machine.execDomainTransitionDone d s
  | .retain w => Sys2Proof.Machine.execRetain w s
  | .wake w => Sys2Proof.Machine.execWake w s
  | .pwrOpReserved w => Sys2Proof.Machine.execPwrOpReserved w s
  | .retentionEntered => Sys2Proof.Machine.execRetentionEntered s
  | .wakePin => Sys2Proof.Machine.execWakePin s
  | .retentionExitDone => Sys2Proof.Machine.execRetentionExitDone s
  | .coldReset => Sys2Proof.Machine.execColdReset s
  | .resetKindChange => Sys2Proof.Machine.execResetKindChange s
  | .coldResetRelease => Sys2Proof.Machine.execColdResetRelease s
  | .selfTestComplete => Sys2Proof.Machine.execSelfTestComplete s
  | .warmReset => Sys2Proof.Machine.execWarmReset s
  | .warmResetComplete => Sys2Proof.Machine.execWarmResetComplete s
  | .thermalSample temps => Sys2Proof.Machine.execThermalSample temps s
  | .tamperRelease => Sys2Proof.Machine.execTamperRelease s
  | .parityError site => Sys2Proof.Machine.execParityError site s
  | .stwMemUe => Sys2Proof.Machine.execStwMemUe s
  | .railLeavesTolerance => Sys2Proof.Machine.execRailLeavesTolerance s

end Sys2Proof.Machine
end

