-- ==== Sys2Proof/Safety.lean ====
section
/-! DEFINITION. What the statements speak of: a block within its rails, a running block, an access in full view, what stays,
the invariant of every step. -/

namespace Sys2Proof.Machine

/-- The supply rails are within tolerance: the condition under which the spec guarantees anything (R542). -/
abbrev Within (s : State) : Prop := s.railsLost = false

/-- The block is READY and its rails are within tolerance. -/
abbrev Running (s : State) : Prop := s.railsLost = false ∧ s.life = .ready

/-- The requester reaches every register: the Steward, or a privileged access of processors 0 to 17 in the privileged
view (R525, R526). -/
abbrev FullView (w : Who) : Prop := w.steward = true ∨ (w.proc < 18 ∧ w.priv = true ∧ w.prot = true)

/-- The matrix would accept an access of `w` at this edge whatever its subordinate (R527, R528). -/
abbrev Granted (s : State) (w : Who) : Prop := ∀ sub, granted s w sub = true

/-- Every register but those listed holds what it held. -/
def RegsKept (l : List (RegId × Nat)) (s t : State) : Prop :=
  ∀ id i, i < 1048576 → (∀ e ∈ l, e.1.key e.2 ≠ id.key i) → rg t id i = rg s id i

/-- Every byte of the array reads as before. -/
def ArrayKept (s t : State) : Prop := ∀ a, memByte t a = memByte s a

/-- The access is answered: data, error, completion `dt` BCLK edges after acceptance (R529). -/
def Answered (w : Who) (v : Word) (err : Bool) (dt : Nat) (s t : State) : Prop :=
  ∃ sub wr, t.answers = s.answers ++ [⟨w, v, err, s.clk + dt, sub, wr, false⟩]

/-- Context `k` of agent `a` becomes `d`; every other context, every agent, every piece and every register stays. -/
def CtxStep (a k : Nat) (d : Ctx) (s t : State) : Prop :=
  t.ctx a k = d ∧ (∀ b j, b * 2 + j ≠ a * 2 + k → t.ctx b j = s.ctx b j) ∧ t.agents = s.agents ∧ t.pieces = s.pieces ∧
  RegsKept [] s t

/-- What every step keeps: the array's canonical form, and a wheel position of 0 to 63 (R99, R100). -/
def Inv (s : State) : Prop := Memory.wf s.mem ∧ s.wheelPos < 64

/-- A safe step: it answers a next state. -/
def SafeStep (s : State) : Prop := ∃ t, step s = .next t

end Sys2Proof.Machine
end

