-- ==== Sys2Proof/WellFormed.lean ====
section
/-! DEFINITION. Well-formed commands: every operand in the range its field or its object's number allows (R4, R6, R151, R156,
R163, R164, R169, R212, R356). A meaning takes ill-formed operands too; an object number past the last names nothing. -/

namespace Sys2Proof

/-- The requester of a register access: AxID[5:1] has five bits (R525). -/
def Who.wellFormed (w : Who) : Bool := decide (w.proc < 32)

/-- A control-space address: a word of the 24-bit space (R163, R168). -/
def ctlAddrOk (a : Nat) : Bool := decide (a < 0x1000000 ∧ a % 4 = 0)

/-- The form of an access of `n` beats (R163): 1 to 16 beats, 2, 4, 8 or 16 of a WRAP burst from a beat's boundary on. The Steward's own
accesses are single words. -/
def axiOk (w : Who) (a : Nat) (f : AxiForm) (n : Nat) : Bool :=
  decide (1 ≤ n ∧ n ≤ 16) &&
  (f.kind != .wrap || decide ((n = 2 ∨ n = 4 ∨ n = 8 ∨ n = 16) ∧ a % (if f.wide then 8 else 4) = 0)) &&
  (!w.steward || (n == 1 && f.kind == .incr && !f.wide && !f.atomic && !f.excl))

/-- A descriptor's fields (R150, R151): address bits [29:6], 1 to 8 granules, eight granules of data or none. -/
def Desc.wellFormed (d : Desc) : Bool :=
  decide (d.gaddr < 2 ^ 24 ∧ 1 ≤ d.gcnt ∧ d.gcnt ≤ 8 ∧ (d.data.length = 0 ∨ d.data.length = 8))

/-- Descriptors of a request: up to four at a matrix read, two at a matrix write, one at a vector port (R147). -/
def descsOk (x m : Nat) (ds : List Desc) : Bool :=
  decide (x < 32 ∧ ds.length ≤ (if x < 16 then m else 1)) && ds.all Desc.wellFormed

/-- A scalar request (R156, R84): a 30-bit byte address, 1, 2, 4 or 8 bytes, a 4-bit tag. -/
def ScalarReq.wellFormed (q : ScalarReq) : Bool :=
  decide (q.addr < 2 ^ 30 ∧ (q.size = 1 ∨ q.size = 2 ∨ q.size = 4 ∨ q.size = 8) ∧ q.tag < 16)

/-- A header's fields (R169). -/
def Header.wellFormed (h : Header) : Bool :=
  decide (h.type < 16 ∧ h.link < 32 ∧ h.window < 4096 ∧ h.epoch < 65536 ∧ h.passport < 65536 ∧ h.offset < 2 ^ 24 ∧
    h.len < 128 ∧ h.seq < 65536 ∧ h.reason < 256)

/-- A header arriving at a link port. -/
def linkHeaderOk (l : Nat) (h : Header) : Bool := decide (l < 4) && h.wellFormed

/-- A master that exists (R175). -/
def Master.wellFormed : Master → Bool
  | .pg g => decide (g < 16)
  | .pt p => decide (p < 16)
  | .lk l => decide (l < 4)

/-- A parity site that exists. -/
def ParitySite.wellFormed : ParitySite → Bool
  | .column c => decide (c < 64)
  | .crossbar c => decide (c < 64)
  | .sector => true
  | .intc => true
  | .steward => true

/-- A context: a fill sequencer or a porter channel, and which of its two contexts (R211). -/
def ctxOk (a k : Nat) : Bool := decide (a < 288 ∧ k < 2)

/-- A task tag (R356). -/
def taskOk (t : Nat) : Bool := decide (t < 1024)

/-- The operands of a command lie in their ranges. -/
def Instr.wellFormed : Instr → Bool
  | .lowWordRead w a => w.wellFormed && ctlAddrOk a.addr && axiOk w a.addr a.form a.beats
  | .registerWrite w a v => w.wellFormed && ctlAddrOk a.addr && axiOk w a.addr a.form v.length
  | .defaultTarget w a _ => w.wellFormed && decide (a < 0x1000000)
  | .slotReadRequest x ds f _ => descsOk x 4 ds && decide (f < 8)
  | .slotWriteRequest x ds f _ _ => descsOk x 2 ds && decide (f < 8)
  | .readDelivery x => decide (x < 32)
  | .writeResponse x => decide (x < 32)
  | .stripeCommit c => decide (c < 64)
  | .deferralDrain c t => decide (c < 64 ∧ t < 4)
  | .thermalSkip => true
  | .slotSkip => true
  | .skipCtrlWrite w _ => w.wellFormed
  | .wheelSwGo w => w.wellFormed
  | .wheelExchange => true
  | .confClr w m => w.wellFormed && decide (m < 69)
  | .confClrAll w => w.wellFormed
  | .lotteryDraw c _ => decide (c < 64)
  | .longRoadGrant c _ => decide (c < 64)
  | .openLaneIssue c _ => decide (c < 64)
  | .starvationFlag c _ r => decide (c < 64 ∧ r < 37)
  | .narrowWriteMerge c => decide (c < 64)
  | .scalarRequest g q => decide (g < 16) && q.wellFormed
  | .scalarResponse g => decide (g < 16)
  | .portDisable w g v => w.wellFormed && decide (g < 16) && !v.getLsbD 0
  | .portEnable w g v => w.wellFormed && decide (g < 16) && v.getLsbD 0
  | .axiReadData p i _ ds _ => decide (p < 16 ∧ i < 1024 ∧ ds.length = 2)
  | .axiWriteResponse p i _ => decide (p < 16 ∧ i < 1024)
  | .inboundWrite l h => linkHeaderOk l h && decide (h.type = 1)
  | .inboundFlit l ds => decide (l < 4 ∧ ds.length ≤ 4)
  | .malformedHeader l h => linkHeaderOk l h
  | .strayFlit l => decide (l < 4)
  | .creditReturn l h d => decide (l < 4 ∧ h < 2 ^ 16 ∧ d < 2 ^ 16)
  | .outboundPacketSend l => decide (l < 4)
  | .ack l h => linkHeaderOk l h && decide (h.type = 2)
  | .nack l h => linkHeaderOk l h && decide (h.type = 3)
  | .openReq l h => linkHeaderOk l h && decide (h.type = 4)
  | .openRsp l h => linkHeaderOk l h && decide (h.type = 5)
  | .closeReq l h => linkHeaderOk l h && decide (h.type = 6)
  | .closeRsp l h => linkHeaderOk l h && decide (h.type = 7)
  | .portGroupReset g => decide (g < 16)
  | .pgRstCmd w g => w.wellFormed && decide (g < 16)
  | .porterReset p => decide (p < 16)
  | .ppRstCmd w p => w.wellFormed && decide (p < 16)
  | .linkPortReset l => decide (l < 4)
  | .lpRstCmd w l => w.wellFormed && decide (l < 4)
  | .resetComplete m => m.wellFormed
  | .reclaimTimeout p => decide (p < 16)
  | .resetLineRelease m => m.wellFormed
  | .satchelRead x l f =>
    decide (x < 32 ∧ l.length ≤ (if x < 16 then 4 else 1) ∧ f < 8) && l.all fun e => decide (e.2 < (if x < 16 then 1024 else 256))
  | .satchelStallEnd x => decide (x < 32)
  | .satchelStallLimit x => decide (x < 32)
  | .swapCommand x => decide (x < 32)
  | .exchange x => decide (x < 32)
  | .swapModeWrite w x _ => w.wellFormed && decide (x < 32)
  | .stallClr w x k => w.wellFormed && decide (x < 32 ∧ k < 7)
  | .stallClrAll w x => w.wellFormed && decide (x < 32)
  | .fsLaunch w x a t => w.wellFormed && decide (x < 32 ∧ a < 16384) && taskOk t
  | .fillIssue x => decide (x < 32)
  | .fillLand x => decide (x < 32)
  | .caravanHop x => decide (x < 32)
  | .escapeRetry x => decide (x < 32)
  | .itineraryFetch a => decide (a < 288)
  | .end_ a k w => ctxOk a k && decide (w.toNat / 2 ^ 28 = 0)
  | .setaLo a k w => ctxOk a k && decide (w.toNat / 2 ^ 28 = 1)
  | .setaHi a k w => ctxOk a k && decide (w.toNat / 2 ^ 28 = 1)
  | .setaTop a k w => ctxOk a k && decide (w.toNat / 2 ^ 28 = 1)
  | .adda a k w => ctxOk a k && decide (w.toNat / 2 ^ 28 = 2)
  | .moda a k w => ctxOk a k && decide (w.toNat / 2 ^ 28 = 3)
  | .loop a k w => ctxOk a k && decide (w.toNat / 2 ^ 28 = 4)
  | .endl a k w => ctxOk a k && decide (w.toNat / 2 ^ 28 = 5)
  | .test a k w => ctxOk a k && decide (w.toNat / 2 ^ 28 = 6)
  | .move a k w => ctxOk a k && decide (w.toNat / 2 ^ 28 = 7)
  | .pieceGenerate a k => ctxOk a k
  | .wait a k w => ctxOk a k && decide (w.toNat / 2 ^ 28 = 8)
  | .ring a k w => ctxOk a k && decide (w.toNat / 2 ^ 28 = 9)
  | .fence a k w => ctxOk a k && decide (w.toNat / 2 ^ 28 = 10)
  | .fenceComplete a k => ctxOk a k
  | .swap a k w => ctxOk a k && decide (w.toNat / 2 ^ 28 = 11)
  | .fmt a k w => ctxOk a k && decide (w.toNat / 2 ^ 28 = 12)
  | .taly a k w => ctxOk a k && decide (w.toNat / 2 ^ 28 = 13)
  | .hand a k w => ctxOk a k && decide (w.toNat / 2 ^ 28 = 14)
  | .cpya a k w => ctxOk a k && decide (w.toNat / 2 ^ 28 = 15)
  | .runEnd a k => ctxOk a k
  | .pieceReadHalf p => decide (p < 16)
  | .pieceReadComplete a _ => decide (a < 288)
  | .pieceWriteHalf p => decide (p < 16)
  | .tallyExportRead a _ => decide (32 ≤ a ∧ a < 288)
  | .splitWrite w p _ => w.wellFormed && decide (p < 16)
  | .arm w p k => w.wellFormed && decide (p < 16 ∧ k < 16)
  | .crdret w p k n => w.wellFormed && decide (p < 16 ∧ k < 16 ∧ n < 4096)
  | .fchSelWrite w _ => w.wellFormed
  | .farChannelHold _ => true
  | .farHoldLimit c => decide (c < 64)
  | .taskAbort t => taskOk t
  | .abortDone t => taskOk t
  | .softwareAbort w t => w.wellFormed && taskOk t
  | .abortRecordClear w i => w.wellFormed && decide (i < 8)
  | .pmapSwap w s => w.wellFormed && decide (s < 64)
  | .pmapCopy w s => w.wellFormed && decide (s < 64)
  | .pmapClear w s => w.wellFormed && decide (s < 64)
  | .pmapOpReserved w s => w.wellFormed && decide (s < 64)
  | .pmapOpDone => true
  | .inactWrite w s i _ => w.wellFormed && decide (s < 64 ∧ i < 4096)
  | .epochWaitLimit a k => ctxOk a k
  | .srSeedWrite w x _ => w.wellFormed && decide (x < 32)
  | .changerCntClr w x => w.wellFormed && decide (x < 32)
  | .tallyRecordWrite x => decide (x < 32)
  | .tallyRead g _ i => decide (g < 16 ∧ i < 1024)
  | .tallyCntClr w x => w.wellFormed && decide (x < 32)
  | .bellRing w n _ c k => w.wellFormed && decide (n < 1024 ∧ c < 4 ∧ k < 256)
  | .bellTake w n _ c k => w.wellFormed && decide (n < 1024 ∧ c < 4 ∧ k < 256)
  | .bellInit w n _ k => w.wellFormed && decide (n < 1024 ∧ k < 65536)
  | .tkresRead w t => w.wellFormed && decide (t < 18)
  | .bellComplete => true
  | .sboxDataWrite w i _ => w.wellFormed && decide (i < 16384)
  | .sboxSet w i _ => w.wellFormed && decide (i < 16384)
  | .sboxClr w i _ => w.wellFormed && decide (i < 16384)
  | .acq w i => w.wellFormed && decide (i < 1024)
  | .rel w i => w.wellFormed && decide (i < 1024)
  | .break_ w i => w.wellFormed && decide (i < 1024)
  | .peek w i => w.wellFormed && decide (i < 1024)
  | .sboxAccessComplete => true
  | .reap w t => w.wellFormed && decide (t < 32)
  | .mpReset i => decide (i < 2)
  | .reapSweepStep => true
  | .keyWrite w j _ => w.wellFormed && decide (j < 8)
  | .keyLock w => w.wellFormed
  | .tamper => true
  | .lcStateChange v => decide (v < 16)
  | .wipeDone => true
  | .windowEntryWrite w n _ _ => w.wellFormed && decide (n < 4096)
  | .open_ w n => w.wellFormed && decide (n < 4096)
  | .close w n => w.wellFormed && decide (n < 4096)
  | .forceClose w n => w.wellFormed && decide (n < 4096)
  | .winOpReserved w n => w.wellFormed && decide (n < 4096)
  | .openReqRepeat n => decide (n < 4096)
  | .openLimit n => decide (n < 4096)
  | .ackTimeout l sq link => decide (l < 4 ∧ sq < 65536 ∧ link < 24)
  | .levelRise c => decide (c < 8)
  | .levelDecay c => decide (c < 8)
  | .rsvWrite w c _ => w.wellFormed && decide (c < 8)
  | .trackerExpire c => decide (c < 64)
  | .force w n _ => w.wellFormed && decide (n < 85)
  | .fuStatClear w n _ => w.wellFormed && decide (n < 85)
  | .firstClear w n => w.wellFormed && decide (n < 85)
  | .firstOvfClear w n => w.wellFormed && decide (n < 85)
  | .ledgerClr w n => w.wellFormed && decide (n < 85)
  | .ledgerCaptureRead w n i => w.wellFormed && decide (n < 85 ∧ i < 8)
  | .curfewExpiry n => decide (n < 85)
  | .escalation n => decide (n < 85)
  | .quarantineComplete c => decide (c < 64)
  | .errPulseEnd => true
  | .errHoldWrite w _ => w.wellFormed
  | .quietPeriod n => decide (n < 85)
  | .selfPar n => decide (n < 85)
  | .stwWdog => true
  | .safeCmd w => w.wellFormed
  | .safeStateEntry => true
  | .interruptSelect => true
  | .claim w t => w.wellFormed && decide (t < 18)
  | .eoi w t i => w.wellFormed && decide (t < 18 ∧ i < 512)
  | .sgi w d i => w.wellFormed && decide (d < 32 ∧ i < 8)
  | .setpend w i _ => w.wellFormed && decide (i < 16)
  | .clrpend w i _ => w.wellFormed && decide (i < 16)
  | .srcCfgWrite w i _ => w.wellFormed && decide (i < 512)
  | .targetSleep t _ => decide (t < 18)
  | .load w => w.wellFormed
  | .partial_ w => w.wellFormed
  | .cancel w => w.wellFormed
  | .cfgOpReserved w => w.wellFormed
  | .loadWord w _ => w.wellFormed
  | .imageCheckDone => true
  | .applyDone => true
  | .seal w => w.wellFormed
  | .regionWrite w n i _ => w.wellFormed && decide (n < 64 ∧ i < 7)
  | .scrubCtrlWrite w c _ => w.wellFormed && decide (c < 64)
  | .scrubRequest c => decide (c < 64)
  | .scrubReadResult c => decide (c < 64)
  | .rowRemapRequest w c t b r => w.wellFormed && decide (c < 64 ∧ t < 4 ∧ b < 32 ∧ r < 2048)
  | .bankRetirementRequest w c t b => w.wellFormed && decide (c < 64 ∧ t < 4 ∧ b < 32)
  | .remapKindReserved w c => w.wellFormed && decide (c < 64)
  | .remapStart c => decide (c < 64)
  | .copyRowMerged c => decide (c < 64)
  | .remapSwitch c => decide (c < 64)
  | .domainTargetWrite w d _ => w.wellFormed && decide (d < 301)
  | .domainTransitionDone d => decide (d < 301)
  | .retain w => w.wellFormed
  | .wake w => w.wellFormed
  | .pwrOpReserved w => w.wellFormed
  | .retentionEntered => true
  | .wakePin => true
  | .retentionExitDone => true
  | .coldReset => true
  | .resetKindChange => true
  | .coldResetRelease => true
  | .selfTestComplete => true
  | .warmReset => true
  | .warmResetComplete => true
  | .thermalSample ts => decide (ts.length = 0 ∨ ts.length = 64)
  | .tamperRelease => true
  | .parityError p => p.wellFormed
  | .stwMemUe => true
  | .railLeavesTolerance => true

end Sys2Proof
end

