-- ==== Sys2Proof/Certificates/Slice0/Obligations.lean ====
section
/-! DEFINITION. The statements about the model for the provers. -/

open Sys2Proof Sys2Proof.Machine

/-! ### The whole machine -/

/-- A step with a command at the front of the queue is that command's effect on the state with the queue's rest; the command
itself leaves the queue alone. -/
def Obligations.StepRunsFrontCommand : Prop :=
  (∀ (c : Instr) (rest : List Instr) (s : State), s.pending = c :: rest → step s = exec c { s with pending := rest }) ∧
  (∀ (c : Instr) (s t : State), exec c s = .next t → t.pending = s.pending)

/-- With no command waiting the block's own time goes on by half an edge (the model's choice, log entry 1): a first half that
advances BCLK by one edge, a second half at which it stands; under cold reset it stands throughout. -/
def Obligations.IdleStepIsHalfAnEdge : Prop :=
  ∀ s : State, s.pending = [] → s.railsLost = false →
    (s.life = .coldHeld → step s = .next s) ∧
    (s.life ≠ .coldHeld → s.late = true → ∃ t, step s = .next t ∧ t.clk = s.clk + 1 ∧ t.late = false ∧ t.pending = []) ∧
    (s.life ≠ .coldHeld → s.late = false → ∃ t, step s = .next t ∧ t.clk = s.clk ∧ t.late = true ∧ t.pending = [])

/-- Every step keeps the array's canonical form and the wheel position below 64. -/
def Obligations.StepKeepsInvariant : Prop :=
  ∀ s t : State, Inv s → step s = .next t → Inv t

/-- The state after reset meets the invariant. -/
def Obligations.ResetMeetsInvariant : Prop := Inv State.reset

/-- Every command answers a next state while the rails are within tolerance; outside it only the events of the rails and of
cold reset do, and the others meet the one fault. -/
def Obligations.CommandsAnswerWithinTolerance : Prop :=
  (∀ (c : Instr) (s : State), s.railsLost = false → ∃ t, exec c s = .next t) ∧
  (∀ (c : Instr) (s : State), s.railsLost = true → s.life ≠ .warmHeld →
    (c = .coldReset ∨ c = .coldResetRelease ∨ c = .railLeavesTolerance) ∨ exec c s = .fault .unguaranteed)

/-- The commands that may write the array: a commit, a drain, a domain's return from OFF, and the resets. -/
def Obligations.OnlyWritersChangeTheArray : Prop :=
  ∀ (c : Instr) (s t : State), exec c s = .next t →
    (∀ n, c ≠ .stripeCommit n) → (∀ n m, c ≠ .deferralDrain n m) → (∀ d, c ≠ .domainTransitionDone d) →
    c ≠ .coldReset → c ≠ .coldResetRelease → c ≠ .resetKindChange → c ≠ .warmReset → c ≠ .warmResetComplete →
    c ≠ .retentionExitDone → c ≠ .railLeavesTolerance →
    ArrayKept s t ∧ t.ups = s.ups

/-- No command moves time but a reset: BCLK, the running count, the wheel position and its turns stand. -/
def Obligations.CommandsMoveNoTime : Prop :=
  ∀ (c : Instr) (s t : State), exec c s = .next t →
    c ≠ .coldReset → c ≠ .coldResetRelease → c ≠ .resetKindChange → c ≠ .warmReset → c ≠ .warmResetComplete →
    c ≠ .retentionExitDone → c ≠ .railLeavesTolerance →
    t.clk = s.clk ∧ t.run = s.run ∧ t.wheelPos = s.wheelPos ∧ t.turns = s.turns ∧ t.late = s.late

/-- Every register of every family stands alone at its address: the address map of R564 to R566 reads back. -/
def Obligations.AddressMapIsExact : Prop :=
  ∀ (id : RegId) (i : Nat), i < id.size → regAt (id.offset i) = some (id, i) ∧ id.offset i % 4 = 0

/-! ### Register accesses -/

/-- A read of a low word, as an access of one word, answers the register and captures its high word of the same instant for the
requester. A read of a form without effect, FIXED or an atomic transaction, is answered SLVERR in each beat. -/
def Obligations.LowWordReadCaptures : Prop :=
  (∀ (w : Who) (addr i : Nat) (f : AxiForm) (id hi : RegId) (s : State), Running s → FullView (Who.at_ w addr) → Granted s w →
    refusedForm f = false → f.wide = false → regAddr (addr - addr % 4) = some (id, i) → id.high = some hi →
    ∃ t, exec (.lowWordRead w ⟨addr, f, 1⟩) s = .next t ∧
      Answered (Who.at_ w (addr - addr % 4)) (shown s (Who.at_ w (addr - addr % 4)) id i) false
        (answerTime ((addr - addr % 4) % 0x800000)) s t ∧
      captured t (Who.at_ w addr) hi i = some (shown s (Who.at_ w addr) hi i) ∧
      RegsKept [] s t) ∧
  (∀ (w : Who) (addr n : Nat) (f : AxiForm) (s : State), Running s → Granted s w → refusedForm f = true →
    ∃ t l, exec (.lowWordRead w ⟨addr, f, n⟩) s = .next t ∧ RegsKept [(.mgmtErr, 0)] s t ∧ t.answers = s.answers ++ l ∧
      l.length = n ∧ (∀ a ∈ l, a.who = w ∧ a.err = true ∧ a.due = s.clk + answerTime (addr % 0x800000)) ∧
      t.captures = s.captures)

/-- A write of one word acts on its register as that register's rules say, after the grant of its edge, and is answered in the
time of its page; it reaches the writable bits of a plain register and no other register; a refused one is answered SLVERR. A beat of
64 bits writes two words; one whose strobes name no whole words, and a form without effect, writes none and is answered SLVERR. The
Steward's accesses of the Strongbox's words wait at its port. An access that reaches no register for its requester is answered SLVERR with data 0
by the default target, which raises DEFAULT_TGT and latches the access if CM.ERR_LAST is free; one that reaches a register is not
the default target's. -/
def Obligations.WritesAndDefaultTarget : Prop :=
  (∀ (w : Who) (addr i : Nat) (f : AxiForm) (id : RegId) (v : Word) (s : State), Running s → FullView (Who.at_ w addr) → Granted s w →
    refusedForm f = false → regAddr addr = some (id, i) → (w.steward = false ∨ id ∉ [.sboxData, .sboxSet, .sboxClr]) →
    let u := writeReg (Who.at_ w addr) id i v { s with gate := s.clk + 1, answers := [] }
    ∃ t, exec (.registerWrite w ⟨addr, f⟩ [wordBeat addr v]) s = .next t ∧ t.regs = u.regs ∧ ArrayKept s t ∧
      t.answers = s.answers ++ u.answers.map fun a =>
        { a with due := s.clk + answerTime (addr % 0x800000), sub := pageNo (addr % 0x800000), write := true }) ∧
  (∀ (w : Who) (addr i : Nat) (f : AxiForm) (id : RegId) (v : Word) (s : State), Running s → FullView (Who.at_ w addr) → Granted s w →
    refusedForm f = false → id ∈ [.lotTicket, .thmThr, .cmUvTask, .cmUvBells] → regAddr addr = some (id, i) →
    ∃ t, exec (.registerWrite w ⟨addr, f⟩ [wordBeat addr v]) s = .next t ∧
      rg t id i = ((rg s id i &&& ~~~id.row.rw) ||| (v &&& id.row.rw)) ∧ RegsKept [(id, i)] s t ∧
      Answered (Who.at_ w addr) 0 false (answerTime (addr % 0x800000)) s t) ∧
  (∀ (w : Who) (addr i : Nat) (f : AxiForm) (id : RegId) (v : Word) (s : State), Running s → FullView (Who.at_ w addr) → Granted s w →
    refusedForm f = false → regAddr addr = some (id, i) → writeRefused s id = true →
    ∃ t, exec (.registerWrite w ⟨addr, f⟩ [wordBeat addr v]) s = .next t ∧ RegsKept [(.mgmtErr, 0)] s t ∧
      Answered (Who.at_ w addr) 0 true (answerTime (addr % 0x800000)) s t) ∧
  (∀ (w : Who) (addr i j : Nat) (f : AxiForm) (id jd : RegId) (d : BitVec 64) (s : State), Running s → FullView (Who.at_ w addr) →
    Granted s w → refusedForm f = false → addr % 8 = 0 →
    regAddr addr = some (id, i) → regAddr (addr + 4) = some (jd, j) →
    id ∈ [.lotTicket, .thmThr, .cmUvTask, .cmUvBells] → jd ∈ [.lotTicket, .thmThr, .cmUvTask, .cmUvBells] →
    ∃ t, exec (.registerWrite w ⟨addr, f⟩ [⟨d, 0xFF⟩]) s = .next t ∧
      rg t id i = ((rg s id i &&& ~~~id.row.rw) ||| (d.setWidth 32 &&& id.row.rw)) ∧
      rg t jd j = ((rg s jd j &&& ~~~jd.row.rw) ||| ((d >>> 32).setWidth 32 &&& jd.row.rw)) ∧
      RegsKept [(id, i), (jd, j)] s t ∧ Answered w 0 false (answerTime (addr % 0x800000)) s t) ∧
  (∀ (w : Who) (addr : Nat) (f : AxiForm) (l : List MgmtBeat) (s : State), Running s → Granted s w →
    (refusedForm f = true ∨ ∃ b, l = [b] ∧ b.strb ∉ [0xFF, 0x0F, 0xF0]) →
    ∃ t, exec (.registerWrite w ⟨addr, f⟩ l) s = .next t ∧ RegsKept [(.mgmtErr, 0)] s t ∧
      rf t .mgmtErr 0 15 0 = (if w.steward then rf s .mgmtErr 0 15 0 else min 65535 (rf s .mgmtErr 0 15 0 + 1)) ∧
      Answered w 0 true (answerTime (addr % 0x800000)) s t) ∧
  (∀ (w : Who) (addr i : Nat) (f : AxiForm) (v : Word) (s : State), Running s → w.steward = true → refusedForm f = false →
    ∀ e ∈ [(RegId.sboxData, SboxOp.write v), (.sboxSet, .set v), (.sboxClr, .clr v)], regAddr addr = some (e.1, i) →
    ∃ t, exec (.registerWrite w ⟨addr, f⟩ [wordBeat addr v]) s = .next t ∧ RegsKept [] s t ∧ t.answers = s.answers ∧ t.sbox = s.sbox ∧
      t.sboxWait = s.sboxWait ++
        [⟨Who.at_ w addr, if 4096 ≤ i ∧ i < 5120 then .deny true else e.2, i, (s.clk / 4 + 1) * 4⟩]) ∧
  (∀ (w : Who) (addr : Nat) (wr : Bool) (s : State), Running s → Granted s w →
    routed s (Who.at_ w addr) (regAddr addr) wr 0 = none →
    ∃ t, exec (.defaultTarget w addr wr) s = .next t ∧
      Answered (Who.at_ w addr) 0 true (answerTime (addr % 0x800000)) s t ∧
      bitOf (rg t .fuStat 82) 4 = true ∧ bitOf (rg t .cmErrLast) 31 = true ∧
      (bitOf (rg s .cmErrLast) 31 = false → addr < 0x1000000 → rg t .cmErrAddr = BitVec.ofNat 32 addr) ∧
      (bitOf (rg s .cmErrLast) 31 = true → rg t .cmErrLast = rg s .cmErrLast ∧ rg t .cmErrAddr = rg s .cmErrAddr)) ∧
  (∀ (w : Who) (addr : Nat) (wr : Bool) (s : State), Running s → Granted s w →
    (routed s (Who.at_ w addr) (regAddr addr) wr 0).isSome = true →
    ∃ t, exec (.defaultTarget w addr wr) s = .next t ∧ RegsKept [] s t ∧ t.answers = s.answers)

/-! ### Slot ports -/

/-- A slot read whose descriptors pass every check joins its batch, due at edge n+16, and takes one lane for each valid
descriptor: half A at edge n+3, half B at n+4, its banks four edges later. -/
def Obligations.SlotReadTakesLanes : Prop :=
  ∀ (x : Nat) (ds : List Desc) (fmt : Nat) (last : Bool) (s : State), Within s →
    slotReady s x = true → sampling s = true → readFailed s x (openBatch (s.rdDir x)) = false →
    (prof s x fmt).reserved = false → (prof s x fmt).rdMode = 0 →
    let ks := descChecks s x .rd (prof s x fmt).packed [] (ds.take (if x < 16 then 4 else 1))
    (∀ e ∈ ks, e.2.st = 0) →
    ∃ t, exec (.slotReadRequest x ds fmt last) s = .next t ∧
      (∃ b, (t.rdDir x).beats = (s.rdDir x).beats ++ [b] ∧ b.id = (s.rdDir x).next ∧ b.due = s.run + 16 ∧ b.last = last) ∧
      (t.rdDir x).isOpen = !last ∧
      (∀ i q k, ks[i]? = some (q, k) → q.valid = true →
        ∃ l ∈ t.rdLanes, l.use = .slot x (s.rdDir x).next i ∧ l.col = k.col ∧ l.accs = k.grans.map Prod.snd ∧
          l.bank = s.run + 7 + (if q.half then 1 else 0) ∧ l.due = s.run + 16) ∧
      t.rdLanes.length = s.rdLanes.length + (ks.filter fun e => e.1.valid).length ∧
      t.wrLanes = s.wrLanes ∧ RegsKept [] s t

/-- A slot write whose descriptors pass every check joins its batch, answered at edge n+10, and takes one lane for each valid
descriptor: half A at edge n+5, half B at n+6, its banks four edges later. -/
def Obligations.SlotWriteTakesLanes : Prop :=
  ∀ (x : Nat) (ds : List Desc) (fmt : Nat) (tly last : Bool) (s : State), Within s →
    slotReady s x = true → sampling s = true →
    (∀ f ∈ (s.wrDir x).failed, f.1 ≠ (openBatch (s.wrDir x)).batch) →
    let s0 := if (s.wrDir x).isOpen then s else (tallyBatch s x).1
    let s1 := if (prof s x fmt).sr then stepSr s0 x else s0
    let ds' := ds.take (if x < 16 then 2 else 1)
    let ks := descChecks s1 x .wr (prof s x fmt).packed [] ds'
    writePlan s1 x fmt ds' ≠ .fail → (∀ e ∈ ks, e.2.st = 0) →
    ∃ t, exec (.slotWriteRequest x ds fmt tly last) s = .next t ∧
      (∃ b, (t.wrDir x).beats = (s.wrDir x).beats ++ [b] ∧ b.id = (s.wrDir x).next ∧ b.due = s.run + 10) ∧
      (t.wrDir x).isOpen = !last ∧
      (∀ i q k, ks[i]? = some (q, k) → q.valid = true →
        ∃ l ∈ t.wrLanes, l.use = .slot x (s.wrDir x).next i ∧ l.col = k.col ∧ l.accs = k.grans.map Prod.snd ∧
          l.bank = s.run + 9 + (if q.half then 1 else 0)) ∧
      t.rdLanes = s.rdLanes

/-- A delivery puts the oldest due request on the read bus: the data-valid bit and status of each stripe, the request leaves
its batch; a response does the same on the write side, where the Tally unit's counters alone may count. -/
def Obligations.SlotPortsAnswerTheOldestRequest : Prop :=
  (∀ (x : Nat) (b : Beat) (s : State), Within s → (s.rdDir x).beats.find? (fun b => decide (b.due ≤ s.run)) = some b →
    ∃ t o, exec (.readDelivery x) s = .next t ∧ Tab.get (fun _ => ⟨0, [], [], []⟩) t.slotRdOut x = o ∧ o.at_ = b.due ∧
      (t.rdDir x).beats = (s.rdDir x).beats.filter (fun c => c.id != b.id) ∧
      o.st.length = b.descs.length ∧
      (∀ (i : Nat) (d : DescSt), b.descs[i]? = some d →
        o.st[i]? = some (deliverSt ((s.rdDir x).failed.any fun f => decide (f.1 = b.batch ∧ f.2.2 < b.id)) d
          (slotLane s x b.id i)) ∧
        o.dv[i]? = some (d.valid && decide (o.st[i]? = some 0)))) ∧
  (∀ (x : Nat) (b : Beat) (s : State), Within s → (s.wrDir x).beats.find? (fun b => decide (b.due ≤ s.run)) = some b →
    ∃ t o, exec (.writeResponse x) s = .next t ∧ Tab.get (fun _ => ⟨0, [], [], []⟩) t.slotWrOut x = o ∧ o.at_ = b.due ∧
      (t.wrDir x).beats = (s.wrDir x).beats.filter (fun c => c.id != b.id) ∧
      (∀ (i : Nat) (d : DescSt), b.descs[i]? = some d → o.st[i]? = some (if d.valid then d.st else 0)) ∧
      RegsKept [(.tallyRows, x), (.tallyClamps, x), (.tallyParts, x)] s t ∧ (b.tally = none → RegsKept [] s t))

/-- A write of PG[g].CTRL stores the three enables and is answered OKAY, whether it disables or enables. -/
def Obligations.PortEnablesAreStored : Prop :=
  ∀ (w : Who) (g : Nat) (v : Word) (s : State), Running s → FullView w → Granted s w → g < 16 →
    ∀ c ∈ [Instr.portDisable w g v, Instr.portEnable w g v],
    ∃ t, exec c s = .next t ∧ rg t .pgCtrl g = v &&& RegId.pgCtrl.row.rw ∧ RegsKept [(.pgCtrl, g)] s t ∧
      Answered w 0 false (answerTime (RegId.pgCtrl.offset g)) s t ∧
      t.slotRd = s.slotRd ∧ t.slotWr = s.slotWr ∧ t.scalars = s.scalars

/-! ### Skips, wheels, conflict counters -/

/-- A thermal skip due at this edge is announced for the next ACLK cycle and counted, once; an announced skip that begins holds the
two edges that follow; a write of XBAR.SKIP_CTRL stores its mode and level. -/
def Obligations.SkipsAreAnnouncedAndHeld : Prop :=
  (∀ s : State, Within s → thermalDue s = true → doneNow s lastSkip = true → exec .thermalSkip s = .next s) ∧
  (∀ s : State, Within s → thermalDue s = true → doneNow s lastSkip = false →
    ∃ t, exec .thermalSkip s = .next t ∧ t.skipNext = some (s.clk + 2) ∧
      (rg t .xbarSkipTherm).toNat = min (2 ^ 32 - 1) ((rg s .xbarSkipTherm).toNat + 1) ∧
      RegsKept [(.xbarSkipTherm, 0)] s t ∧ t.heldFrom = s.heldFrom ∧ t.heldTo = s.heldTo) ∧
  (∀ (e : Nat) (s : State), Within s → s.skipNext = some e → e ≤ s.clk → aclkEdge s = true →
    ∃ t, exec .slotSkip s = .next t ∧ t.skipNext = none ∧ t.heldTo = s.clk + 2 ∧
      (t.heldFrom = s.clk + 1 ∨ (s.heldTo = s.clk ∧ t.heldFrom = s.heldFrom)) ∧ RegsKept [] s t) ∧
  (∀ (w : Who) (v : Word) (s : State), Running s → FullView w → Granted s w →
    ∃ t, exec (.skipCtrlWrite w v) s = .next t ∧
      rf t .xbarSkipCtrl 0 1 0 = fld v 1 0 ∧ rf t .xbarSkipCtrl 0 5 4 = fld v 5 4 ∧ RegsKept [(.xbarSkipCtrl, 0)] s t ∧
      Answered w 0 false (answerTime (RegId.xbarSkipCtrl.offset 0)) s t)

/-- A write of XBAR.WHEEL_SW.GO asks for an exchange unless the configuration is sealed; the exchange makes the other set
current at position 0. -/
def Obligations.WheelSetsExchange : Prop :=
  (∀ (w : Who) (s : State), Running s → FullView w → Granted s w →
    ∃ t, exec (.wheelSwGo w) s = .next t ∧ t.wheelPend = (s.wheelPend || !s.sealed_) ∧ t.wheelSet = s.wheelSet ∧
      t.wheels = s.wheels ∧ RegsKept [] s t) ∧
  (∀ s : State, Within s → s.wheelPend = true → s.wheelPos = 0 → s.wheelReq < s.run →
    ∃ t, exec .wheelExchange s = .next t ∧ t.wheelSet = 1 - s.wheelSet % 2 ∧ t.wheelPend = false ∧ t.wheels = s.wheels)

/-- CONF_CLR clears the four counter words of one master, CONF_CLR_ALL those of all 69; no other register changes. -/
def Obligations.ConflictCountersClear : Prop :=
  (∀ (w : Who) (m : Nat) (s : State), Running s → FullView w → Granted s w → m < 69 →
    ∃ t, exec (.confClr w m) s = .next t ∧
      rg t .xbarConfRdLo m = 0 ∧ rg t .xbarConfRdHi m = 0 ∧ rg t .xbarConfWrLo m = 0 ∧ rg t .xbarConfWrHi m = 0 ∧
      RegsKept [(.xbarConfRdLo, m), (.xbarConfRdHi, m), (.xbarConfWrLo, m), (.xbarConfWrHi, m)] s t) ∧
  (∀ (w : Who) (s : State), Running s → FullView w → Granted s w →
    ∃ t, exec (.confClrAll w) s = .next t ∧
      (∀ id ∈ [RegId.xbarConfRdLo, .xbarConfRdHi, .xbarConfWrLo, .xbarConfWrHi], ∀ m, m < 69 → rg t id m = 0) ∧
      (∀ id i, i < 1048576 → id ∉ [RegId.xbarConfRdLo, .xbarConfRdHi, .xbarConfWrLo, .xbarConfWrHi] → rg t id i = rg s id i))

/-! ### The array -/

/-- A write lane, not cancelled, whose banks no read of its slot takes and whose rows wait in no deferral entry commits at its bank
stage: each of its rows reads what the lane commits there, during a copy the copy's destination of a client lane's rows too, and every
other byte of the array reads as before. -/
def Obligations.CommitWritesItsRows : Prop :=
  ∀ (c : Nat) (w : WrLane) (s : State), Within s → Memory.wf s.mem →
    s.wrLanes.find? (fun w => decide (w.col = c ∧ w.bank ≤ s.run)) = some w → laneVoid s w = false →
    (s.rdLanes.any fun l => decide (l.col = w.col ∧ l.bank = w.bank) && clashes s w.col w.accs l.accs) = false →
    (∀ g ∈ laneGrans s w, deferred s w.col g.1 = none) → ((laneGrans s w).map fun g => physOf s w.col g.1).Nodup →
    ∃ t, exec (.stripeCommit c) s = .next t ∧
      (∀ (i : Nat) (a : Acc) (d : Coded), w.accs[i]? = some a → w.data[i]? = some d →
        (readPhys t (physOf s w.col a)).data = (commitData s w a d).data ∧
        (stewardUse w.use = false → ∀ b, copyDest s w.col a = some b →
          (readPhys t (physOf s w.col b)).data = (commitData s w a d).data)) ∧
      (∀ b : Nat, (∀ g ∈ laneGrans s w, b / 64 ≠ physOf s w.col g.1) → memByte t b = memByte s b) ∧
      w ∉ t.wrLanes ∧ Memory.wf t.mem

/-- A client write lane that meets a read of its slot at another row of a bank is deferred whole: the array is unchanged, the
lane's bank rows stand in one new entry with what it commits, and the column counts the deferral. -/
def Obligations.DeferralKeepsTheArray : Prop :=
  ∀ (c : Nat) (w : WrLane) (s : State), Within s →
    s.wrLanes.find? (fun w => decide (w.col = c ∧ w.bank ≤ s.run)) = some w → stewardUse w.use = false →
    (s.rdLanes.any fun l => decide (l.col = w.col ∧ l.bank = w.bank) && clashes s w.col w.accs l.accs) = true →
    (s.col w.col).copy = none → (s.col w.col).defer = [] → w.accs ≠ [] → w.data.length = w.accs.length →
    w.col < 64 → w.master < 69 →
    ∃ t, exec (.stripeCommit c) s = .next t ∧ ArrayKept s t ∧
      (∃ e, (t.col w.col).defer = [e] ∧ e.grans.map Prod.fst = w.accs.map (physAcc s w.col) ∧
        e.grans.map Prod.snd = (w.accs.zip w.data).map (fun g => commitData s w g.1 g.2) ∧ e.at_ = s.clk) ∧
      (rg t .colDeferCnt w.col).toNat = min (2 ^ 32 - 1) ((rg s .colDeferCnt w.col).toNat + 1)

/-- A drain writes the oldest deferral entry of a tile whose banks are free into its rows, corrected, and the entry leaves the
buffer; no other byte changes. -/
def Obligations.DrainWritesItsEntry : Prop :=
  ∀ (c t : Nat) (e : DeferEntry) (s : State), Within s → Memory.wf s.mem → drainable s c t = some e →
    (e.grans.map fun g => physOf s c g.1).Nodup →
    ∃ u, exec (.deferralDrain c t) s = .next u ∧
      (∀ g ∈ e.grans, (readPhys u (physOf s c g.1)).data = (corrected g.2).data) ∧
      (∀ b : Nat, (∀ g ∈ e.grans, b / 64 ≠ physOf s c g.1) → memByte u b = memByte s b) ∧
      e ∉ (u.col c).defer ∧ Memory.wf u.mem

/-! ### The lottery -/

/-- A draw takes 16 bits of the LFSR state of its cycle, scales them to the total of the effective tickets and grants the first
candidate, in increasing requester index, whose running sum exceeds the result; a long-road turn grants the candidate that has
waited longest and was not granted last. The grant is for the lane of the next running edge, and the requester is the last one
granted. -/
def Obligations.DrawsRegisterGrants : Prop :=
  (∀ (c : Nat) (d : Dir) (s : State), ((candidates s c d).map Prod.fst).Pairwise (· < ·)) ∧
  (∀ (c r n h : Nat) (d : Dir) (pre post : List (Nat × Nat × Nat)) (s : State), Within s → c < 64 →
    drawDue s c d = true → longRoadTurn s c d = false →
    let w := Tab.get (fun _ => 1) s.lfsrPrev c
    let v := match d with | .rd => fld w 15 0 | .wr => fld w 31 16
    let x := v * ((candidates s c d).map fun e => e.2.1).sum / 65536
    let sum := (pre.map fun e => e.2.1).sum
    candidates s c d = pre ++ (r, n, h) :: post → sum ≤ x → x < sum + n →
    ∃ t, exec (.lotteryDraw c d) s = .next t ∧
      (t.lot (lotKey c d)).grants = (s.lot (lotKey c d)).grants ++ [(s.run + 1, r)] ∧
      (t.lot (lotKey c d)).last = some r ∧ (t.lot (lotKey c d)).count = (s.lot (lotKey c d)).count + 1 ∧
      t.queues = s.queues ∧ (∀ k, k ≠ lotKey c d → t.lot k = s.lot k)) ∧
  (∀ (c r : Nat) (d : Dir) (s : State), Within s → c < 64 → drawDue s c d = true → longRoadTurn s c d = true →
    longRoadPick (s.lot (lotKey c d)).last (candidates s c d) = some r →
    ∃ t, exec (.longRoadGrant c d) s = .next t ∧
      (t.lot (lotKey c d)).grants = (s.lot (lotKey c d)).grants ++ [(s.run + 1, r)] ∧
      (t.lot (lotKey c d)).last = some r ∧
      rf t .colLotLr c (dirHi d) (dirLo d) = min 65535 (rf s .colLotLr c (dirHi d) (dirLo d) + 1) ∧
      t.queues = s.queues)

/-- A draw never picks a requester without a ticket while some candidate holds one. -/
def Obligations.WalkPicksATicketHolder : Prop :=
  ∀ (v : Nat) (l : List (Nat × Nat × Nat)), v < 65536 → 0 < (l.map fun e => e.2.1).sum →
    ∃ r n h, walk (v * (l.map fun e => e.2.1).sum / 65536) 0 l = some r ∧ (r, n, h) ∈ l ∧ 0 < n

/-- A granted lane of a slot that is open at its edge issues the head entry of the granted requester's queue: the entry leaves the queue and its lane reaches the
banks four edges later. A grant whose requester has no candidate that may issue there issues nothing and counts as stale. -/
def Obligations.GrantsIssueQueueHeads : Prop :=
  (∀ (c : Nat) (d : Dir) (g : Nat × Nat) (e : QEntry) (s : State), Within s → c < 64 → g.2 < 37 →
    (s.lot (lotKey c d)).grants.find? (fun g => decide (g.1 ≤ s.run)) = some g → candidate s c d g.2 = some e →
    rowBlocked s c d g.2 e = false → quarantined s c = false → ownerIn s c d 0 = 0 →
    ∃ t, exec (.openLaneIssue c d) s = .next t ∧
      (t.queue (queueKey c d g.2)).entries = (s.queue (queueKey c d g.2)).entries.tail ∧
      (match d with
       | .rd => ∃ l ∈ t.rdLanes, l.col = c ∧ l.use = e.use ∧ l.accs = e.accs ∧ l.bank = s.run + 4
       | .wr => ∃ l ∈ t.wrLanes, l.col = c ∧ l.use = e.use ∧ l.accs = e.accs ∧ l.data = e.data ∧ l.bank = s.run + 4)) ∧
  (∀ (c : Nat) (d : Dir) (g : Nat × Nat) (s : State), Within s → c < 64 →
    (s.lot (lotKey c d)).grants.find? (fun g => decide (g.1 ≤ s.run)) = some g →
    (∀ e, candidate s c d g.2 = some e → rowBlocked s c d g.2 e = true ∨ quarantined s c = true ∨ ownerIn s c d 0 ≠ 0) →
    ∃ t, exec (.openLaneIssue c d) s = .next t ∧ t.queues = s.queues ∧ t.rdLanes = s.rdLanes ∧ t.wrLanes = s.wrLanes ∧
      rf t .colLotStale c (dirHi d) (dirLo d) = min 65535 (rf s .colLotStale c (dirHi d) (dirLo d) + 1))

/-- A head that has waited to the threshold sets its requester's starvation flag and is recorded once. -/
def Obligations.StarvationIsFlagged : Prop :=
  ∀ (c r : Nat) (d : Dir) (s : State), Within s → c < 64 → r < 37 → starveDue s (queueKey c d r) = true →
    ∃ t, exec (.starvationFlag c d r) s = .next t ∧
      (r < 32 → bitOf (rg t .lotStarveLo) r = true) ∧ (32 ≤ r → bitOf (rg t .lotStarveHi) (r - 32) = true) ∧
      rf t .lotStarveLast 0 5 0 = r ∧ rf t .lotStarveLast 0 11 6 = c ∧
      rf t .lotStarveLast 0 31 16 = headWait s (s.queue (queueKey c d r)) ∧
      starveDue t (queueKey c d r) = false ∧
      RegsKept [(.lotStarveLo, 0), (.lotStarveHi, 0), (.lotStarveLast, 0)] s t

/-! ### Scalar ports -/

/-- A scalar request that passes its checks is outstanding under its tag and its read lane, or the read half of its write,
enters its column's read queue at edge n+3; a request that reuses an outstanding tag is refused with status 0x2 at n+4. -/
def Obligations.ScalarRequestsQueueOrRefuse : Prop :=
  (∀ (g : Nat) (q : ScalarReq) (s : State), Within s → scalarReady s g = true → sampling s = true →
    (∀ x ∈ s.scalar g, x.req.tag ≠ q.tag) →
    let k := checkNarrow s (.scalar g) q.we q.addr q.size
    k.st = 0 → (∀ x ∈ s.scalar g, x.stage = .buffered → x.col ≠ k.col) →
    (bitOf (rg s .regCtrl) 0 = false ∨ rf s .regClassLimit (passClass (fld (rgIn s.regsA .regPassPg g) 15 0)) 20 16 = 0) →
    queueRoom s k.col .rd (20 + g) = true → (∀ x ∈ s.scalar g, x.id < s.nextScalar) →
    ∃ t x e, exec (.scalarRequest g q) s = .next t ∧ t.scalar g = s.scalar g ++ [x] ∧ x.req = q ∧ x.stage = .reading ∧
      x.id = s.nextScalar ∧
      (t.queue (queueKey k.col .rd (20 + g))).entries = (s.queue (queueKey k.col .rd (20 + g))).entries ++ [e] ∧
      e.use = .scalar g s.nextScalar ∧ e.at_ = s.run + 3) ∧
  (∀ (g : Nat) (q : ScalarReq) (s : State), Within s → scalarReady s g = true → sampling s = true →
    (∃ x ∈ s.scalar g, x.req.tag = q.tag) →
    ∃ t x, exec (.scalarRequest g q) s = .next t ∧ t.scalar g = s.scalar g ++ [x] ∧ x.req = q ∧
      x.stage = .due (s.run + 4) 2 0 ∧ t.queues = s.queues)

/-- The merge of a narrow write queues its write half at this edge, unless its row read an uncorrectable word or its tile serves no
more: then the write is abandoned and its response falls due with status 0x7 or 0x5. -/
def Obligations.NarrowWritesMerge : Prop :=
  ∀ (c g id : Nat) (l : RdLane) (x : Scalar) (s : State), Within s → s.rdLanes.find? (narrowReady s c) = some l →
    l.use = .scalar g id → (s.scalar g).find? (fun x => x.id == id) = some x →
    let d := (l.got.getD []).headD default
    (scalarUe x.req (readRow d) = false → (∃ k, outCheck s c x.acc.tier = some k) →
      ∃ t, exec (.narrowWriteMerge c) s = .next t ∧ l ∉ t.rdLanes ∧ t.queues = s.queues ∧
        ∃ y ∈ t.scalar g, y.id = id ∧ y.stage = .due (aclkAt (max s.run (x.at_ + 3))) 5 0) ∧
    (scalarUe x.req (readRow d) = false → outCheck s c x.acc.tier = none → queueRoom s c .wr (20 + g) = true →
      ∃ t e, exec (.narrowWriteMerge c) s = .next t ∧ l ∉ t.rdLanes ∧
        (t.queue (queueKey c .wr (20 + g))).entries = (s.queue (queueKey c .wr (20 + g))).entries ++ [e] ∧
        e.use = .scalarWr g id ∧ e.accs = [x.acc] ∧ e.data = [narrowMerge d x.req] ∧ e.at_ = s.run) ∧
    (scalarUe x.req (readRow d) = true →
      ∃ t, exec (.narrowWriteMerge c) s = .next t ∧ l ∉ t.rdLanes ∧ t.queues = s.queues ∧
        ∃ y ∈ t.scalar g, y.id = id ∧ y.stage = .due (aclkAt l.due) 7 0)

/-- At an ACLK edge a scalar port presents the oldest response that is due, with its tag, status and data, and the access is
no longer outstanding. -/
def Obligations.ScalarResponsesArePresented : Prop :=
  ∀ (g st : Nat) (x : Scalar) (v : BitVec 64) (s : State), Within s → aclkEdge s = true →
    scalarDue (scalarSettle s g) g = some (x, st, v) →
    ∃ t, exec (.scalarResponse g) s = .next t ∧
      Tab.get (fun _ => ⟨0, 0, false, 0, 0⟩) t.scalarOut g = ⟨s.run, x.req.tag, x.req.we, st, v⟩ ∧
      (∀ y ∈ t.scalar g, y.id ≠ x.id) ∧ t.queues = s.queues ∧ t.wrLanes = s.wrLanes

/-! ### Link ports -/

/-- A WRITE header spends a header credit and waits three BCLK for its checks, framing its flits; a flit owed to a packet not
yet checked is kept, one owed to an admitted packet becomes stripes, one owed to a refused or lost packet only returns its credit. -/
def Obligations.InboundWritesAreFramed : Prop :=
  (∀ (l : Nat) (h : Header) (s : State), Within s → linkUp s l = true → headerOk h 1 = true → 0 < (s.link l).owedHdr →
    creditUe s (linkCredit l 2) = false →
    ∃ t q, exec (.inboundWrite l h) s = .next t ∧ (t.link l).inQ = (s.link l).inQ ++ [q] ∧ q.hdr = h ∧
      q.at_ = s.clk + 3 ∧ q.checked = false ∧ q.owed = (h.len + 7) / 8 ∧ q.refused = none ∧
      (t.link l).owedHdr = (s.link l).owedHdr - 1 ∧ RegsKept [] s t) ∧
  (∀ (l : Nat) (data : List Row) (q : InPkt) (s : State), Within s → linkUp s l = true → owedPkt (s.link l) = some q →
    0 < (s.link l).owedData → creditUe s (linkCredit l 3) = false →
    ∃ t p, exec (.inboundFlit l data) s = .next t ∧ p ∈ (t.link l).inQ ∧ p.id = q.id ∧ p.owed = q.owed - 1 ∧
      (t.link l).owedData = (s.link l).owedData - 1 ∧ RegsKept [] s t ∧
      (q.drop = false → q.refused = none → q.lost = false → q.checked = false → p.kept = q.kept ++ [data]) ∧
      (q.drop = false → q.refused = none → q.lost = false → q.checked = true →
        p.stripes = q.stripes ++ flitStripes q q.taken data) ∧
      ((q.drop = true ∨ q.refused.isSome = true ∨ q.lost = true) → p.stripes = q.stripes ∧ p.kept = q.kept ∧
        (t.link l).backData = (s.link l).backData + 1))

/-- A malformed header and a stray flit are discarded, counted and raised as LINK_FRAME, their credits returning; returned
outbound credits count up to 31 and 127, and one whose counter cannot be corrected counts nothing and raises CRD_UE. -/
def Obligations.FramingFaultsAndCredits : Prop :=
  (∀ (l : Nat) (h : Header) (s : State), Within s → linkUp s l = true → 0 < (s.link l).owedHdr → creditUe s (linkCredit l 2) = false →
    (h.type = 0 ∨ 7 < h.type ∨ 23 < h.link ∨ (h.type ≠ 1 ∧ h.len ≠ 0)) →
    ∃ t, exec (.malformedHeader l h) s = .next t ∧ bitOf (rg t .fuStat 80) 19 = true ∧
      rf t .lpStat l 31 16 = min 65535 (rf s .lpStat l 31 16 + 1) ∧
      (t.link l).backHdr = (s.link l).backHdr + 1 ∧ (t.link l).outQ = (s.link l).outQ) ∧
  (∀ (l : Nat) (s : State), Within s → linkUp s l = true → owedPkt (s.link l) = none → 0 < (s.link l).owedData →
    creditUe s (linkCredit l 3) = false →
    ∃ t, exec (.strayFlit l) s = .next t ∧ bitOf (rg t .fuStat 80) 19 = true ∧
      rf t .lpStat l 31 16 = min 65535 (rf s .lpStat l 31 16 + 1) ∧
      (t.link l).backData = (s.link l).backData + 1 ∧ (t.link l).inQ = (s.link l).inQ) ∧
  (∀ (l hdr dat : Nat) (s : State), Within s → linkUp s l = true →
    ∃ t, exec (.creditReturn l hdr dat) s = .next t ∧
      let ueH := creditUe s (linkCredit l 0)
      let ueD := creditUe s (linkCredit l 1)
      (t.link l).outHdr = (if hdr = 0 ∨ ueH = true then (s.link l).outHdr else min 31 ((s.link l).outHdr + hdr)) ∧
      (t.link l).outData = (if dat = 0 ∨ ueD = true then (s.link l).outData else min 127 ((s.link l).outData + dat)) ∧
      ((hdr ≠ 0 ∧ ueH = true) ∨ (dat ≠ 0 ∧ ueD = true) → bitOf (rg t .fuStat 80) 3 = true) ∧
      (ueH = false → ueD = false → (s.link l).outHdr + hdr ≤ 31 → (s.link l).outData + dat ≤ 127 → RegsKept [] s t) ∧
      (31 < (s.link l).outHdr + hdr ∨ 127 < (s.link l).outData + dat → bitOf (rg t .fuStat 80) 11 = true))

/-- The first packet's header leaves when it may: a request takes its link's next SEQ and waits for its answer, an answer
repeats its request's; a header credit is spent. -/
def Obligations.PacketHeadersLeave : Prop :=
  ∀ (l : Nat) (o : OutPkt) (rest : List OutPkt) (s : State), Within s → linkUp s l = true →
    headerNow s l = false → flitsNow s l = 0 → (s.link l).outQ = o :: rest → o.hdrSent = false →
    mayStart s (s.link l) o = true → creditUe s (linkCredit l 0) = false →
    let sq := Tab.get (fun _ => 0) (s.link l).seq o.hdr.link
    ∃ t h, exec (.outboundPacketSend l) s = .next t ∧ (t.link l).tx.hdr = some h ∧ (t.link l).tx.at_ = s.clk ∧
      (t.link l).outHdr = (s.link l).outHdr - 1 ∧
      (o.answer = true → h = o.hdr ∧ (t.link l).sent = (s.link l).sent ∧ (t.link l).seq = (s.link l).seq) ∧
      (o.answer = false → h = { o.hdr with seq := sq } ∧
        Tab.get (fun _ => 0) (t.link l).seq o.hdr.link = (sq + 1) % 65536 ∧
        ∃ p, (t.link l).sent = (s.link l).sent ++ [p] ∧ p.type = o.hdr.type ∧ p.seq = sq ∧ p.window = o.hdr.window ∧
          p.sqs = o.sqs ∧ p.at_ = s.clk)

/-- An ACK or NACK ends the WRITE it matches by link and SEQ; a NACK is counted; one that matches none is a stray. -/
def Obligations.AcksAndNacksEndWrites : Prop :=
  (∀ (l : Nat) (h : Header) (p : SentPkt) (s : State), Within s → linkUp s l = true → headerOk h 2 = true →
    0 < (s.link l).owedHdr → creditUe s (linkCredit l 2) = false → matched (s.link l) 1 h = some p →
    ∃ t, exec (.ack l h) s = .next t ∧ p ∉ (t.link l).sent ∧ (t.link l).backHdr = (s.link l).backHdr + 1 ∧
      ((∀ o ∈ (s.link l).outQ, o.sqs ≠ p.sqs) → ∀ q ∈ t.pieces, q.sq ∉ p.sqs)) ∧
  (∀ (l : Nat) (h : Header) (p : SentPkt) (s : State), Within s → linkUp s l = true → headerOk h 3 = true →
    0 < (s.link l).owedHdr → creditUe s (linkCredit l 2) = false → matched (s.link l) 1 h = some p →
    ∃ t, exec (.nack l h) s = .next t ∧ p ∉ (t.link l).sent ∧
      (∀ q, p.sqs.head?.bind s.piece = some q → ∃ a ∈ t.aborts, a.task = q.task) ∧
      rf t .lpNacks l 31 16 = min 65535 (rf s .lpNacks l 31 16 + 1)) ∧
  (∀ (l : Nat) (h : Header) (s : State), Within s → linkUp s l = true → 0 < (s.link l).owedHdr → creditUe s (linkCredit l 2) = false →
    matched (s.link l) 1 h = none →
    (headerOk h 2 = true → ∃ t, exec (.ack l h) s = .next t ∧ bitOf (rg t .fuStat 80) 15 = true ∧
      rf t .winStray 0 15 0 = min 65535 (rf s .winStray 0 15 0 + 1) ∧ t.pieces = s.pieces) ∧
    (headerOk h 3 = true → ∃ t, exec (.nack l h) s = .next t ∧ bitOf (rg t .fuStat 80) 15 = true ∧
      rf t .winStray 0 15 0 = min 65535 (rf s .winStray 0 15 0 + 1) ∧ t.pieces = s.pieces))

/-! ### Remote windows -/

/-- An OPEN_REQ that meets every condition opens the receiving entry, records the link it came on and is answered with reason
0; every OPEN_REQ is answered. An OPEN_RSP of reason 0 opens the sending entry; a rejection closes it with its reason. -/
def Obligations.WindowsOpenByAgreement : Prop :=
  (∀ (l : Nat) (h : Header) (s : State), Within s → linkUp s l = true → headerOk h 4 = true → 0 < (s.link l).owedHdr →
    creditUe s (linkCredit l 2) = false → h.window < 4096 →
    ∃ t o, exec (.openReq l h) s = .next t ∧ o ∈ (t.link l).outQ ∧ o.answer = true ∧ o.hdr.type = 5 ∧
      o.hdr.window = h.window ∧ o.hdr.seq = h.seq ∧ o.hdr.reason = openReason s h ∧ o.hdr.digest = rg s .winDigest ∧
      (openReason s h = 0 → winState t h.window = wsOpen ∧ peerPort t h.window = l % 4 ∧ peerLink t h.window = h.link ∧
        rf t .winOpens 0 15 0 = min 65535 (rf s .winOpens 0 15 0 + 1)) ∧
      (openReason s h ≠ 0 → winState t h.window = winState s h.window)) ∧
  (∀ (l : Nat) (h : Header) (p : SentPkt) (s : State), Within s → linkUp s l = true → headerOk h 5 = true →
    0 < (s.link l).owedHdr → creditUe s (linkCredit l 2) = false → matched (s.link l) 4 h = some p → p.window < 4096 →
    winSending s p.window = true → winState s p.window = wsOpening →
    ∃ t, exec (.openRsp l h) s = .next t ∧ p ∉ (t.link l).sent ∧
      (h.reason = 0 → winState t p.window = wsOpen) ∧
      (h.reason = 9 → winState t p.window = wsOpening ∧ (t.win p.window).notReady = true) ∧
      (h.reason ≠ 0 → h.reason ≠ 9 → h.reason < 256 → winState t p.window = wsClosed ∧
        rf t .winStat p.window 15 8 = h.reason))

/-- A CLOSE_REQ for an entry neither open nor closing is answered at once; for an open entry with nothing sent or
admitted it is answered and the entry closes. A CLOSE_RSP closes a closing entry, a receiving one once it has nothing admitted. -/
def Obligations.WindowsCloseByAgreement : Prop :=
  (∀ (l : Nat) (h : Header) (s : State), Within s → linkUp s l = true → headerOk h 6 = true → 0 < (s.link l).owedHdr →
    creditUe s (linkCredit l 2) = false → h.window < 4096 → (winState s h.window = wsClosed ∨ winState s h.window = wsOpening) →
    ∃ t o, exec (.closeReq l h) s = .next t ∧ o ∈ (t.link l).outQ ∧ o.answer = true ∧ o.hdr.type = 7 ∧
      o.hdr.window = h.window ∧ o.hdr.seq = h.seq ∧ winState t h.window = winState s h.window) ∧
  (∀ (l : Nat) (h : Header) (s : State), Within s → linkUp s l = true → headerOk h 6 = true → 0 < (s.link l).owedHdr →
    creditUe s (linkCredit l 2) = false → h.window < 4096 → winState s h.window = wsOpen →
    (if winSending s h.window then sentOpen s h.window else admittedOpen s h.window) = 0 →
    ∃ t o, exec (.closeReq l h) s = .next t ∧ o ∈ (t.link l).outQ ∧ o.answer = true ∧ o.hdr.type = 7 ∧
      o.hdr.seq = h.seq ∧ winState t h.window = wsClosed) ∧
  (∀ (l : Nat) (h : Header) (p : SentPkt) (s : State), Within s → linkUp s l = true → headerOk h 7 = true →
    0 < (s.link l).owedHdr → creditUe s (linkCredit l 2) = false → matched (s.link l) 6 h = some p → p.window < 4096 →
    winState s p.window = wsClosing → (winSending s p.window = true ∨ admittedOpen s p.window = 0) →
    ∃ t, exec (.closeRsp l h) s = .next t ∧ winState t p.window = wsClosed ∧ p ∉ (t.link l).sent)

/-- Window entries are written while CLOSED; OPEN, CLOSE and FORCE_CLOSE move an entry between its states and report code 0,
the reserved operation code 3. -/
def Obligations.WindowCommandsMoveEntries : Prop :=
  (∀ (w : Who) (n : Nat) (f : WinField) (v : Word) (s : State), Running s → FullView w → Granted s w → n < 4096 →
    winState s n = wsClosed →
    ∃ t, exec (.windowEntryWrite w n f v) s = .next t ∧ rg t (winReg f) n = v &&& (winReg f).row.rw ∧
      RegsKept [(winReg f, n)] s t) ∧
  (∀ (w : Who) (n : Nat) (s : State), Running s → s.safe = false → FullView w → Granted s w →
    n < winCount s → winState s n = wsClosed →
    openConfigBad s n = false →
    ∃ t, exec (.open_ w n) s = .next t ∧ winState t n = wsOpening ∧ (rg t .winCmdResult).toNat = 256 * n ∧
      (winSending s n = true → ∃ o, (t.link (winPort s n)).outQ = (s.link (winPort s n)).outQ ++ [o] ∧ o.hdr.type = 4 ∧
        o.hdr.link = winLink s n ∧ o.hdr.window = n ∧ o.hdr.epoch = winEpoch s n ∧ o.hdr.digest = rg s .winDigest) ∧
      (winSending s n = false → ∀ l, t.link l = s.link l)) ∧
  (∀ (w : Who) (n : Nat) (s : State), Running s → s.safe = false → FullView w → Granted s w →
    n < winCount s → winState s n = wsOpen →
    ∃ t, exec (.close w n) s = .next t ∧ (rg t .winCmdResult).toNat = 256 * n ∧
      (winState t n = wsClosing ∨ winState t n = wsClosed) ∧
      (winSending s n = false → ∃ o, (t.link (peerPort s n)).outQ = (s.link (peerPort s n)).outQ ++ [o] ∧
        o.hdr.type = 6 ∧ o.hdr.window = n ∧ o.hdr.link = peerLink s n)) ∧
  (∀ (w : Who) (n : Nat) (s : State), Running s → s.safe = false → FullView w → Granted s w → n < winCount s →
    ∃ t, exec (.forceClose w n) s = .next t ∧ winState t n = wsClosed ∧ rf t .winStat n 15 8 = 0xC ∧
      (rg t .winCmdResult).toNat = 256 * n) ∧
  (∀ (w : Who) (n : Nat) (s : State), Running s → s.safe = false → FullView w → Granted s w → n < 4096 →
    ∃ t, exec (.winOpReserved w n) s = .next t ∧ (rg t .winCmdResult).toNat = 3 + 256 * n ∧
      RegsKept [(.winCmdResult, 0)] s t ∧ t.links = s.links)

/-- An OPEN_REQ is repeated 1024 TCLK after the previous one while its answers are NOT_READY; the open limit closes the entry
with reason 0x9 or 0xD; a WRITE unanswered past its limit is counted and raised once. -/
def Obligations.WindowLimits : Prop :=
  (∀ (n : Nat) (s : State), Within s → n < 4096 → winSending s n = true → winState s n = wsOpening → s.safe = false →
    (s.win n).notReady = true → (s.win n).reqAt + 1024 * 12 ≤ s.clk →
    (∀ l, l < 4 → (∀ p ∈ (s.link l).sent, p.window ≠ n) ∧ (∀ o ∈ (s.link l).outQ, o.hdr.window ≠ n)) →
    ∃ t o, exec (.openReqRepeat n) s = .next t ∧ (t.link (winPort s n)).outQ = (s.link (winPort s n)).outQ ++ [o] ∧
      o.hdr.type = 4 ∧ o.hdr.window = n ∧ (t.win n).reqAt = s.clk ∧ RegsKept [] s t) ∧
  (∀ (n : Nat) (s : State), Within s → n < 4096 → winSending s n = true → winState s n = wsOpening →
    rf s .winCtrl 0 23 16 ≠ 0 → (s.win n).openAt + rf s .winCtrl 0 23 16 * (1024 * 12) ≤ s.clk →
    ∃ t, exec (.openLimit n) s = .next t ∧ winState t n = wsClosed ∧
      rf t .winStat n 15 8 = (if (s.win n).notReady then 9 else 0xD)) ∧
  (∀ (l sq link : Nat) (p : SentPkt) (s : State), Within s → p ∈ (s.link l).sent → p.type = 1 → p.link = link → p.seq = sq →
    p.timedOut = false → rf s .winCtrl 0 31 24 ≠ 0 → p.at_ + rf s .winCtrl 0 31 24 * (1024 * 12) ≤ s.clk →
    ∃ t, exec (.ackTimeout l sq link) s = .next t ∧ bitOf (rg t .fuStat 80) 17 = true ∧
      rf t .winStray 0 31 16 = min 65535 (rf s .winStray 0 31 16 + 1) ∧
      (∃ q ∈ (t.link l).sent, q.type = 1 ∧ q.link = link ∧ q.seq = sq ∧ q.timedOut = true) ∧
      (t.link l).sent.length = (s.link l).sent.length)

/-! ### Resets of masters -/

/-- A reset begun by a pin or by its command puts the master in reset from this edge; the pin's line is low, the command has
a completion to come. -/
def Obligations.MasterResetsBegin : Prop :=
  (∀ (g : Nat) (s : State), Within s → g < 16 → (s.rst (rstPg g)).active = false →
    ∃ t, exec (.portGroupReset g) s = .next t ∧
      t.rst (rstPg g) = ⟨true, true, false, false, false, false, s.clk, s.run, 0⟩ ∧ inReset t (rstPg g) = true) ∧
  (∀ (p : Nat) (s : State), Within s → p < 16 → (s.rst (rstPorter p)).active = false →
    ∃ t, exec (.porterReset p) s = .next t ∧
      t.rst (rstPorter p) = ⟨true, true, false, false, false, false, s.clk, s.run, 0⟩ ∧ inReset t (rstPorter p) = true) ∧
  (∀ (l : Nat) (s : State), Within s → l < 4 → (s.rst (rstLink l)).active = false →
    ∃ t, exec (.linkPortReset l) s = .next t ∧
      t.rst (rstLink l) = ⟨true, true, false, false, false, false, s.clk, s.run, 0⟩ ∧ linkUp t l = false) ∧
  (∀ (w : Who) (s : State), Running s → FullView w → Granted s w →
    (∀ g, g < 16 → (s.rst (rstPg g)).active = false → ∃ t, exec (.pgRstCmd w g) s = .next t ∧
      t.rst (rstPg g) = ⟨true, (s.rst (rstPg g)).lineLow, true, false, false, false, s.clk, s.run, 0⟩) ∧
    (∀ p, p < 16 → (s.rst (rstPorter p)).active = false → ∃ t, exec (.ppRstCmd w p) s = .next t ∧
      t.rst (rstPorter p) = ⟨true, (s.rst (rstPorter p)).lineLow, true, false, false, false, s.clk, s.run, 0⟩) ∧
    (∀ l, l < 4 → (s.rst (rstLink l)).active = false → ∃ t, exec (.lpRstCmd w l) s = .next t ∧
      t.rst (rstLink l) = ⟨true, (s.rst (rstLink l)).lineLow, true, false, false, false, s.clk, s.run, 0⟩))

/-- A reset completes once its reclaim is done, and with its line high the master is out of it from the next edge on; the release
of its line after completion ends it in the same way, a release before is noted as early; a porter whose AXI response is missing at
edge 4096 times out. -/
def Obligations.MasterResetsEnd : Prop :=
  (∀ (m : Master) (s : State), Within s → (s.rst (rstOf m)).active = true → reclaimed s (rstOf m) = true →
    ∃ t, exec (.resetComplete m) s = .next t ∧ (t.rst (rstOf m)).active = false ∧ (t.rst (rstOf m)).done = true ∧
      inReset t (rstOf m) = true ∧
      (∀ k, inReset { t with clk := s.clk + 1 + k } (rstOf m) = (s.rst (rstOf m)).lineLow) ∧ RegsKept [] s t) ∧
  (∀ (m : Master) (s : State), Within s → (s.rst (rstOf m)).lineLow = true →
    ∃ t, exec (.resetLineRelease m) s = .next t ∧ (t.rst (rstOf m)).lineLow = false ∧ inReset t (rstOf m) = true ∧
      ((s.rst (rstOf m)).active = true → (t.rst (rstOf m)).early = true ∧ (t.rst (rstOf m)).active = true) ∧
      ((s.rst (rstOf m)).active = false → (t.rst (rstOf m)).done = false ∧
        ∀ k, inReset { t with clk := s.clk + 1 + k } (rstOf m) = false)) ∧
  (∀ (p : Nat) (b : Burst) (s : State), Within s → p < 16 → (s.rst (rstPorter p)).active = true →
    (s.rst (rstPorter p)).timeout = false → (s.rst (rstPorter p)).runAt + 4096 ≤ s.run → b ∈ s.bursts → b.porter = p →
    ∃ t, exec (.reclaimTimeout p) s = .next t ∧ (t.rst (rstPorter p)).timeout = true ∧
      bitOf (rg t .fuStat 80) 12 = true ∧ (t.rst (rstPorter p)).active = true)

/-! ### Satchels and caravans -/

/-- A satchel read whose slots are filled is valid two edges later, later by one ACLK for each escape slot it touches; one that waits
for a slot or for an exchange is held, and answered at the first ACLK edge after its conditions are met, later by its escape slots; the
stall limit, unless it is 0, ends it with data 0, status 0x1 and an event. -/
def Obligations.SatchelReadsAnswerOrStall : Prop :=
  let data := fun (s : State) (x fmt at_ : Nat) (half : Bool) (l : List (Bool × Nat)) =>
    let p := prof s x fmt
    let rs := (stripeOf p x l).map fun e => if e.1 then some (readStripe s x half p s.free e.2) else none
    (⟨at_, rs.map fun r => (r.map StripeRead.st).getD 0, rs.flatMap fun r => (r.map StripeRead.data).getD (List.replicate 8 0)⟩ : SatOut)
  let out := fun (t : State) (x : Nat) => Tab.get (fun _ => ⟨0, [], []⟩) t.satOut x
  let holds := fun (c : Instr) (x : Nat) (r : SatRead) (s : State) =>
    ∃ t, exec c s = .next t ∧ t.sat x = { s.sat x with read := some r } ∧ t.satOut = s.satOut ∧ RegsKept [] s t
  (∀ (x fmt : Nat) (slots : List (Bool × Nat)) (s : State), Within s → slotReady s x = true → sampling s = true →
    (s.sat x).read = none →
    let v := s.sat x
    let l := slots.take (if x < 16 then 4 else 1)
    let n := escSlots s x v.front (prof s x fmt) l
    let exch := match v.swap with | some a => decide (a < s.run) | none => false
    (exch = false → readFilled s x v.front (prof s x fmt) l = true →
      (n = 0 → ∃ t, exec (.satchelRead x slots fmt) s = .next t ∧ out t x = data s x fmt (s.run + 2) v.front l ∧
        t.sats = s.sats) ∧
      (n ≠ 0 → holds (.satchelRead x slots fmt) x ⟨l, fmt, v.front, false, s.run + 2, s.clk + 2, some (s.run + 2 + 2 * n)⟩ s)) ∧
    (exch = true ∨ readFilled s x v.front (prof s x fmt) l = false →
      holds (.satchelRead x slots fmt) x ⟨l, fmt, v.front, exch, s.run + 2, s.clk + 2, none⟩ s)) ∧
  (∀ (x : Nat) (r : SatRead) (s : State), Within s → aclkEdge s = true → heldEdge s = false → (s.sat x).read = some r →
    let n := escSlots s x r.half (prof s x r.fmt) r.slots
    let delivers := ∃ t, exec (.satchelStallEnd x) s = .next t ∧ (t.sat x).read = none ∧ stalled t x = s.safe ∧
      out t x = data (s.setSat x { s.sat x with read := none }) x r.fmt s.run r.half r.slots
    (∀ d, r.ready = some d → (d ≤ s.run → delivers) ∧ (s.run < d → exec (.satchelStallEnd x) s = .next s)) ∧
    (r.ready = none → satReadMet s x r = true → n = 0 → delivers) ∧
    (r.ready = none → satReadMet s x r = true → n ≠ 0 →
      holds (.satchelStallEnd x) x { r with ready := some (s.run + 2 * n) } s) ∧
    (r.ready = none → satReadMet s x r = false → exec (.satchelStallEnd x) s = .next s)) ∧
  (∀ (x : Nat) (r : SatRead) (s : State), Within s → x < 32 → (s.sat x).read = some r → rf s .satCtrl x 31 16 ≠ 0 →
    rf s .satCtrl x 31 16 * 1024 * 12 ≤ s.clk - r.clkAt →
    ∃ t, exec (.satchelStallLimit x) s = .next t ∧ (t.sat x).read = none ∧
      out t x = ⟨s.run, r.slots.map (fun e => if e.1 then 1 else 0), List.replicate (8 * r.slots.length) 0⟩ ∧
      stalled t x = s.safe ∧ bitOf (rg t .fuStat (64 + x % 16)) 12 = true) ∧
  (∀ (x : Nat) (s : State), Within s →
    (∀ r, (s.sat x).read = some r → rf s .satCtrl x 31 16 = 0 ∨ s.clk - r.clkAt < rf s .satCtrl x 31 16 * 1024 * 12) →
    exec (.satchelStallLimit x) s = .next s)

/-- An engine's swap command is remembered, a second one only counted; the exchange makes the back half the front and leaves
the new back half empty. -/
def Obligations.HalvesExchange : Prop :=
  (∀ (x : Nat) (s : State), Within s → slotReady s x = true → sampling s = true → stalled s x = false → swapMode s x ≠ 1 →
    ((s.sat x).swap = none → ∃ t, exec (.swapCommand x) s = .next t ∧ (t.sat x).swap = some s.run ∧
      (t.sat x).front = (s.sat x).front ∧ RegsKept [] s t) ∧
    ((s.sat x).swap ≠ none → ∃ t, exec (.swapCommand x) s = .next t ∧ (t.sat x).swap = (s.sat x).swap ∧
      rf t .satStat x 31 24 = min 255 (rf s .satStat x 31 24 + 1) ∧ RegsKept [(.satStat, x)] s t)) ∧
  (∀ (x : Nat) (s : State), Within s → exchangeDue s x = true →
    ∃ t, exec (.exchange x) s = .next t ∧ (t.sat x).front = !(s.sat x).front ∧ (t.sat x).swap = none ∧
      (∀ slot, (t.sat x).filled (t.sat x).back slot = false) ∧
      (∀ slot, (t.sat x).filled (t.sat x).front slot = (s.sat x).filled (s.sat x).back slot) ∧
      (rg t .satSwaps x).toNat = min (2 ^ 32 - 1) ((rg s .satSwaps x).toNat + 1))

/-- SAT[x].CTRL stores a write's mode and stall limit outside a chain; the stall counters of a cause, or of a port, clear; a
launch takes the next of four places, and one too many is counted and raised. -/
def Obligations.SatchelRegistersAct : Prop :=
  (∀ (w : Who) (x : Nat) (v : Word) (s : State), Running s → FullView w → Granted s w →
    x < 32 → (chainOf s x).isSome = false →
    ∃ t, exec (.swapModeWrite w x v) s = .next t ∧ rf t .satCtrl x 1 0 = fld v 1 0 ∧ rf t .satCtrl x 31 16 = fld v 31 16 ∧
      RegsKept [(.satCtrl, x)] s t) ∧
  (∀ (w : Who) (x k : Nat) (s : State), Running s → FullView w → Granted s w → x < 32 → k < 7 →
    ∃ t, exec (.stallClr w x k) s = .next t ∧ rg t .satStallLo (stallIx x k) = 0 ∧ rg t .satStallHi (stallIx x k) = 0 ∧
      RegsKept [(.satStallLo, stallIx x k), (.satStallHi, stallIx x k)] s t) ∧
  (∀ (w : Who) (x : Nat) (s : State), Running s → FullView w → Granted s w → x < 32 →
    ∃ t, exec (.stallClrAll w x) s = .next t ∧
      (∀ k, k < 7 → rg t .satStallLo (stallIx x k) = 0 ∧ rg t .satStallHi (stallIx x k) = 0) ∧
      (∀ id i, i < 1048576 → id ≠ .satStallLo → id ≠ .satStallHi → rg t id i = rg s id i)) ∧
  (∀ (w : Who) (x start task : Nat) (s : State), Running s → s.safe = false → bitOf (rg s .cfgStat) 6 = false → FullView w → Granted s w →
    x < 32 → start < 16384 → task < 1024 →
    ((s.agent x).queue.length < 4 → ∃ t l, exec (.fsLaunch w x start task) s = .next t ∧
      (t.agent x).queue = (s.agent x).queue ++ [l] ∧ l.start = start ∧ l.task = task ∧ RegsKept [] s t) ∧
    (4 ≤ (s.agent x).queue.length → ∃ t, exec (.fsLaunch w x start task) s = .next t ∧
      (t.agent x).queue = (s.agent x).queue ∧ rf t .fsStat x 15 8 = min 255 (rf s .fsStat x 15 8 + 1) ∧
      bitOf (rg t .fuStat (64 + x % 16)) 11 = true))

/-- A fill sequencer issues the run of stripes that can take its lanes, each to land at edge n+16; a fill that lands without an
uncorrectable word fills its slot and completes its piece; a hop fills its slot in its member; a record read again waits no
more. -/
def Obligations.FillsIssueAndLand : Prop :=
  (∀ (x : Nat) (c : FillCand) (s : State), Within s → sampling s = true → groupUp s (groupOf x) = true →
    ((s.rdDir x).beats.any fun b => decide (b.at_ = s.run)) = false → (fillCands s x).head? = some c → candFails s c = none →
    ∃ t, exec (.fillIssue x) s = .next t ∧
      (t.sat x).fills.length = (s.sat x).fills.length + (fillRun s x (fillCands s x)).length ∧
      t.rdLanes.length = s.rdLanes.length + (fillRun s x (fillCands s x)).length ∧
      (∀ f ∈ (t.sat x).fills, f ∈ (s.sat x).fills ∨ f.due = s.run + 16) ∧ RegsKept [] s t) ∧
  (∀ (x : Nat) (f : Fill) (l : RdLane) (p : Piece) (s : State), Within s → heldEdge s = false →
    (s.sat x).fills.filter (fun f => decide (f.due ≤ s.run)) = [f] → fillLane s x f.id = some l →
    inReset s (rstPg (groupOf x)) = false → f.esc = none → s.piece f.sq = some p → laneUe l = false → f.slot < 1024 →
    ∃ t, exec (.fillLand x) s = .next t ∧ (t.sat x).filled f.half f.slot = true ∧ t.piece p.sq = none ∧
      (∀ g ∈ (t.sat x).fills, g.id ≠ f.id) ∧ l ∉ t.rdLanes) ∧
  (∀ (x : Nat) (h : Hop) (s : State), Within s → heldEdge s = false → h ∈ s.hops → h.x = x → h.due ≤ s.run → h.slot < 1024 →
    inReset s (rstPg (groupOf x)) = false → (s.sat x).deaf = false →
    ∃ t, exec (.caravanHop x) s = .next t ∧ (∀ k ∈ t.hops, k.x = x → s.run < k.due) ∧
      (t.sat x).filled (s.sat x).back h.slot = true) ∧
  (∀ (x : Nat) (s : State), Within s →
    ∃ t, exec (.escapeRetry x) s = .next t ∧ (t.sat x).jobs.length = (s.sat x).jobs.length ∧
      (∀ j ∈ (t.sat x).jobs, ∀ d, j.due = some d → s.clk < d) ∧ RegsKept [(.chgRRetry, x)] s t)

/-! ### Itineraries -/

/-- The store grants one fetch at a time, to the next agent in turn; it then copies eight words a step, and the words up to END
make the context's buffer; a fetch that finds no END or an uncorrectable word aborts its task. -/
def Obligations.FetchesAreGrantedAndServed : Prop :=
  (∀ (a : Nat) (l : Launch) (s : State), Within s → (s.agent a).fetch = none → fetchNext s a = some l → fetching s = none →
    nextFetcher s = some a →
    ∃ t, exec (.itineraryFetch a) s = .next t ∧ (t.agent a).fetch = some ⟨if (s.ctx a 0).live then 1 else 0, l, runPass s a l, []⟩ ∧
      (t.agent a).queue = (s.agent a).queue ∧ t.ctxs = s.ctxs ∧ RegsKept [(.itinFetchMaxwait, 0)] s t) ∧
  (∀ (a : Nat) (f : Fetching) (s s1 : State) (ws : List Word), Within s → (s.agent a).fetch = some f →
    fetchWords s 8 (f.l.start + f.words.length) f.words = (s1, ws, .more) →
    ∃ t, exec (.itineraryFetch a) s = .next t ∧ (t.agent a).fetch = some { f with words := ws } ∧ t.ctxs = s.ctxs ∧
      RegsKept [(.itinEcc, 0), (.itinEccLast, 0)] s t) ∧
  (∀ (a : Nat) (f : Fetching) (s s1 : State) (ws : List Word), Within s → (s.agent a).fetch = some f →
    fetchWords s 8 (f.l.start + f.words.length) f.words = (s1, ws, .whole) →
    ∃ t, exec (.itineraryFetch a) s = .next t ∧ (t.agent a).fetch = none ∧ (t.ctx a f.k).buf = ws ∧
      (t.ctx a f.k).start = f.l.start ∧ (t.ctx a f.k).task = f.l.task ∧ (t.ctx a f.k).pass = f.pass ∧
      RegsKept [(.itinFetches, 0), (.itinEcc, 0), (.itinEccLast, 0)] s t) ∧
  (∀ (a : Nat) (f : Fetching) (s s1 : State) (ws : List Word) (e : FetchEnd), Within s → (s.agent a).fetch = some f →
    fetchWords s 8 (f.l.start + f.words.length) f.words = (s1, ws, e) → (e = .length ∨ ∃ i, e = .ue i) →
    ∃ t, exec (.itineraryFetch a) s = .next t ∧ (t.agent a).fetch = none ∧ (t.agent a).bad = true ∧
      aborting t f.l.task = true ∧ t.ctxs = s.ctxs)

/-- SETA, ADDA, MODA and CPYA change one address register of their context, as their forms say, and move to the next
instruction in the following BCLK; their illegal forms fault. -/
def Obligations.AddressInstructions : Prop :=
  ∀ (a k : Nat) (w : Word) (s : State), Within s → mayDecode s a k w = true → executes (s.ctx a k) w = true →
    let c := s.ctx a k
    let r := c.reg (fld w 23 21)
    let gives := fun (i : Instr) (q : AReg) => ∃ t, exec i s = .next t ∧
      CtxStep a k { c.setReg (fld w 23 21) q with pc := c.pc + 1, at_ := s.clk + 1 } s t
    (fld w 31 28 = 1 → fld w 20 19 = 0 →
      gives (.setaLo a k w) { r with addr := r.addr / 2 ^ 19 * 2 ^ 19 + fld w 18 0, kept := none }) ∧
    (fld w 31 28 = 1 → fld w 20 19 = 1 →
      gives (.setaHi a k w)
        { r with addr := r.addr / 2 ^ 38 * 2 ^ 38 + fld w 18 0 * 2 ^ 19 + r.addr % 2 ^ 19, kept := none }) ∧
    (fld w 31 28 = 1 → fld w 20 19 = 2 → fld w 6 4 < 6 →
      gives (.setaTop a k w)
        { r with addr := fld w 3 0 * 2 ^ 38 + r.addr % 2 ^ 38, space := fld w 6 4, tag := fld w 18 7, kept := none }) ∧
    (fld w 31 28 = 2 → gives (.adda a k w) { r with addr := advance r (sext 21 (fld w 20 0)), kept := none }) ∧
    (fld w 31 28 = 3 → fld w 20 6 = 0 →
      gives (.moda a k w)
        { r with modl := if fld w 5 0 = 0 ∨ 48 ≤ fld w 5 0 then 0 else max 6 (fld w 5 0), kept := none }) ∧
    (fld w 31 28 = 15 → fld w 17 0 = 0 → gives (.cpya a k w) { c.reg (fld w 20 18) with kept := none }) ∧
    (∀ i : Instr,
      ((i = .setaTop a k w ∧ fld w 31 28 = 1 ∧ (fld w 20 19 = 3 ∨ (fld w 20 19 = 2 ∧ 6 ≤ fld w 6 4))) ∨
        (i = .moda a k w ∧ fld w 31 28 = 3 ∧ fld w 20 6 ≠ 0) ∨ (i = .cpya a k w ∧ fld w 31 28 = 15 ∧ fld w 17 0 ≠ 0)) →
      ∃ t, exec i s = .next t ∧ (t.ctx a k).hold = .fault ∧ aborting t c.task = true ∧
        bitOf (rg t .fuStat (agentFu a)) (itinBit a false) = true)

/-- LOOP opens its counter, ENDL closes it after its last turn, or at once when its predicate does not hold, or goes back; TEST
sets a flag by the index of an open counter and faults on a closed one; the others whose predicate does not hold do nothing
but move on. -/
def Obligations.LoopsAndPredicates : Prop :=
  ∀ (a k : Nat) (w : Word) (s : State), Within s → mayDecode s a k w = true →
    let c := s.ctx a k
    let i := fld w 23 21
    let n := if fld w 15 0 = 0 then 65536 else fld w 15 0
    let l := c.loopC (fld w 21 19)
    let gives := fun (j : Instr) (d : Ctx) => ∃ t, exec j s = .next t ∧ CtxStep a k { d with at_ := s.clk + 1 } s t
    (executes c w = true → fld w 31 28 = 4 → fld w 20 16 = 0 → i < 6 → (c.loopC i).isOpen = false →
      gives (.loop a k w) { c.setLoop i ⟨true, n, n, c.pc + 1⟩ with nest := i :: c.nest, pc := c.pc + 1 }) ∧
    (executes c w = true → fld w 31 28 = 5 → fld w 20 0 = 0 → i < 6 → c.nest.head? = some i → (c.loopC i).rem ≤ 1 →
      gives (.endl a k w) { c.setLoop i freshLoop with nest := c.nest.tail, pc := c.pc + 1 }) ∧
    (executes c w = true → fld w 31 28 = 5 → fld w 20 0 = 0 → i < 6 → c.nest.head? = some i → 1 < (c.loopC i).rem →
      gives (.endl a k w)
        { c.setLoop i { c.loopC i with rem := (c.loopC i).rem - 1 } with pc := (c.loopC i).start }) ∧
    (executes c w = true → fld w 31 28 = 6 → bitOf w 16 = false → fld w 21 19 < 6 → l.isOpen = true →
      gives (.test a k w) { c with
        flags := c.flags.set (fld w 23 22)
          (match fld w 18 17 with
           | 0 => decide (l.init - l.rem = fld w 15 0)
           | 1 => decide (l.init - l.rem ≠ fld w 15 0)
           | 2 => decide (l.init - l.rem < fld w 15 0)
           | _ => decide (fld w 15 0 ≤ l.init - l.rem)),
        pc := c.pc + 1 }) ∧
    (executes c w = true → fld w 31 28 = 6 → bitOf w 16 = false → fld w 21 19 < 6 → l.isOpen = false →
      ∃ t, exec (.test a k w) s = .next t ∧ (t.ctx a k).hold = .fault ∧ aborting t c.task = true ∧
        bitOf (rg t .fuStat (agentFu a)) (itinBit a false) = true) ∧
    (executes c w = false →
      (fld w 31 28 = 5 → fld w 20 0 = 0 → i < 6 → c.nest.head? = some i →
        gives (.endl a k w) { c.setLoop i freshLoop with nest := c.nest.tail, pc := c.pc + 1 }) ∧
      (fld w 31 28 = 6 → bitOf w 16 = false → fld w 21 19 < 6 → gives (.test a k w) { c with pc := c.pc + 1 }) ∧
      (fld w 31 28 = 2 → gives (.adda a k w) { c with pc := c.pc + 1 }) ∧
      (fld w 31 28 = 8 → bellForm w c = true → gives (.wait a k w) { c with pc := c.pc + 1 }) ∧
      (fld w 31 28 = 9 → bellForm w c = true → gives (.ring a k w) { c with pc := c.pc + 1 }) ∧
      (fld w 31 28 = 14 → fld w 23 0 = 0 → gives (.hand a k w) { c with pc := c.pc + 1 }))

/-- A MOVE that stands, is legal, has room and needs no lookup generates its next piece: as long as both sides allow, from the
present addresses; PIECE_GENERATE does the same for the MOVE under way. -/
def Obligations.MovesGeneratePieces : Prop :=
  ∀ (a k dst src rem : Nat) (w : Word) (s : State) (pa da : Nat) (i : Instr), Within s → decoderFree s a = true →
    let c := s.ctx a k
    let r := c.reg src
    let d := c.reg dst
    let n := pieceLen r d rem
    ((i = .move a k w ∧ moveStands s a k w = true ∧ dst = fld w 23 21 ∧ src = fld w 20 18 ∧
        rem = (if fld w 15 0 = 0 then 65536 else fld w 15 0) ∧ legalMove a r.space d.space = true ∧ misplaced r d = false) ∨
      (i = .pieceGenerate a k ∧ c.live = true ∧ agentUp s a = true ∧ c.at_ ≤ s.clk ∧ c.hold = .move dst src rem)) →
    pieceRoom s a r d = true → rateLeft s a = true → sideFault s a c.task r n = none → sideFault s a c.task d n = none →
    pspace r = some pa → pspace d = some da →
    ∃ t, exec i s = .next t ∧
      (∃ p ∈ t.pieces, p.sq = s.nextSq ∧ p.agent = a ∧ p.ctx = k ∧ p.task = c.task ∧ p.src = ⟨r.space, r.addr, r.tag⟩ ∧
        p.dst = ⟨d.space, d.addr, d.tag⟩ ∧ p.srcP = pa ∧ p.dstP = da ∧ p.cnt = n ∧ p.rd = .waiting ∧ p.wr = .waiting) ∧
      (16 ≤ a → (t.ctx a k).hold = (if rem = n then .none else .move dst src (rem - n)) ∧
        (t.ctx a k).pc = (if rem = n then c.pc + 1 else c.pc))

/-- RING submits its tokens, WAIT holds its context for them; FENCE and SWAP hold it, FENCE until the pieces it names are
complete; FMT, TALY, HAND and END act at once, and the run ends with its last piece. -/
def Obligations.RunsSynchroniseAndEnd : Prop :=
  (∀ (a k : Nat) (w : Word) (s : State), Within s → mayDecode s a k w = true → executes (s.ctx a k) w = true →
    let c := s.ctx a k
    let next : Ctx := { c with pc := c.pc + 1, at_ := s.clk + 1 }
    (fld w 31 28 = 9 → bellForm w c = true → ∃ t, exec (.ring a k w) s = .next t ∧ CtxStep a k next s t ∧
      t.bellOps = s.bellOps ++ [⟨.ring, 2 * fld w 9 0 + fld w 10 10, a, itinScope c.pass (fld w 12 11), fld w 20 13, none,
        some c.task, some ((s.clk / 4 + 2) * 4), [], none⟩]) ∧
    (fld w 31 28 = 8 → bellForm w c = true → ∃ t, exec (.wait a k w) s = .next t ∧
      CtxStep a k { c with hold := .wait } s t ∧ t.bells = s.bells ∧ t.bellOps.length = s.bellOps.length + 1 ∧
      (∃ o ∈ t.bellOps, o.kind = .wait ∧ o.bell = 2 * fld w 9 0 + fld w 10 10 ∧ o.n = fld w 20 13 ∧ o.ctx = some (a, k) ∧
        o.scope = itinScope c.pass (fld w 12 11))) ∧
    (fld w 31 28 = 10 → fld w 23 13 = 0 → fld w 10 2 = 0 →
      (fenceOpen s a k (bitOf w 0) (bitOf w 1) s.nextSq = true → ∃ t, exec (.fence a k w) s = .next t ∧
        CtxStep a k { c with hold := .fence (bitOf w 0) (bitOf w 1) s.nextSq } s t) ∧
      (fenceOpen s a k (bitOf w 0) (bitOf w 1) s.nextSq = false → ∃ t, exec (.fence a k w) s = .next t ∧
        CtxStep a k { next with hold := .none } s t)) ∧
    (fld w 31 28 = 11 → fld w 23 0 = 0 → isChan a = false → ∃ t, exec (.swap a k w) s = .next t ∧
      CtxStep a k { c with hold := .swap s.nextSq } s t) ∧
    (fld w 31 28 = 12 → fld w 23 3 = 0 → isChan a = false → ∃ t, exec (.fmt a k w) s = .next t ∧
      CtxStep a k { next with prof := fld w 2 0 } s t) ∧
    (fld w 31 28 = 13 → fld w 23 19 = 0 → isChan a = false → ∃ t, exec (.taly a k w) s = .next t ∧ CtxStep a k next s t ∧
      (t.tally a).set = ⟨bitOf w 0, fld w 8 1, fld w 18 9, c.task⟩ ∧ (t.tally a).setAt = s.clk) ∧
    (fld w 31 28 = 14 → fld w 23 0 = 0 → ∃ t, exec (.hand a k w) s = .next t ∧ (t.ctx a k).handed = true ∧
      (t.ctx a k).pc = c.pc + 1 ∧
      (k < 2 → c.loaded = false → (s.ctx a (1 - k)).loaded = true → abortFired s (s.ctx a (1 - k)).task = false →
        (t.ctx a (1 - k)).live = true ∧ (t.ctx a (1 - k)).behind = true)) ∧
    (fld w 31 28 = 0 → fld w 23 0 = 0 →
      (runPieces s a k ≠ [] ∨ c.lostWr = true →
        ∃ t, exec (.end_ a k w) s = .next t ∧ CtxStep a k { c with ended := true } s t) ∧
      (runPieces s a k = [] → c.lostWr = false →
        ∃ t, exec (.end_ a k w) s = .next t ∧ t.ctx a k = idleCtx ∧ RegsKept [] s t))) ∧
  (∀ (a k before : Nat) (rd wr : Bool) (s : State), Within s → (s.ctx a k).live = true →
    (s.ctx a k).hold = .fence rd wr before → fenceOpen s a k rd wr before = false →
    ∃ t, exec (.fenceComplete a k) s = .next t ∧
      CtxStep a k { s.ctx a k with hold := .none, pc := (s.ctx a k).pc + 1, at_ := s.clk + 1 } s t) ∧
  (∀ (a k : Nat) (s : State), Within s → runOver s a k = true → k < 2 →
    ∃ t, exec (.runEnd a k) s = .next t ∧ t.ctx a k = idleCtx ∧
      ((s.ctx a (1 - k)).live = true → (t.ctx a (1 - k)).behind = false) ∧ RegsKept [] s t)

/-! ### Porters, far traffic, aborts -/

/-- A porter's read half goes out as an AXI burst, a tally export, a lane it owns or an entry of its queue, by its source
side; its data completes it. Write halves go out the same way, an atomic one element by element, or as a packet to a link; the last
answer ends the piece. A check that fails, an uncorrectable word and a failing response abort the task. -/
def Obligations.PortersMovePieces : Prop :=
  (∀ (p k : Nat) (q : Piece) (s : State), Within s → porterUp s p = true → doneNow s (lastRead p) = false →
    (robin 16 (ptr s (ptrRead p)) fun j => (readReady s (chanAgent p j)).isSome) = some k →
    readReady s (chanAgent p k) = some q →
    let c := readCheck s q
    let accs := c.grans.map Prod.snd
    (q.src.space = 2 → ∃ t b, exec (.pieceReadHalf p) s = .next t ∧ t.bursts = s.bursts ++ [b] ∧ b.porter = p ∧
      b.write = false ∧ b.addr = q.src.addr * 64 ∧ b.iface = b.addr / 512 % 4 ∧ b.sq = q.sq ∧ b.size = 7 ∧
      b.beats = beatsOf b.addr q.cnt ∧ RegsKept [] s t) ∧
    (q.src.space = 5 → ∃ t, exec (.pieceReadHalf p) s = .next t ∧ t.exports = s.exports ++ [⟨q.src.tag, q.sq, none, []⟩] ∧
      RegsKept [] s t) ∧
    (q.src.space < 2 → c.st = 0 → slottedHalf s p .rd c = true → ∃ t, exec (.pieceReadHalf p) s = .next t ∧
      t.rdLanes = s.rdLanes ++ [newLane c.col (.piece q.sq) (masterPorter p) accs (s.run + 7) (s.run + 16)] ∧ RegsKept [] s t) ∧
    (q.src.space < 2 → c.st = 0 → slottedHalf s p .rd c = false → ∃ t e, exec (.pieceReadHalf p) s = .next t ∧
      (t.queue (queueKey c.col .rd p)).entries = (s.queue (queueKey c.col .rd p)).entries ++ [e] ∧ e.use = .piece q.sq ∧
      e.accs = accs ∧ e.at_ = s.run + 3 ∧ t.rdLanes = s.rdLanes ∧ RegsKept [] s t) ∧
    (q.src.space < 2 → c.st ≠ 0 → ∃ t, exec (.pieceReadHalf p) s = .next t ∧ t.piece q.sq = none ∧
      aborting t q.task = true ∧ t.rdLanes = s.rdLanes ∧ t.queues = s.queues)) ∧
  (∀ (a : Nat) (q : Piece) (l : RdLane) (s : State), Within s → isChan a = true → s.piece q.sq = some q → q.agent = a →
    pieceLane s q.sq = some l →
    (laneUe l = false → q.dead = false → ∃ t, exec (.pieceReadComplete a q.sq) s = .next t ∧ l ∉ t.rdLanes ∧
      t.piece q.sq = some { q with rd := .complete, data := readRows q l }) ∧
    (laneUe l = false → q.dead = true → ∃ t, exec (.pieceReadComplete a q.sq) s = .next t ∧ l ∉ t.rdLanes ∧
      t.piece q.sq = none) ∧
    (laneUe l = true → ∃ t, exec (.pieceReadComplete a q.sq) s = .next t ∧ l ∉ t.rdLanes ∧ aborting t q.task = true)) ∧
  (∀ (a i : Nat) (q : Piece) (f : Fill) (l : RdLane) (s : State), Within s → isChan a = false → s.piece q.sq = some q → q.agent = a →
    q.rd = .presented → l ∈ s.rdLanes → l.use = .fill a i → f ∈ (s.sat a).fills → f.id = i → f.sq = q.sq → l.due ≤ s.run →
    l.got.isSome = true →
    ∃ t, exec (.pieceReadComplete a q.sq) s = .next t ∧ t.piece q.sq = some { q with rd := .complete } ∧ t.sats = s.sats ∧
      t.rdLanes = s.rdLanes) ∧
  (∀ (a d : Nat) (q : Piece) (e : TallyExport) (s : State), Within s → isChan a = true → s.piece q.sq = some q → q.agent = a →
    q.dead = false → pieceLane s q.sq = none → (s.exports.find? fun e => e.sq == q.sq) = some e → e.due = some d → d ≤ s.clk →
    ∃ t, exec (.pieceReadComplete a q.sq) s = .next t ∧ t.piece q.sq = some { q with rd := .complete, data := e.data } ∧
      (∀ f ∈ t.exports, f.sq ≠ q.sq) ∧ RegsKept [] s t) ∧
  (∀ (a loc ce ue : Nat) (q : Piece) (e : TallyExport) (ws : List Word) (s : State), Within s → q.agent = a →
    s.piece q.sq = some q → (s.exports.find? fun f => f.sq == q.sq && f.due.isNone) = some e →
    doneNow s (lastTallyV e.x) = false → doneNow s (lastTallyP e.x) = false →
    readTally s ((List.range (q.cnt * 16)).map fun j => tallyWord e.x (q.src.addr * 2 + j / 8) (j % 8)) = (ws, ce, ue, loc) →
    (bitOf (rg s .tallyCtrl e.x) 0 = true → ue = 0 →
      ∃ t, exec (.tallyExportRead a q.sq) s = .next t ∧ RegsKept [(.tallyEcc, e.x)] s t ∧
        ∃ f ∈ t.exports, f.sq = q.sq ∧ f.due = some (s.clk + 4) ∧ f.data = wordsToRows q.cnt ws) ∧
    (bitOf (rg s .tallyCtrl e.x) 0 = false ∨ ue ≠ 0 →
      ∃ t, exec (.tallyExportRead a q.sq) s = .next t ∧ t.piece q.sq = none ∧ aborting t q.task = true ∧
        ∀ f ∈ t.exports, f.sq ≠ q.sq)) ∧
  (∀ (p id : Nat) (r : AxiResp) (data : List Row) (last : Bool) (b : Burst) (s : State), Within s →
    (s.bursts.find? fun b => b.porter == p && b.id == id && !b.write) = some b →
    (respBad s p r = false → ∀ q, last = true ∨ b.beats = 1 → s.piece b.sq = some q → q.dead = false →
      ∃ t, exec (.axiReadData p id r data last) s = .next t ∧ b ∉ t.bursts ∧
        t.piece b.sq = some { q with rd := .complete, data := farRows q (b.data ++ data) } ∧ RegsKept [] s t) ∧
    (respBad s p r = false → last = false → 1 < b.beats → ∃ t, exec (.axiReadData p id r data last) s = .next t ∧
      { b with data := b.data ++ data, beats := b.beats - 1 } ∈ t.bursts ∧ t.pieces = s.pieces ∧ RegsKept [] s t) ∧
    (respBad s p r = true → ∀ q, s.piece b.sq = some q →
      ∃ t, exec (.axiReadData p id r data last) s = .next t ∧ aborting t q.task = true ∧
        (last = true ∨ b.beats = 1 → b ∉ t.bursts ∧ t.piece b.sq = none))) ∧
  (∀ (p k : Nat) (q : Piece) (s : State), Within s → porterOn s p = true → doneNow s (lastWrite p) = false →
    let u := (List.range 16).foldl (fun s j => gather s (chanAgent p j)) s
    (robin 16 (ptr u (ptrWrite p)) fun j => (writeReady u (chanAgent p j)).isSome) = some k →
    writeReady u (chanAgent p k) = some q →
    let c := writeCheck s q
    let accs := c.grans.map Prod.snd
    let bad := fun (r : Piece) =>
      r.src.space != 5 && (checkWide s (.linkRead (passPriv r.pass)) false false r.srcP r.cnt).st != 0
    (q.dst.space = 2 → q.atop = 0 → ∃ t b, exec (.pieceWriteHalf p) s = .next t ∧ t.bursts = s.bursts ++ [b] ∧
      b.porter = p ∧ b.write = true ∧ b.addr = q.dst.addr * 64 ∧ b.sq = q.sq ∧ b.data = q.data ∧ b.atop = 0 ∧
      b.beats = beatsOf b.addr q.cnt ∧ RegsKept [] s t) ∧
    (q.dst.space = 2 → q.atop ≠ 0 →
      let w := if q.aew then 8 else 4
      let i := if q.wr = .waiting then 0 else q.cnt * 64 / w - q.left
      ∃ t b, exec (.pieceWriteHalf p) s = .next t ∧ t.bursts = s.bursts ++ [b] ∧ b.porter = p ∧ b.write = true ∧
        b.addr = q.dst.addr * 64 + i * w ∧ b.beats = 1 ∧ b.size = (if q.aew then 3 else 2) ∧ b.atop = atopCode q.atop ∧
        b.sq = q.sq ∧ RegsKept [] s t ∧ ∃ r, t.piece q.sq = some r ∧ r.left = q.cnt * 64 / w - i - 1 ∧ r.owed = q.owed + 1) ∧
    (q.dst.space < 2 → c.st = 0 → slottedHalf s p .wr c = true → ∃ t, exec (.pieceWriteHalf p) s = .next t ∧
      t.wrLanes = s.wrLanes ++ [⟨c.col, .piece q.sq, masterPorter p, accs, writeData q c, s.run + 8, none⟩] ∧ RegsKept [] s t) ∧
    (q.dst.space < 2 → c.st = 0 → slottedHalf s p .wr c = false → ∃ t e, exec (.pieceWriteHalf p) s = .next t ∧
      (t.queue (queueKey c.col .wr p)).entries = (s.queue (queueKey c.col .wr p)).entries ++ [e] ∧ e.use = .piece q.sq ∧
      e.accs = accs ∧ e.data = writeData q c ∧ t.wrLanes = s.wrLanes ∧ RegsKept [] s t) ∧
    (q.dst.space < 2 → c.st ≠ 0 → ∃ t, exec (.pieceWriteHalf p) s = .next t ∧ t.piece q.sq = none ∧
      aborting t q.task = true ∧ t.wrLanes = s.wrLanes ∧ t.queues = s.queues) ∧
    (q.dst.space = 4 → ∀ l, packetOf u q = some l →
      (l.find? bad = none → ∃ t o, exec (.pieceWriteHalf p) s = .next t ∧
        (t.link (rf s .winMap q.dst.tag 7 6)).outQ = (s.link (rf s .winMap q.dst.tag 7 6)).outQ ++ [o] ∧ o.hdr.type = 1 ∧
        o.hdr.window = q.dst.tag ∧ o.sqs = l.map Piece.sq ∧ o.hdrSent = false ∧ RegsKept [] s t) ∧
      (∀ r, l.find? bad = some r → ∃ t, exec (.pieceWriteHalf p) s = .next t ∧ aborting t r.task = true ∧
        (∀ x ∈ l, t.piece x.sq = none) ∧ t.links = s.links))) ∧
  (∀ (p id : Nat) (r : AxiResp) (b : Burst) (q : Piece) (s : State), Within s →
    (s.bursts.find? fun b => b.porter == p && b.id == id && b.write) = some b → s.piece b.sq = some q →
    (respBad s p r = false → ∃ t, exec (.axiWriteResponse p id r) s = .next t ∧ b ∉ t.bursts ∧ RegsKept [] s t ∧
      (q.owed ≤ 1 → q.left = 0 → t.piece b.sq = none) ∧
      (1 < q.owed → t.piece b.sq = some { q with owed := q.owed - 1 })) ∧
    (respBad s p r = true → ∃ t, exec (.axiWriteResponse p id r) s = .next t ∧ b ∉ t.bursts ∧ aborting t q.task = true))

/-- ARM makes the staged descriptor active, puts it in the shadow, or refuses it; CRDRET returns credits up to CRD_INIT, or finds an
uncorrectable counter; SPLIT and FCH.SEL take only writes that R246 and R259 allow; a far channel's hold follows its input from the
following edge on. -/
def Obligations.ChannelRegistersAct : Prop :=
  (∀ (w : Who) (p k : Nat) (s : State), Running s → s.safe = false → bitOf (rg s .cfgStat) 6 = false → FullView w → Granted s w →
    p < 16 → k < 16 →
    let i := 16 * p + k
    let a := chanAgent p k
    let d0 := rg s .porterChDesc0 i
    let d1 := rg s .porterChDesc1 i
    let d3 := rg s .porterChDesc3 i
    let l : Launch := ⟨fld d0 13 0, fld d1 9 0, d0, d1, rg s .porterChDesc2 i, d3⟩
    let bad := 4 ≤ fld d0 18 16 ∨ (bitOf d0 22 = true ∧ fld d3 21 0 = 0)
    let idle := (s.agent a).act = none ∧ liveCtxs s a = []
    (bad → ∃ t, exec (.arm w p k) s = .next t ∧ rf t .porterChStat i 5 4 = 3 ∧ t.agents = s.agents ∧
      RegsKept [(.porterChStat, i)] s t) ∧
    (¬bad → idle → ∃ t, exec (.arm w p k) s = .next t ∧ rf t .porterChStat i 5 4 = 0 ∧ (t.agent a).act = some l ∧
      (t.agent a).todo = true ∧ RegsKept [(.porterChStat, i)] s t ∧
      (t.agent a).credit = (if (s.agent a).keep = none ∨ bitOf d0 21 = false then fld d1 27 16 else (s.agent a).credit)) ∧
    (¬bad → ¬idle → (s.agent a).queue = [] → ∃ t, exec (.arm w p k) s = .next t ∧ rf t .porterChStat i 5 4 = 1 ∧
      (t.agent a).queue = [l] ∧ (t.agent a).act = (s.agent a).act ∧ RegsKept [(.porterChStat, i)] s t) ∧
    (¬bad → ¬idle → (s.agent a).queue ≠ [] → ∃ t, exec (.arm w p k) s = .next t ∧ rf t .porterChStat i 5 4 = 2 ∧
      t.agents = s.agents ∧ rf t .porterOvf p 15 0 = min 65535 (rf s .porterOvf p 15 0 + 1) ∧
      bitOf (rg t .fuStat 80) 9 = true)) ∧
  (∀ (w : Who) (p k n : Nat) (s : State), Running s → FullView w → Granted s w →
    p < 16 → k < 16 → n < 4096 → s.safe = false →
    let v := s.agent (chanAgent p k)
    let ue := creditUe s (agentLoc (chanAgent p k))
    ∃ t, exec (.crdret w p k n) s = .next t ∧ t.ctxs = s.ctxs ∧
      (n = 0 ∨ ue = false →
        (t.agent (chanAgent p k)).credit = (if v.credit + n ≤ crdInit v then v.credit + n else max v.credit (crdInit v))) ∧
      (n ≠ 0 → ue = true → (t.agent (chanAgent p k)).credit = v.credit ∧ bitOf (rg t .fuStat 80) 3 = true)) ∧
  (∀ (w : Who) (p : Nat) (v : Word) (s : State), Running s → FullView w → Granted s w → p < 16 →
    ∃ t, exec (.splitWrite w p v) s = .next t ∧ RegsKept [(.porterSplit, p)] s t ∧
      rg t .porterSplit p = (if fld v 4 0 + fld v 12 8 + fld v 20 16 = 16 then v &&& RegId.porterSplit.row.rw
        else rg s .porterSplit p)) ∧
  (∀ (w : Who) (v : Word) (s : State), Running s → FullView w → Granted s w →
    ∃ t, exec (.fchSelWrite w v) s = .next t ∧ RegsKept [(.fchSel, 0), (.fchStat, 0)] s t ∧
      rg t .fchSel = (if anyChanBusy s then rg s .fchSel else v &&& RegId.fchSel.row.rw) ∧
      rf t .fchStat 0 0 0 = (if anyChanBusy s then 1 else 0)) ∧
  (∀ (mask : BitVec 64) (s : State), Within s →
    ∃ t, exec (.farChannelHold mask) s = .next t ∧ RegsKept [(.fchHoldLo, 0), (.fchHoldHi, 0)] s t ∧
      rg t .fchHoldLo = mask.setWidth 32 ∧ rg t .fchHoldHi = (mask >>> 32).setWidth 32 ∧
      (∀ c, c < 64 → farHeld t c = farHeld s c ∧ farHeld { t with clk := s.clk + 1 } c = mask.getLsbD c ∧
        (mask.getLsbD c = true → farHeld s c = true →
          (Tab.get (fun _ => noHold) t.farHold c).from_ = (Tab.get (fun _ => noHold) s.farHold c).from_))) ∧
  (∀ (c : Nat) (h : FarHold) (s : State), Within s → Tab.get (fun _ => noHold) s.farHold c = h → farHeld s c = true →
    h.told = false → rf s .fchHoldLim 0 15 0 ≠ 0 → rf s .fchHoldLim 0 15 0 * 1024 * 12 < s.clk - h.from_ →
    ∃ t, exec (.farHoldLimit c) s = .next t ∧ bitOf (rg t .fuStat 80) 13 = true ∧
      Tab.get (fun _ => noHold) t.farHold c = { h with told := true })

/-- A software abort of a running task is detected at its edge; two edges later the abort takes effect: no run and no piece
not yet presented of the task is left, the lowest free record is filled; it is done once nothing of the task is open. -/
def Obligations.TasksAbort : Prop :=
  (∀ (w : Who) (task : Nat) (s : State), Running s → s.safe = false → FullView w → Granted s w → task < 1024 →
    (aborting s task = false → ((busyAgents s).any fun a => agentHas s a task) = true →
      ∃ t b, exec (.softwareAbort w task) s = .next t ∧ t.aborts = s.aborts ++ [b] ∧ b.task = task ∧ b.cause = 0x11 ∧
        b.agent = 511 ∧ b.fired = false ∧ b.at_ = s.clk ∧ RegsKept [] s t) ∧
    (aborting s task = true ∨ ((busyAgents s).any fun a => agentHas s a task) = false →
      ∃ t, exec (.softwareAbort w task) s = .next t ∧ t.aborts = s.aborts ∧ RegsKept [] s t)) ∧
  (∀ (task : Nat) (b : Abort) (s : State), Within s → (s.aborts.find? fun b => b.task == task && !b.fired) = some b →
    b.at_ + 2 ≤ s.clk → task < 1024 → b.cause < 256 →
    ∃ t, exec (.taskAbort task) s = .next t ∧ (∀ c ∈ t.aborts, c.task = task → c.fired = true) ∧
      (∀ p ∈ t.pieces, p.task = task → p.rd ≠ .waiting ∨ p.wr ≠ .waiting) ∧
      (∀ a k, k < 2 → (t.ctx a k).live = true → (t.ctx a k).task ≠ task) ∧
      (∀ i, ((List.range 8).find? fun i => !bitOf (rg s .tabtRecInfo i) 0) = some i →
        bitOf (rg t .tabtRecInfo i) 0 = true ∧ bitOf (rg t .tabtRecInfo i) 1 = false ∧ rf t .tabtRecInfo i 25 16 = task ∧
        rf t .tabtRecInfo i 15 8 = b.cause ∧
        RegsKept [(.tabtRecInfo, i), (.tabtRecAgent, i), (.tabtRecDetail, i), (.tabtRecAddrLo, i), (.tabtRecAddrHi, i),
          (.tabtRecTime, i)] s t) ∧
      (((List.range 8).find? fun i => !bitOf (rg s .tabtRecInfo i) 0) = none →
        rf t .tabtStat 0 31 16 = min 65535 (rf s .tabtStat 0 31 16 + 1) ∧ RegsKept [(.tabtStat, 0)] s t)) ∧
  (∀ (task : Nat) (b : Abort) (s : State), Within s → (s.aborts.find? fun b => b.task == task) = some b →
    abortOver s b = true → (∀ i, b.recNo = some i → i < 8) →
    ∃ t, exec (.abortDone task) s = .next t ∧ t.aborts = s.aborts.filter (fun c => c.task != task) ∧
      t.intPulse = s.intPulse ||| BitVec.ofNat 512 (2 ^ 328) ∧
      (∀ i, b.recNo = some i → bitOf (rg t .tabtRecInfo i) 1 = true) ∧
      (∀ e ∈ s.bells, e.1 < 2048 → e.2.rung = true → e.2.task = some task →
        bitOf (rg t .tabtTaint (e.1 / 32)) (e.1 % 32) = true) ∧
      (s.safe = false → ∀ c ∈ b.chans, (∀ d ∈ b.chans, d.1 = c.1 → d.2 = c.2) → (t.agent c.1).credit = c.2)) ∧
  (∀ (w : Who) (i : Nat) (s : State), Running s → FullView w → Granted s w → i < 8 →
    ∃ t, exec (.abortRecordClear w i) s = .next t ∧ RegsKept [(.tabtRecInfo, i)] s t ∧
      rg t .tabtRecInfo i = (if bitOf (rg s .tabtRecInfo i) 1 then 0 else rg s .tabtRecInfo i))

/-! ### Page maps, Changers, Tally -/

/-- SWAP exchanges a slot's banks unless its inactive bank is pinned or an operation runs on it; COPY and CLEAR run for 512
and 64 MCLK and then have filled the inactive bank, with CMD_RESULT of the last command only; entries of the inactive bank are written through their window. -/
def Obligations.PageMapsChange : Prop :=
  (∀ (w : Who) (n : Nat) (s : State), Running s → s.safe = false → FullView w → Granted s w → n < 64 →
    let reports := fun (i : Instr) (c : Nat) => ∃ t, exec i s = .next t ∧ (rg t .pmapCmdResult).toNat = c + 256 * n ∧
      RegsKept [(.pmapCmdResult, 0)] s t ∧ t.pmapOp = s.pmapOp.map (fun o => { o with last := false }) ∧ t.pmaps = s.pmaps
    (pinsOld s n ≠ 0 → reports (.pmapSwap w n) 1 ∧ reports (.pmapCopy w n) 1 ∧ reports (.pmapClear w n) 1 ∧
      reports (.pmapOpReserved w n) 1) ∧
    (pinsOld s n = 0 →
      (pmapBusy s n = true → reports (.pmapSwap w n) 2) ∧
      (pmapBusy s n = false → ∃ t, exec (.pmapSwap w n) s = .next t ∧ epochOf t n = (epochOf s n + 1) % 65536 ∧
        activeBank t n = 1 - activeBank s n ∧ (rg t .pmapCmdResult).toNat = 256 * n ∧ t.pmaps = s.pmaps ∧
        RegsKept [(.pmapCmdResult, 0), (.pmapSlotStat, n)] s t) ∧
      (s.pmapOp ≠ none → reports (.pmapCopy w n) 2 ∧ reports (.pmapClear w n) 2) ∧
      (s.pmapOp = none →
        (∃ t, exec (.pmapCopy w n) s = .next t ∧ t.pmapOp = some ⟨true, n, s.clk + 2048, true⟩ ∧
          (rg t .pmapCmdResult).toNat = 4 + 256 * n ∧ RegsKept [(.pmapCmdResult, 0)] s t) ∧
        (∃ t, exec (.pmapClear w n) s = .next t ∧ t.pmapOp = some ⟨false, n, s.clk + 256, true⟩ ∧
          (rg t .pmapCmdResult).toNat = 4 + 256 * n ∧ RegsKept [(.pmapCmdResult, 0)] s t)) ∧
      reports (.pmapOpReserved w n) 3)) ∧
  (∀ (o : PmapOp) (s : State), Within s → s.pmapOp = some o → o.done ≤ s.clk → s.pmapHeld = [] → o.slot < 64 →
    let b := activeBank s o.slot
    ∃ t, exec .pmapOpDone s = .next t ∧ t.pmapOp = none ∧ RegsKept [(.pmapCmdResult, 0)] s t ∧
      (o.last = true → (rg t .pmapCmdResult).toNat = 256 * o.slot) ∧ (o.last = false → RegsKept [] s t) ∧
      (∀ i, i < 4096 → (o.copy = false → loadWord t .pmap (pmapIx o.slot (1 - b) i) = ⟨0, false, false⟩) ∧
        (o.copy = true → (loadWord s .pmap (pmapIx o.slot b i)).ue = false →
          loadWord t .pmap (pmapIx o.slot (1 - b) i) = ⟨(loadWord s .pmap (pmapIx o.slot b i)).data, false, false⟩)) ∧
      (∀ n c i, n < 64 → c < 2 → i < 4096 → (n, c) ≠ (o.slot, 1 - b) →
        loadWord t .pmap (pmapIx n c i) = loadWord s .pmap (pmapIx n c i))) ∧
  (∀ (w : Who) (n i : Nat) (v : Word) (s : State), Running s → FullView w → Granted s w → n < 64 → i < 4096 →
    let dt := answerTime (RegId.pmapInactEnt.offset (n * 4096 + i))
    (pmapBusy s n = true → ∃ t, exec (.inactWrite w n i v) s = .next t ∧ t.pmapHeld = s.pmapHeld ++ [⟨w, n, i, some v⟩] ∧
      t.pmaps = s.pmaps ∧ t.answers = s.answers ∧ RegsKept [] s t) ∧
    (pmapBusy s n = false → pinsOld s n ≠ 0 → ∃ t, exec (.inactWrite w n i v) s = .next t ∧ Answered w 0 true dt s t ∧
      t.pmaps = s.pmaps ∧ rf t .pmapStat 0 31 16 = min 65535 (rf s .pmapStat 0 31 16 + 1)) ∧
    (pmapBusy s n = false → pinsOld s n = 0 → ∃ t, exec (.inactWrite w n i v) s = .next t ∧ Answered w 0 false dt s t ∧
      loadWord t .pmap (pmapIx n (1 - activeBank s n) i) = ⟨v &&& 0x8000FFFF, false, false⟩ ∧ RegsKept [] s t)) ∧
  (∀ (a k slot e : Nat) (s : State), Within s → (s.ctx a k).ewait = some (slot, e, false) → rf s .pmapCtrl 0 15 0 ≠ 0 →
    rf s .pmapCtrl 0 15 0 * 1024 * 12 ≤ s.clk - e →
    ∃ t, exec (.epochWaitLimit a k) s = .next t ∧ (t.ctx a k).ewait = some (slot, e, true) ∧
      bitOf (rg t .fuStat 82) 3 = true)

/-- A seed loads the LFSR; the counter clears of a Changer and of a Tally unit clear theirs; a record is written with every
word it has; a vector engine reads sixteen records. -/
def Obligations.ChangerAndTallyCommands : Prop :=
  (∀ (w : Who) (x : Nat) (v : Word) (s : State), Running s → FullView w → Granted s w → x < 32 →
    (∃ t, exec (.srSeedWrite w x v) s = .next t ∧ rg t .chgSrSeed x = v ∧ rg t .chgSrState x = (if v = 0 then 1 else v) ∧
      RegsKept [(.chgSrSeed, x), (.chgSrState, x)] s t) ∧
    (∃ t, exec (.changerCntClr w x) s = .next t ∧
      let l : List RegId := [.chgQBlocks, .chgQSat, .chgQFlush, .chgQEsc, .chgQRefused, .chgQNan, .chgQMaxerr, .chgREsc,
        .chgRRetry, .chgRSat, .chgSentCnt, .chgSentLast, .chgFmtFaults]
      (∀ id ∈ l, rg t id x = 0) ∧ RegsKept (l.map fun id => (id, x)) s t) ∧
    (∃ t, exec (.tallyCntClr w x) s = .next t ∧
      let l : List RegId := [.tallyRows, .tallyClamps, .tallyParts, .tallyIgnored, .tallyEcc]
      (∀ id ∈ l, rg t id x = 0) ∧ RegsKept (l.map fun id => (id, x)) s t)) ∧
  (∀ (x : Nat) (p : TallyPend) (s : State), Within s →
    let due := fun (p : TallyPend) => match p.due with | some d => decide (d ≤ s.run) | none => false
    ((s.tally x).pend.filter due).getLast? = some p → p.words.length ≤ 8 →
    ∃ t, exec (.tallyRecordWrite x) s = .next t ∧ (t.tally x).pend = (s.tally x).pend.filter (fun p => !due p) ∧
      (∀ (j : Nat) (v : Word), p.words[j]? = some v → loadWord t .tally (tallyWord x p.index j) = ⟨v, false, false⟩) ∧
      RegsKept [] s t) ∧
  (∀ (g idx ce ue loc : Nat) (sel : Bool) (ws : List Word) (s : State), Within s → slotReady s (16 + g) = true →
    sampling s = true → g < 16 → readTally s ((List.range 128).map fun j =>
      tallyWord (if sel then 16 + g else g) (idx + j / 8) (j % 8)) = (ws, ce, ue, loc) →
    ∃ t, exec (.tallyRead g sel idx) s = .next t ∧ t.tallyMem = s.tallyMem ∧
      Tab.get (fun _ => ⟨0, [], []⟩) t.tallyOut g =
        ⟨s.run + 2, [if ue = 0 then 0 else 7], if ue = 0 then wordsToRows 8 ws else List.replicate 8 0⟩ ∧
      (ue = 0 → RegsKept [(.tallyEcc, if sel then 16 + g else g)] s t))

/-! ### Bells -/

/-- Register rings, takes and INITs are submitted for the second MCLK edge; there a ring adds its tokens or overflows, a take
and a WAIT remove theirs or find too few, INIT sets the count. -/
def Obligations.BellsCountTokens : Prop :=
  (∀ (w : Who) (n scope cnt : Nat) (b : Bool) (s : State), Running s → FullView w → Granted s w →
    n < 1024 → scope < 4 → 0 < cnt →
    let o := 288 + whoNum w
    let two := (s.clk / 4 + 2) * 4
    let ask := fun (i : Instr) (op : BellOp) => ∃ t, exec i s = .next t ∧ t.bellOps = s.bellOps ++ [op] ∧
      t.bells = s.bells ∧ t.answers = s.answers ∧ RegsKept [] s t
    let held := if o < 304 ∧ scope ≠ 0 then openWrites s (o - 288) else []
    (cnt < 256 → ask (.bellRing w n b scope cnt)
        ⟨.ring, 2 * n + b2n b, o, scope, cnt, none, none, if held.isEmpty then some two else none, held, some w⟩) ∧
    (cnt < 256 → ask (.bellTake w n b scope cnt) ⟨.take, 2 * n + b2n b, o, scope, cnt, none, none, some two, [], some w⟩) ∧
    (cnt < 65536 → ask (.bellInit w n b cnt) ⟨.init, 2 * n + b2n b, o, 0, cnt, none, none, some two, [], some w⟩)) ∧
  (∀ (w : Who) (i : Nat) (s : State), Running s → FullView w → Granted s w → i < 18 →
    let busy := s.bellOps.any fun o => decide (o.kind = .take ∧ o.orig = 288 + i)
    (busy = false → ∃ t, exec (.tkresRead w i) s = .next t ∧ RegsKept [] s t ∧
      Answered w (rg s .bellTkres i) false (answerTime (RegId.bellTkres.offset i)) s t) ∧
    (busy = true → ∃ t, exec (.tkresRead w i) s = .next t ∧ t.tkHeld = s.tkHeld ++ [⟨w, i⟩] ∧ t.answers = s.answers)) ∧
  (∀ (o : BellOp) (s : State), Within s → s.safe = false →
    (s.bellOps.filter fun o => match o.due with | some d => decide (d ≤ s.clk) | none => false) = [o] →
    (bellCount s o.bell).ue = false →
    let c := (bellCount s o.bell).data.toNat % 65536
    (o.kind = .ring → c + o.n ≤ 65535 → ∃ t, exec .bellComplete s = .next t ∧
      t.bell o.bell = ⟨c + o.n, o.orig, o.scope, o.task, true⟩) ∧
    (o.kind = .ring → 65535 < c + o.n → ∃ t, exec .bellComplete s = .next t ∧ t.bells = s.bells ∧
      bitOf (rg t .fuStat 82) 2 = true ∧ rf t .bellOvf 0 15 0 = min 65535 (rf s .bellOvf 0 15 0 + 1) ∧ t.ctxs = s.ctxs ∧
      (∀ w, o.who = some w → ⟨w, 0, true, s.clk, 0, false, false⟩ ∈ t.answers)) ∧
    (o.kind = .take → o.n ≤ c → ∃ t, exec .bellComplete s = .next t ∧ (t.bell o.bell).count = c - o.n ∧
      rg t .bellTkres (o.orig - 288) = BitVec.ofNat 32 (c - o.n + 65536 + 2 ^ 31)) ∧
    (o.kind = .take → c < o.n → ∃ t, exec .bellComplete s = .next t ∧ t.bells = s.bells ∧
      rg t .bellTkres (o.orig - 288) = BitVec.ofNat 32 (c + 2 ^ 31)) ∧
    (o.kind = .wait → o.n ≤ c → ∀ a k, o.ctx = some (a, k) → ∃ t, exec .bellComplete s = .next t ∧
      (t.bell o.bell).count = c - o.n ∧ (t.ctx a k).hold = .none ∧ (t.ctx a k).pc = (s.ctx a k).pc + 1) ∧
    (o.kind = .init → ∃ t, exec .bellComplete s = .next t ∧ t.bell o.bell = ⟨o.n, 0, 0, none, false⟩))

/-! ### The Strongbox -/

/-- An access that finds the Strongbox port open and alone is accepted at its edge and answered 4 MCLK later: a word written, set,
cleared, a lock acquired, released, broken, or seen, a write that reaches the secure area or the locks denied; one that does not find
it so waits; the Steward's accesses wait for the next MCLK edge. -/
def Obligations.StrongboxAccesses : Prop :=
  (∀ (w : Who) (i : Nat) (v : Word) (s : State), Running s → FullView w → Granted s w → w.steward = false → i < 16384 →
    let g := loadWord s .sbox i
    let alone := sboxOpen s = true ∧ sboxFree s ⟨w, .read, i, s.clk⟩ = true ∧ reaperFirst s s.clk = false ∧
      s.sboxWait.any (sboxStands s) = false
    let does := fun (j : Instr) (d : Word) => ∃ t, exec j s = .next t ∧ loadWord t .sbox i = ⟨d, false, false⟩ ∧
      (∀ k, k ≠ i → loadWord t .sbox k = loadWord s .sbox k) ∧
      t.sboxAns = s.sboxAns ++ [⟨w, 0, false, s.clk + 16, true⟩] ∧ t.answers = s.answers
    let waits := fun (j : Instr) (op : SboxOp) => ∃ t, exec j s = .next t ∧
      t.sboxWait = s.sboxWait ++ [⟨w, op, i, s.clk⟩] ∧ t.sbox = s.sbox ∧ t.answers = s.answers ∧ RegsKept [] s t
    let denied := fun (j : Instr) => ∃ t, exec j s = .next t ∧ t.sboxAns = s.sboxAns ++ [⟨w, 0, true, s.clk + 16, true⟩] ∧
      t.sbox = s.sbox ∧ t.answers = s.answers ∧
      (rg t .sboxDenied).toNat = min (2 ^ 32 - 1) ((rg s .sboxDenied).toNat + 1) ∧ bitOf (rg t .fuStat 83) 1 = true
    (5120 ≤ i → alone → does (.sboxDataWrite w i v) v ∧
      (g.ue = false → does (.sboxSet w i v) (g.data ||| v) ∧ does (.sboxClr w i v) (g.data &&& ~~~v))) ∧
    (i < 5120 → alone → denied (.sboxDataWrite w i v) ∧ denied (.sboxSet w i v) ∧ denied (.sboxClr w i v)) ∧
    (¬alone → ∀ e ∈ [(Instr.sboxDataWrite w i v, SboxOp.write v), (.sboxSet w i v, .set v), (.sboxClr w i v, .clr v)],
      waits e.1 (if i < 5120 then .deny true else e.2))) ∧
  (∀ (w : Who) (i : Nat) (v : Word) (s : State), Running s → w.steward = true → i < 16384 →
    ∀ e ∈ [(Instr.sboxDataWrite w i v, SboxOp.write v), (.sboxSet w i v, .set v), (.sboxClr w i v, .clr v)],
    ∃ t, exec e.1 s = .next t ∧ t.sbox = s.sbox ∧ t.answers = s.answers ∧ RegsKept [] s t ∧
      t.sboxWait = s.sboxWait ++ [⟨w, if 4096 ≤ i ∧ i < 5120 then .deny true else e.2, i, (s.clk / 4 + 1) * 4⟩]) ∧
  (∀ (w : Who) (i : Nat) (s : State), Running s → FullView w → Granted s w → w.steward = false → i < 1024 →
    let k := 4096 + i
    let g := loadWord s .sbox k
    let alone := sboxOpen s = true ∧ sboxFree s ⟨w, .read, k, s.clk⟩ = true ∧ reaperFirst s s.clk = false ∧
      s.sboxWait.any (sboxStands s) = false
    let held := lockHeld g.data && !ownerReaped s g.data
    let ends := fun (j : Instr) (wr : Bool) (P : State → Word → Word → Bool → Prop) => ∃ t d e, exec j s = .next t ∧
      t.sboxAns = s.sboxAns ++ [⟨w, d, e, s.clk + 16, wr⟩] ∧ P t (loadWord t .sbox k).data d e
    (¬alone → ∀ e ∈ [(Instr.acq w i, SboxOp.acq), (.rel w i, .rel), (.break_ w i, .brk), (.peek w i, .read)],
      ∃ t, exec e.1 s = .next t ∧ t.sboxWait = s.sboxWait ++ [⟨w, e.2, k, s.clk⟩] ∧ t.sbox = s.sbox ∧ t.answers = s.answers ∧
        RegsKept [] s t) ∧
    (alone → g.ue = false →
    (held = false → ends (.acq w i) false fun _ x d e => lockOwner x = 288 + w.proc ∧ lockHeld x = true ∧
      lockAbandoned x = false ∧ lockGen x = (lockGen g.data + 1) % 65536 ∧ lockOwner d = lockOwner g.data ∧
      lockHeld d = false ∧ lockAbandoned d = (lockAbandoned g.data || (ownerReaped s g.data && lockHeld g.data)) ∧
      bitOf d 11 = true ∧ fld d 15 12 = 0 ∧ lockGen d = lockGen x ∧ e = false) ∧
    (held = true → ends (.acq w i) false fun _ x d e => x = g.data ∧ lockOwner d = lockOwner g.data ∧ lockHeld d = true ∧
      lockAbandoned d = lockAbandoned g.data ∧ bitOf d 11 = false ∧ fld d 15 12 = 0 ∧ lockGen d = lockGen x ∧ e = false) ∧
    (lockHeld g.data = true → lockOwner g.data = 288 + w.proc →
      ends (.rel w i) true fun _ x _ e => x = g.data &&& ~~~(0x200 : Word) ∧ e = false) ∧
    (lockHeld g.data = false ∨ lockOwner g.data ≠ 288 + w.proc → ends (.rel w i) true fun t x _ e => x = g.data ∧ e = true ∧
      bitOf (rg t .fuStat 83) 2 = true ∧ rf t .sboxLockErr 0 15 0 = min 65535 (rf s .sboxLockErr 0 15 0 + 1) ∧
      rf t .sboxLockErr 0 25 16 = i) ∧
    ends (.break_ w i) true (fun _ x _ e => x = (g.data &&& ~~~(0x200 : Word)) ||| 0x400 ∧ e = false) ∧
    ends (.peek w i) false (fun _ x d e => x = g.data ∧ d = g.data ∧ e = false))) ∧
  (∀ (a : SboxAns) (s : State), Within s → (s.sboxAns.find? fun a => decide (a.due ≤ s.clk)) = some a →
    ∃ t, exec .sboxAccessComplete s = .next t ∧ Answered a.who a.data a.err 0 s t ∧
      t.sboxAns = s.sboxAns.filter (fun b => decide (b ≠ a)) ∧ t.sbox = s.sbox)

/-- REAP and a management processor's reset put origins in the reap set; the sweep reads the locks in turn, marks those the set
holds, and empties the set. The key is written while it may be, by an access of the Strongbox's port, and locked once whole; tamper and a change of the life-cycle
state start a wipe, which leaves the secure area zero. -/
def Obligations.StrongboxReapsAndWipes : Prop :=
  (∀ (w : Who) (n : Nat) (s : State), Running s → FullView w → Granted s w →
    let dt := answerTime (RegId.sboxReap.offset 0)
    (n < 18 → w.steward = true ∨ n ≠ w.proc → ∃ t, exec (.reap w n) s = .next t ∧ Answered w 0 false dt s t ∧
      RegsKept [] s t ∧ nbit t.reapSet n = true ∧ t.reapAt = some 0) ∧
    (18 ≤ n → n < 32 → ∃ t, exec (.reap w n) s = .next t ∧ Answered w 0 true dt s t ∧ t.reapSet = s.reapSet) ∧
    (w.steward = false → n = w.proc → ∃ t, exec (.reap w n) s = .next t ∧ Answered w 0 true dt s t ∧
      t.reapSet = s.reapSet)) ∧
  (∀ (i : Nat) (s : State), Within s → i < 2 →
    ∃ t, exec (.mpReset i) s = .next t ∧ (∀ j, claimer s j = 16 + i → claimer t j = 18) ∧ RegsKept [] s t ∧
      (mclkEdge s = true → nbit t.reapSet (16 + i) = true) ∧ (mclkEdge s = false → nbit t.reapEnter (16 + i) = true)) ∧
  (∀ (s : State), Within s →
    (∀ i, i < 1024 → s.reapEnd = none → s.reapMark = none → s.reapAt = some i → reaperTurn s = true →
      let g := loadWord s .sbox (4096 + i)
      ∃ t, exec .reapSweepStep s = .next t ∧ t.reapAt = some (i + 1) ∧ t.sbox = s.sbox ∧
        t.reapMark = (if !g.ue && lockHeld g.data && ownerReaped s g.data then some i else none)) ∧
    (∀ i, s.reapMark = some i → reaperTurn s = true →
      let g := loadWord s .sbox (4096 + i)
      g.ue = false → lockHeld g.data = true → ownerReaped s g.data = true →
      ∃ t, exec .reapSweepStep s = .next t ∧ t.reapMark = none ∧
        loadWord t .sbox (4096 + i) = ⟨(g.data &&& ~~~(0x200 : Word)) ||| 0x400, false, false⟩) ∧
    (∀ e, s.reapEnd = some e → s.reapMark = none → e ≤ s.clk →
      ∃ t, exec .reapSweepStep s = .next t ∧ t.reapSet = 0 ∧ t.reapAt = none ∧ t.sbox = s.sbox ∧
        t.intPulse = s.intPulse ||| BitVec.ofNat 512 (2 ^ 330) ∧
        rf t .sboxReapCnt 0 15 0 = min 65535 (rf s .sboxReapCnt 0 15 0 + 1))) ∧
  (∀ (w : Who) (j : Nat) (v : Word) (s : State), Running s → FullView w → Granted s w → j < 8 →
    let alone := sboxOpen s = true ∧ sboxFree s ⟨w, .read, j, s.clk⟩ = true ∧ reaperFirst s s.clk = false ∧
      s.sboxWait.any (sboxStands s) = false
    (w.steward = false → keyOpen s = true → alone →
      ∃ t, exec (.keyWrite w j v) s = .next t ∧ loadWord t .sbox j = ⟨v, false, false⟩ ∧
        bitOf (rg t .sboxSec) (8 + j) = true ∧ RegsKept [(.sboxSec, 0)] s t ∧
        t.sboxAns = s.sboxAns ++ [⟨w, 0, false, s.clk + 16, true⟩]) ∧
    (w.steward = false → keyOpen s = false → alone → ∃ t, exec (.keyWrite w j v) s = .next t ∧ t.sbox = s.sbox ∧
      RegsKept [] s t ∧ t.sboxAns = s.sboxAns ++ [⟨w, 0, true, s.clk + 16, true⟩]) ∧
    (w.steward = true ∨ ¬alone → ∃ t, exec (.keyWrite w j v) s = .next t ∧ t.sbox = s.sbox ∧ RegsKept [] s t ∧
      t.sboxWait = s.sboxWait ++ [⟨w, .key v, j, if w.steward then (s.clk / 4 + 1) * 4 else s.clk⟩])) ∧
  (∀ (w : Who) (s : State), Running s → FullView w → Granted s w →
    ∃ t, exec (.keyLock w) s = .next t ∧
      Answered w 0 (bitOf (rg s .sboxSec) 2) (answerTime (RegId.sboxSec.offset 0)) s t ∧
      bitOf (rg t .sboxSec) 0 =
        (bitOf (rg s .sboxSec) 0 || (!bitOf (rg s .sboxSec) 2 && bitOf (rg s .sboxSec) 1))) ∧
  (∀ (s : State), Within s →
    (∃ t, exec .tamper s = .next t ∧ bitOf (rg t .sboxSec) 2 = true ∧ RegsKept [(.sboxSec, 0)] s t ∧
      t.wipeEnd = (if bitOf (rg s .sboxSec) 2 then s.wipeEnd else some (s.clk + 16384, false))) ∧
    (∃ t, exec .tamperRelease s = .next t ∧ bitOf (rg t .sboxSec) 2 = false ∧ RegsKept [(.sboxSec, 0)] s t ∧
      t.wipeEnd = s.wipeEnd) ∧
    (∀ v, v < 16 → ∃ t, exec (.lcStateChange v) s = .next t ∧ rf t .sboxSec 0 19 16 = v ∧ RegsKept [(.sboxSec, 0)] s t ∧
      t.wipeEnd = (if s.lcKnown = true ∧ rf s .sboxSec 0 19 16 ≠ v then some (s.clk + 16384, true) else s.wipeEnd)) ∧
    (∀ e lc, s.wipeEnd = some (e, lc) → e ≤ s.clk →
      ∃ t, exec .wipeDone s = .next t ∧ t.wipeEnd = none ∧ (∀ i, i < 4096 → loadWord t .sbox i = ⟨0, false, false⟩) ∧
        (∀ i, 4096 ≤ i → i < 16384 → loadWord t .sbox i = loadWord s .sbox i) ∧ rf t .sboxSec 0 1 0 = 0 ∧
        rf t .sboxSec 0 15 8 = 0 ∧ bitOf (rg t .sboxSec) 3 = true ∧ bitOf (rg t .fuStat 83) 3 = true))

/-! ### Faults, regulation -/

/-- Events set their STAT bit, one of the crossbar's return path on the read stripes there; the writes of a unit's registers clear what they name; an entry of a ledger is captured as it is
read; levels of regulation rise at once and fall a step at a time; a reservation enters its sums. -/
def Obligations.FaultUnitsRecordAndClear : Prop :=
  (∀ (w : Who) (n : Nat) (v : Word) (s : State), Running s → FullView w → Granted s w → n < 85 →
    (∃ t, exec (.force w n v) s = .next t ∧
      ∀ b, b < 32 → bitOf (rg t .fuStat n) b = (bitOf (rg s .fuStat n) b || (bitOf v b && srcListed n b))) ∧
    ((s.fu n).nowAt ≠ s.clk → ∃ t, exec (.fuStatClear w n v) s = .next t ∧
      rg t .fuStat n = rg s .fuStat n &&& ~~~v ∧ RegsKept [(.fuStat, n)] s t) ∧
    (∃ t, exec (.firstClear w n) s = .next t ∧ rg t .fuFirst n = 0 ∧
      RegsKept [(.fuFirst, n), (.fuFirstLoc, n), (.fuFirstDetail, n), (.fuFirstTime, n)] s t) ∧
    (∃ t, exec (.firstOvfClear w n) s = .next t ∧ bitOf (rg t .fuFirst n) 6 = false ∧
      (∀ b, b < 32 → b ≠ 6 → bitOf (rg t .fuFirst n) b = bitOf (rg s .fuFirst n) b) ∧ RegsKept [(.fuFirst, n)] s t) ∧
    (∃ t, exec (.ledgerClr w n) s = .next t ∧ (t.fu n).ledger = [] ∧ rf t .fuLedgerStat n 31 16 = 0 ∧
      RegsKept [(.fuLedgerStat, n)] s t) ∧
    (∀ i, i < 8 → ∃ t, exec (.ledgerCaptureRead w n i) s = .next t ∧ ledgerFor t w n i = ledgerAt s n i ∧
      Answered w (ledgerAt s n i).info false (answerTime (RegId.fuLedgerInfo.offset (n * 8 + i))) s t ∧ RegsKept [] s t)) ∧
  (∀ (s : State), Within s →
    (∀ n, n < 85 → ∃ t, exec (.selfPar n) s = .next t ∧ bitOf (rg t .fuStat n) 31 = true ∧ (t.fu n).par = true ∧
      (s.safe = false → s.safeAt = none → t.safeAt = some ((s.clk / 12 + 1) * 12))) ∧
    (∀ c, c < 64 → ∃ t, exec (.parityError (.column c)) s = .next t ∧ bitOf (rg t .fuStat c) 7 = true) ∧
    (∀ (c : Nat) (l : RdLane), l ∈ s.rdLanes → inReturn s c l = true → ∃ t, exec (.parityError (.crossbar c)) s = .next t ∧
      bitOf (rg t .fuStat 81) 0 = true ∧ { l with par := true } ∈ t.rdLanes) ∧
    (∃ t, exec (.parityError .sector) s = .next t ∧ bitOf (rg t .fuStat 81) 1 = true) ∧
    (∃ t, exec (.parityError .intc) s = .next t ∧ bitOf (rg t .fuStat 82) 5 = true) ∧
    (∃ t, exec (.parityError .steward) s = .next t ∧ bitOf (rg t .fuStat 84) 0 = true) ∧
    (∃ t, exec .stwWdog s = .next t ∧ bitOf (rg t .fuStat 84) 2 = true) ∧
    (∃ t, exec .stwMemUe s = .next t ∧ bitOf (rg t .fuStat 84) 1 = true) ∧
    (∀ c, c < 64 → s.clk % 12 = 0 → ∃ t, exec (.trackerExpire c) s = .next t ∧ RegsKept [] s t ∧
      (t.fu c).track = (s.fu c).track.filter fun e => decide (s.clk / 12 - e.time ≤ trackWin s c)) ∧
    (∀ c, c < 8 → s.clk % 12 = 0 → levelOf s c < computedLevel s c (pressure s c) →
      ∃ t, exec (.levelRise c) s = .next t ∧ levelOf t c = computedLevel s c (pressure s c) ∧
        (∀ d, d < 8 → d ≠ c → levelOf t d = levelOf s d) ∧ RegsKept [(.regMult, 0)] s t) ∧
    (∀ c, c < 8 → 0 < levelOf s c → decayEdges s ≤ decayCount s c →
      ∃ t, exec (.levelDecay c) s = .next t ∧ levelOf t c = levelOf s c - 1 ∧ decayCount t c = 0 ∧
        (∀ d, d < 8 → d ≠ c → levelOf t d = levelOf s d) ∧ RegsKept [(.regMult, 0)] s t)) ∧
  (∀ (w : Who) (c : Nat) (v : Word) (s : State), Running s → FullView w → Granted s w → c < 8 →
    ∃ t, exec (.rsvWrite w c v) s = .next t ∧ rg t .regClassRsv c = v &&& RegId.regClassRsv.row.rw ∧
      rf t .regRsvSum 0 15 0 = ((List.range 8).map fun i => rf t .regClassRsv i 11 0).sum ∧
      rf t .regRsvSum 0 31 16 = ((List.range 8).map fun i => rf t .regClassRsv i 27 16).sum ∧
      bitOf (rg t .regStat) 0 = decide (rf t .regCap 0 12 0 < rf t .regRsvSum 0 15 0) ∧
      bitOf (rg t .regStat) 1 = decide (rf t .regCap 0 28 16 < rf t .regRsvSum 0 31 16) ∧
      RegsKept [(.regClassRsv, c), (.regRsvSum, 0), (.regStat, 0), (.regEvent, 0)] s t)

/-- A curfew that runs out in fault escalates its unit, where CURFEW_EN lets it; one TCLK later the escalation quarantines the
column or calls the safe state, with phj_err_n low; a quarantined column's octets leave service; the safe state stops every
run. -/
def Obligations.CurfewsEscalate : Prop :=
  (∀ (n t0 src e : Nat) (forced : Bool) (s : State), Within s → n < 85 → s.safe = false → curfewOver s n = true →
    (s.fu n).curfew = some (t0, src, forced, e) →
    (escalating s n ≠ 0 → bitOf (rg s .fuCtrl n) 1 = true → ∃ t, exec (.curfewExpiry n) s = .next t ∧
      (t.fu n).esc = true ∧ (t.fu n).curfew = none ∧
      (t.fu n).outcome = some (s.clk / 12 + 1, rf s .fuGstat 0 1 0, src, forced) ∧
      rf t .fuGstat 0 1 0 = min 2 (rf s .fuGstat 0 1 0 + 1) ∧ t.intPulse = s.intPulse ||| BitVec.ofNat 512 (2 ^ 325)) ∧
    (escalating s n ≠ 0 → bitOf (rg s .fuCtrl n) 1 = false → ∃ t, exec (.curfewExpiry n) s = .next t ∧
      (t.fu n).esc = (s.fu n).esc ∧ (t.fu n).spent = true ∧ (t.fu n).curfew = none ∧ rg t .fuGstat = rg s .fuGstat) ∧
    (escalating s n = 0 → ∃ t, exec (.curfewExpiry n) s = .next t ∧ (t.fu n).curfew = none ∧ (t.fu n).esc = false ∧
      rg t .fuStat n = rg s .fuStat n)) ∧
  (∀ (n t1 before src : Nat) (forced : Bool) (s : State), Within s → (s.fu n).outcome = some (t1, before, src, forced) →
    t1 ≤ s.clk / 12 →
    (n < 64 → before = 0 → ∃ t, exec (.escalation n) s = .next t ∧ quarantined t n = true ∧
      t.errPulse = some ((t1 + 100) * 12) ∧ errPin t = false ∧
      (∀ l ∈ t.rdLanes, l.col = n → l.accs ≠ [] → l.bank < s.run + 4) ∧
      (∀ l ∈ t.wrLanes, l.col = n → l.accs ≠ [] → l.bank < s.run + 4)) ∧
    (¬(n < 64 ∧ before = 0) → s.safe = false → s.safeAt = none → ∃ t, exec (.escalation n) s = .next t ∧
      t.safeAt = some (t1 * 12) ∧ rf t .fuSafeInfo 0 2 0 = (if before = 0 then 1 else 2) ∧ errPin t = false)) ∧
  (∀ (c : Nat) (s : State), Within s → c < 64 → (s.fu c).quar = true → (s.fu c).quarDone = false →
    (s.col c).defer = [] → (∀ l ∈ s.rdLanes, l.col ≠ c) → (∀ l ∈ s.wrLanes, l.col ≠ c) →
    ∃ t, exec (.quarantineComplete c) s = .next t ∧ (t.fu c).quarDone = true ∧
      (∀ i o, i < 4 → o < 4 → octetOut t c i o = true) ∧ (∀ i, i < 4 → dom t (64 * i + c) = ⟨1, none⟩)) ∧
  (∀ (n : Nat) (s : State), Within s → n < 85 → s.clk % 12 = 0 → bitOf (rg s .fuCtrl n) 0 = true → escalating s n ≠ 0 →
    (s.fu n).lastEsc + max 1 (rf s .fuQuiet n 15 0) * 1024 ≤ s.clk / 12 →
    ∃ t, exec (.quietPeriod n) s = .next t ∧ rf t .fuRecov n 15 0 = min 65535 (rf s .fuRecov n 15 0 + 1) ∧
      (∀ b, b < 30 → bitOf (rg t .fuStat n) b = (bitOf (rg s .fuStat n) b && !bitOf (rg s .fuEsc n) b))) ∧
  (∀ (e : Nat) (s : State), Within s → s.errPulse = some e → e ≤ s.clk →
    ∃ t, exec .errPulseEnd s = .next t ∧ t.errPulse = none ∧ rf t .fuErrHold 0 0 0 = b2n (s.errWant || s.safe) ∧
      RegsKept [(.fuErrHold, 0)] s t) ∧
  (∀ (w : Who) (hold : Bool) (s : State), Running s → FullView w → Granted s w →
    ∃ t, exec (.errHoldWrite w hold) s = .next t ∧ RegsKept [(.fuErrHold, 0)] s t ∧
      (s.safe = true → hold = false → RegsKept [] s t) ∧
      (s.safe = false → s.errPulse = none → rf t .fuErrHold 0 0 0 = b2n hold) ∧
      (s.safe = false → s.errPulse ≠ none → t.errWant = hold ∧ RegsKept [] s t)) ∧
  (∀ (w : Who) (s : State), Running s → FullView w → Granted s w → s.safe = false → s.safeAt = none →
    ∃ t, exec (.safeCmd w) s = .next t ∧ t.safeAt = some ((s.clk / 12 + 1) * 12) ∧ rf t .fuSafeInfo 0 2 0 = 5 ∧
      rf t .fuSafeInfo 0 10 4 = 127 ∧ t.safe = false) ∧
  (∀ (e : Nat) (s : State), Within s → s.safeAt = some e → e ≤ s.clk → s.safe = false → (∀ f ∈ s.fus, f.1 < 85) →
    ∃ t, exec .safeStateEntry s = .next t ∧ t.safe = true ∧ rf t .fuGstat 0 2 2 = 1 ∧ errPin t = false ∧
      (∀ a k, k < 2 → (t.ctx a k).live = false) ∧ srcIn t.intPulse 326 = true)

/-! ### Interrupts -/

/-- At an MCLK edge the selections are registered and every line is sampled; a claim makes its source active, an EOI ends it;
software sets and clears pending bits of edge-sensed sources and pulses software-generated interrupts. -/
def Obligations.InterruptsAreDelivered : Prop :=
  (∀ (s : State), Within s → mclkEdge s = true → intcRuns s = true →
    ∃ t, exec .interruptSelect s = .next t ∧ (∀ i, i < 18 → selOf t i = select s i) ∧ t.intLine = lines s ∧
      t.intPulse = 0 ∧ (∀ i ∈ sources, srcIn t.intPend i = pendAfter s (lines s) i) ∧ t.intOwner = s.intOwner ∧
      RegsKept [] s t) ∧
  (∀ (w : Who) (n : Nat) (s : State), Running s → FullView w → Granted s w → n < 18 →
    let i := selOf s n
    let dt := answerTime (RegId.intcTgtClaim.offset n)
    (i ≠ noSource → claimer s i = noTarget →
      ∃ t, exec (.claim w n) s = .next t ∧ Answered w (BitVec.ofNat 32 i) false dt s t ∧
      claimer t i = n ∧ (∀ j, j ≠ i → claimer t j = claimer s j ∧ srcIn t.intPend j = srcIn s.intPend j) ∧
      srcIn t.intPend i = (srcIn s.intPend i && decide (senseOf s i = 0)) ∧ RegsKept [] s t) ∧
    (i = noSource ∨ claimer s i ≠ noTarget → ∃ t, exec (.claim w n) s = .next t ∧ Answered w 0x3FF false dt s t ∧
      t.intOwner = s.intOwner ∧ t.intPend = s.intPend ∧ RegsKept [(.intcTgtStat, n)] s t)) ∧
  (∀ (w : Who) (n i : Nat) (s : State), Running s → FullView w → Granted s w → n < 18 → i < 512 →
    (claimer s i = n → ∃ t, exec (.eoi w n i) s = .next t ∧ claimer t i = noTarget ∧ RegsKept [] s t ∧
      (∀ j, j ≠ i → claimer t j = claimer s j)) ∧
    (claimer s i ≠ n → ∃ t, exec (.eoi w n i) s = .next t ∧ t.intOwner = s.intOwner ∧ RegsKept [(.intcErr, 0)] s t ∧
      rf t .intcErr 0 24 16 = i ∧ rf t .intcErr 0 29 25 = n ∧
      rf t .intcErr 0 15 0 = min 65535 (rf s .intcErr 0 15 0 + 1))) ∧
  (∀ (w : Who) (d i : Nat) (s : State), Running s → FullView w → Granted s w → d < 32 → i < 8 →
    ∃ t, exec (.sgi w d i) s = .next t ∧ RegsKept [] s t ∧ t.intPulse =
      (if d < 16 then s.intPulse ||| BitVec.ofNat 512 (2 ^ (16 * d + 2 + i))
       else if d = 16 then s.intPulse ||| BitVec.ofNat 512 (2 ^ (336 + i)) else s.intPulse)) ∧
  (∀ (w : Who) (i : Nat) (v : Word) (s : State), Running s → FullView w → Granted s w → i < 16 →
    let hit := fun (j : Nat) => decide (j / 32 = i) && bitOf v (j % 32) && srcExists j && decide (senseOf s j ≠ 0)
    (∃ t, exec (.setpend w i v) s = .next t ∧ RegsKept [] s t ∧
      ∀ j, j < 512 → srcIn t.intPend j = (srcIn s.intPend j || hit j)) ∧
    (∃ t, exec (.clrpend w i v) s = .next t ∧ RegsKept [] s t ∧
      ∀ j, j < 512 → srcIn t.intPend j = (srcIn s.intPend j && !hit j))) ∧
  (∀ (w : Who) (i : Nat) (v : Word) (s : State), Running s → FullView w → Granted s w → i < 512 →
    ∃ t, exec (.srcCfgWrite w i v) s = .next t ∧ RegsKept [(.intcSrcCfg, i)] s t ∧
      (srcExists i = false → RegsKept [] s t) ∧
      (srcExists i = true → rf t .intcSrcCfg i 10 0 = fld v 10 0 ∧
        rf t .intcSrcCfg i 20 16 = (if i < 256 ∨ 17 < fld v 20 16 then rf s .intcSrcCfg i 20 16 else fld v 20 16))) ∧
  (∀ (n : Nat) (level : Bool) (s : State), Within s →
    ∃ t, exec (.targetSleep n level) s = .next t ∧ asleep t n = level ∧ wakeReq t n = (intReq s n && level) ∧ RegsKept [] s t)

/-! ### Configuration images -/

/-- A load is refused with its code or starts receiving; words arrive, the checks, which count what the reads of the key find, reject the image or start applying it, and the
end of applying leaves DONE with the digest of a full image; a seal closes the structural registers. -/
def Obligations.ImagesLoad : Prop :=
  (∀ (w : Who) (s : State), Running s → FullView w → Granted s w →
    (∀ e ∈ [(false, Instr.load w), (true, Instr.partial_ w)],
      (∀ code, loadRefusal s e.1 = some code → ∃ t, exec e.2 s = .next t ∧ (rg t .cfgResult).toNat = code ∧
        t.loader = s.loader ∧ RegsKept [(.cfgResult, 0)] s t) ∧
      (loadRefusal s e.1 = none → ∃ t, exec e.2 s = .next t ∧ rg t .cfgResult = 0 ∧ t.loader.phase = .receiving ∧
        t.loader.words = [] ∧ t.loader.part = e.1 ∧ RegsKept [(.cfgResult, 0)] s t)) ∧
    (∃ t, exec (.cancel w) s = .next t ∧ RegsKept [(.cfgResult, 0)] s t ∧
      ((s.loader.phase = .receiving ∨ ∃ e, s.loader.phase = .checking e) →
        t.loader.phase = .idle ∧ rg t .cfgResult = 0xC ∧ t.loader.result = s.loader.result) ∧
      (s.loader.phase = .idle → t.loader = s.loader ∧ RegsKept [] s t)) ∧
    (∃ t, exec (.cfgOpReserved w) s = .next t ∧ rg t .cfgResult = 0xD ∧ t.loader = s.loader ∧
      RegsKept [(.cfgResult, 0)] s t) ∧
    (∀ v, (s.loader.phase = .receiving → ∃ t, exec (.loadWord w v) s = .next t ∧
        t.loader.words = s.loader.words ++ [v] ∧ Answered w 0 false (answerTime (RegId.cfgLoad.offset 0)) s t ∧
        rf t .cfgRx 0 15 0 = min 65535 (s.loader.words.length + 1) ∧
        t.loader.phase = (if 3 ≤ s.loader.words.length + 1 ∧ imgWord (s.loader.words ++ [v]) 2 ≤ s.loader.words.length + 1
          then .checking s.clk else .receiving)) ∧
      (s.loader.phase ≠ .receiving → ∃ t, exec (.loadWord w v) s = .next t ∧ t.loader = s.loader ∧
        Answered w 0 true (answerTime (RegId.cfgLoad.offset 0)) s t)) ∧
    (∃ t, exec (.seal w) s = .next t ∧ RegsKept [] s t ∧ t.sealed_ = (s.sealed_ || decide (s.loader.phase = .idle)) ∧
      (s.loader.phase ≠ .idle → t.sealWant = true)) ∧
    (∀ n i v, n < 64 →
      (s.sealed_ = false ∨ w.steward = true → ∃ t, exec (.regionWrite w n i v) s = .next t ∧
        rg t (regionReg i) n =
          ((rg s (regionReg i) n &&& ~~~(regionReg i).row.rwl) ||| (v &&& (regionReg i).row.rwl)) ∧
        RegsKept [(regionReg i, n)] s t) ∧
      (s.sealed_ = true → w.steward = false → ∃ t, exec (.regionWrite w n i v) s = .next t ∧ RegsKept [] s t))) ∧
  (∀ (e : Nat) (s0 : State), Within s0 → s0.loader.phase = .checking e →
    let s := if headerCheck s0.loader.words s0.loader.part && tagChecked s0 && keyUsable s0 then keyReads s0 else s0
    (∀ code item, imageVerdict s = some (code, item) → ∃ t, exec .imageCheckDone s0 = .next t ∧ t.loader.phase = .idle ∧
      t.loader.result = 6 ∧ rg t .cfgResult = BitVec.ofNat 32 (code + 65536 * (item % 65536)) ∧
      bitOf (rg t .fuStat 84) (if code = 8 then 3 else 4) = true ∧ t.wheels = s.wheels) ∧
    (imageVerdict s = none → ∃ t, exec .imageCheckDone s0 = .next t ∧ RegsKept [] s t ∧
      t.loader.phase = .applying s.clk (s.clk + 4 * applySteps s) ∧ t.loader.words = s.loader.words)) ∧
  (∀ (a e : Nat) (s : State), Within s → s.loader.phase = .applying a e → e ≤ s.clk →
    ∃ t, exec .applyDone s = .next t ∧ t.loader.phase = .idle ∧ t.loader.result = 5 ∧
      rg t .cfgImage = s.loader.words.getD 5 0 ∧ bitOf (rg t .cfgStat) 6 = false ∧
      (s.loader.part = false → bitOf (rg t .cfgStat) 4 = true ∧ t.wheelPend = true ∧
        rg t .winDigest = crc32c (imageBytes (imgStructural s.loader.words))))

/-! ### Scrubbing and remaps -/

/-- An upset of up to four adjacent cells of a row is corrected, and a row whose cells all read alike is uncorrectable in every word;
scrub requests and results move through the Steward's queues, each row corrected written back unless a client has written it;
requests to remap are refused with their code or queued;
the Steward starts a copy of the row or bank, merges each row, and switches lookups to the destination. -/
def Obligations.StorageIsMaintained : Prop :=
  (∀ (r : Row) (i n : Nat), n ≤ 4 → i + n ≤ 544 →
    (readRow ((fresh r).upset i n)).data = r ∧ (readRow ((fresh r).upset i n)).ue = 0) ∧
  (∀ r : Coded, r.blank = true → (readRow r).ue = 15) ∧
  (∀ (w : Who) (c : Nat) (v : Word) (s : State), Running s → FullView w → Granted s w → c < 64 →
    let m := RegId.colScrubCtrl.row.rw
    ∃ t, exec (.scrubCtrlWrite w c v) s = .next t ∧ rg t .colScrubCtrl c = ((rg s .colScrubCtrl c &&& ~~~m) ||| (v &&& m)) ∧
      RegsKept [(.colScrubCtrl, c)] s t) ∧
  (∀ (c : Nat) (s : State), Within s → c < 64 → heldEdge s = false → scrubDue s c = true →
    ∃ t e, exec (.scrubRequest c) s = .next t ∧ (t.col c).scrub.queued = true ∧ (t.col c).scrub.entered = s.run ∧
      (t.queue (queueKey c .rd 36)).entries = (s.queue (queueKey c .rd 36)).entries ++ [e] ∧
      (let i := rf t .colScrubPtr c 14 0
       scrubbable s c i = true ∧ e.use = .scrub i ∧ e.accs = (List.range 8).map (fun j => ⟨i / 8192, i / 2048 % 4 * 8 + j, i % 2048⟩)) ∧
      (scrubbable s c (rf s .colScrubPtr c 14 0) = true → RegsKept [] s t)) ∧
  (∀ (c : Nat) (l : RdLane) (s : State), Within s → c < 64 →
    (s.rdLanes.find? fun l => decide (l.col = c ∧ l.due ≤ s.run) && l.got.isSome &&
      (match l.use with | .scrub _ => true | _ => false)) = some l →
    let put := fun (g : Acc × Coded) => ([g.1], [g.2])
    let back := (s.col c).wbWait ++ (l.grans.filter fun g =>
      !(s.col c).wbCancel.contains g.1 && decide ((readRow g.2).ce ≠ 0)).map fun g => (g.1, corrected g.2)
    ∃ t es, exec (.scrubReadResult c) s = .next t ∧ t.rdLanes = s.rdLanes.filter (fun m => decide (m ≠ l)) ∧
      (t.queue (queueKey c .wr 36)).entries = (s.queue (queueKey c .wr 36)).entries ++ es ∧
      (∀ e ∈ es, e.use = .scrubWb ∧ e.at_ = s.run) ∧
      (bitOf (rg s .colScrubCtrl c) 16 = true →
        es.map (fun e => (e.accs, e.data)) ++ (t.col c).wbWait.map put = back.map put) ∧
      (bitOf (rg s .colScrubCtrl c) 16 = false → es = [] ∧ (t.col c).wbWait = (s.col c).wbWait) ∧
      ((∀ g ∈ l.finds, (readRow g.2).ce = 0 ∧ (readRow g.2).ue = 0) → RegsKept [] s t)) ∧
  (∀ (w : Who) (c i b r : Nat) (s : State), Running s → s.safe = false → FullView w → Granted s w →
    c < 64 → i < 4 → b < 32 → r < 2048 →
    (∀ e ∈ [(false, r, Instr.rowRemapRequest w c i b r), (true, 0, Instr.bankRetirementRequest w c i b)],
      let rep := fun (code : Nat) (q : List RemapReq) => ∃ t, exec e.2.2 s = .next t ∧ rf t .colRemapResult c 7 0 = code ∧
        (t.col c).remapQ = q ∧ RegsKept [(.colRemapResult, c)] s t
      (∀ code, remapRefusal s c e.1 i b e.2.1 = some code → rep code (s.col c).remapQ) ∧
      (remapRefusal s c e.1 i b e.2.1 = none → (s.col c).remapQ.length < 4 →
        rep 5 ((s.col c).remapQ ++ [⟨e.1, i, b, e.2.1, true⟩])) ∧
      (remapRefusal s c e.1 i b e.2.1 = none → 4 ≤ (s.col c).remapQ.length → rep 1 (s.col c).remapQ)) ∧
    (∃ t, exec (.remapKindReserved w c) s = .next t ∧ rf t .colRemapResult c 7 0 = 4 ∧ t.cols = s.cols)) ∧
  (∀ (c : Nat) (q : RemapReq) (rest : List RemapReq) (s : State), Running s → s.safe = false → mclkEdge s = true →
    (s.col c).copy = none →
    (s.col c).remapQ = q :: rest → tileOn s c q.tier = true → queueRoom s c .rd 36 = true → q.sw = false →
    quarantined s c = false → octetOut s c q.tier (q.bank / 8) = false →
    (∀ e, rowStep s c q.tier q.bank q.row = some e → ∃ t r, exec (.remapStart c) s = .next t ∧
      (t.col c).copy = some ⟨false, q.tier, q.bank, q.row, e, rowGen s c q.tier q.bank q.row + 1, false, .readQueued⟩ ∧
      (t.col c).remapQ = rest ∧ RegsKept [] s t ∧ r.use = .copyRd ∧ r.accs = [⟨q.tier, q.bank, q.row⟩] ∧
      (t.queue (queueKey c .rd 36)).entries = (s.queue (queueKey c .rd 36)).entries ++ [r]) ∧
    (∀ d, rowStep s c q.tier q.bank q.row = none → freeSpareBank (s.tile c q.tier) = some d →
      ∃ t, exec (.remapStart c) s = .next t ∧ (t.col c).remapQ = rest ∧ RegsKept [] s t ∧
        (t.col c).copy = some ⟨true, q.tier, q.bank, 0, d, 0, false, .readQueued⟩) ∧
    (rowStep s c q.tier q.bank q.row = none → freeSpareBank (s.tile c q.tier) = none → c < 64 →
      ∃ t, exec (.remapStart c) s = .next t ∧ octetOut t c q.tier (q.bank / 8) = true ∧ (t.col c).copy = none ∧
        bitOf (rg t .fuStat c) 5 = true)) ∧
  (∀ (c : Nat) (l : RdLane) (k : Copy) (a : Acc) (d : Coded) (gs : List (Acc × Coded)) (s : State), Within s →
    (s.rdLanes.find? fun l => decide (l.col = c ∧ l.use = .copyRd ∧ l.due ≤ s.run) && l.got.isSome) = some l →
    (s.col c).copy = some k → l.grans = (a, d) :: gs → queueRoom s c .wr 36 = true →
    ∃ t e, exec (.copyRowMerged c) s = .next t ∧ (t.col c).copy = some { k with phase := .writeQueued } ∧ l ∉ t.rdLanes ∧
      (t.queue (queueKey c .wr 36)).entries = (s.queue (queueKey c .wr 36)).entries ++ [e] ∧ e.use = .copyWr ∧
      e.accs = [copyTarget s c k a.row] ∧ e.data = [corrected d]) ∧
  (∀ (c : Nat) (k : Copy) (s : State), Within s → (s.col c).copy = some k → k.phase = .done →
    (k.retire = false → k.dst < 16 → ∃ t, exec (.remapSwitch c) s = .next t ∧ (t.col c).copy = none ∧
      (let sl := servingBank (s.tile c k.tier) k.bank
       spareRow t c k.tier sl k.dst = ⟨k.row, k.gen, true, false⟩ ∧
       (∀ e, servingSpare s c k.tier sl k.row = some e → e ≠ k.dst →
         (spareRow t c k.tier sl e).valid = false ∧ (spareRow t c k.tier sl e).dead = true)) ∧
      (c < 64 → k.sw = true → rf t .colRemapResult c 7 0 = 0)) ∧
    (k.retire = true → k.dst < 2 → k.bank < 32 → ∃ t, exec (.remapSwitch c) s = .next t ∧ (t.col c).copy = none ∧
      servingBank (t.tile c k.tier) k.bank = 32 + k.dst ∧
      ∀ e, e < 16 → (spareRow t c k.tier (32 + k.dst) e).valid = false))

/-! ### Power, resets, temperature -/

/-- A domain takes a target it may take, reaches it at the end of its transition; a tile that leaves ON copies no more (the model's
choice, log entry 55), one that returns from OFF holds zeros;
block retention is entered, woken from and left; cold reset leaves the reset state, warm reset resets every master and keeps
the array; a thermal sample is shown; past the rails nothing is guaranteed. -/
def Obligations.PowerAndResets : Prop :=
  (∀ (w : Who) (d : Nat) (v : Word) (s : State), Running s → FullView w → Granted s w → d < 301 →
    (domRefused s d (fld v 1 0) = true → ∃ t, exec (.domainTargetWrite w d v) s = .next t ∧
      bitOf (rg t .pwrDom d) 7 = true ∧ domTarget t d = domTarget s d ∧ t.domains = s.domains ∧
      RegsKept [(.pwrDom, d)] s t) ∧
    (domRefused s d (fld v 1 0) = false → ∃ t, exec (.domainTargetWrite w d v) s = .next t ∧
      bitOf (rg t .pwrDom d) 7 = false ∧ domTarget t d = fld v 1 0 ∧ RegsKept [(.pwrDom, d)] s t ∧
      ((dom s d).moving = none → (dom s d).st = 0 → fld v 1 0 ≠ 0 →
        (dom t d).moving = some (fld v 1 0, s.clk + domTime d 0 (fld v 1 0) * 4)))) ∧
  (∀ (d dest e : Nat) (s : State), Within s → (dom s d).moving = some (dest, e) → e ≤ s.clk →
    ∃ t, exec (.domainTransitionDone d) s = .next t ∧ (dom t d).st = dest ∧
      (¬(d < 256 ∧ (dom s d).st = 0) → RegsKept [] s t) ∧
      (d < 256 → (dom s d).st = 0 → ∀ k, (t.col (d % 64)).copy = some k → k.tier ≠ d / 64) ∧
      (domTarget s d = dest → (dom t d).moving = none) ∧
      (¬(d < 256 ∧ (dom s d).st = 2 ∧ dest = 0) → ArrayKept s t) ∧
      (d < 256 → (dom s d).st = 2 → dest = 0 →
        ∀ b, memByte t b = (if (tileRows (d / 64) (d % 64)).1 * 64 ≤ b ∧ b < (tileRows (d / 64) (d % 64)).2 * 64 then 0
          else memByte s b))) ∧
  (∀ (w : Who) (s : State), Running s → FullView w → Granted s w →
    (retainBusy s = true → ∃ t, exec (.retain w) s = .next t ∧ rf t .pwrResult 0 7 0 = 1 ∧ t.life = .ready) ∧
    (retainBusy s = false → (List.range 301).any (domBusy s) = false → s.safe = false →
      ∃ t, exec (.retain w) s = .next t ∧ rf t .pwrResult 0 7 0 = 4 ∧ t.life = .entering (s.clk + 512)) ∧
    (retainBusy s = false → (List.range 301).any (domBusy s) = true →
      ∃ t, exec (.retain w) s = .next t ∧ rf t .pwrResult 0 7 0 = 2 ∧ t.life = .ready) ∧
    (∃ t, exec (.wake w) s = .next t ∧ rf t .pwrResult 0 7 0 = 6 ∧ t.life = .ready) ∧
    (∃ t, exec (.pwrOpReserved w) s = .next t ∧ rf t .pwrResult 0 7 0 = 3 ∧ t.life = .ready ∧
      RegsKept [(.pwrResult, 0)] s t)) ∧
  (∀ (w : Who) (s : State), Within s → FullView w → Granted s w → s.life = .retained →
    (∃ t, exec (.wake w) s = .next t ∧ rf t .pwrResult 0 7 0 = 4 ∧
      t.life = .leaving (s.clk + exitTime s * 4) (s.clk + 1024)) ∧
    (bitOf (rg s .pwrCtrl) 8 = true → ∃ t, exec .wakePin s = .next t ∧ rf t .pwrResult 0 7 0 = 4 ∧
      t.life = .leaving (s.clk + exitTime s * 4) (s.clk + 1024))) ∧
  (∀ (e : Nat) (s : State), Within s → s.life = .entering e → e ≤ s.clk → s.wake = false → s.warmNext = false →
    ∃ t, exec .retentionEntered s = .next t ∧ t.life = .retained ∧ rf t .pwrResult 0 7 0 = 0 ∧
      (∀ d, d < 301 → (dom s d).st = 0 → dom t d = ⟨if d < 272 ∨ d = 300 then 1 else 2, none⟩)) ∧
  (∀ (e c : Nat) (s : State), Within s → s.life = .leaving e c → e ≤ s.clk → aclkEdge s = true → s.warmNext = false →
    ∃ t, exec .retentionExitDone s = .next t ∧ t.life = .ready ∧ t.wheelPos = 0 ∧ rf t .pwrResult 0 7 0 = 0 ∧
      (∀ d, d < 301 → dom t d = ⟨rf s .pwrDom d 9 8, none⟩) ∧ ArrayKept s t) ∧
  (∀ s : State, exec .coldReset s =
    .next { State.reset with life := .coldHeld, free := s.free, pending := s.pending }) ∧
  (∀ s : State, s.life = .warmHeld → exec .resetKindChange s = exec .coldReset s) ∧
  (∀ s : State, s.life = .coldHeld → exec .coldResetRelease s = .next { s with life := .starting }) ∧
  (∀ s : State, Within s → s.life = .starting → 331200 ≤ s.clk →
    ∃ t, exec .selfTestComplete s = .next t ∧ t.life = .ready ∧ t.clk = s.clk ∧ ArrayKept s t) ∧
  (∀ s : State, Within s → s.life = .ready →
    ∃ t, exec .warmReset s = .next t ∧ t.life = .warmHeld ∧ (∀ m, m < 36 → (t.rst m).active = true) ∧ t.intPend = 0 ∧
      t.intOwner = [] ∧ rf t .pwrRst 0 1 0 = 2 ∧ ArrayKept s t) ∧
  (∀ (wheel : Bool) (s : State), Within s → (wheel = true ∧ s.life = .warmHeld ∨ s.life = .warmBusy wheel) →
    ∃ t, exec .warmResetComplete s = .next t ∧ ArrayKept s t ∧ RegsKept [] s t ∧
      (aclkEdge s = false → t.life = .warmBusy wheel ∧ t.wheelPos = s.wheelPos) ∧
      (aclkEdge s = true → t.wheelPos = (if wheel then 0 else s.wheelPos) ∧
        t.life = (if warmDone s then .ready else .warmBusy false))) ∧
  (∀ (temps : List (BitVec 8)) (s : State), Within s →
    ∃ t, exec (.thermalSample temps) s = .next t ∧
      (∀ i x, i < 64 → temps[i]? = some x → (rg t .thmTs i).toNat = x.toNat + 256) ∧
      (∀ i x, i < 64 → 64 ≤ temps.length → temps[i]? = some x → x.toInt ≤ (BitVec.ofNat 8 (rf t .thmStat 0 7 0)).toInt) ∧
      (∀ id i, i < 1048576 → id ≠ .thmTs → id ≠ .thmStat → rg t id i = rg s id i)) ∧
  (∀ s : State, s.life ≠ .coldHeld → exec .railLeavesTolerance s = .next { s with railsLost := true })
end

