-- ==== Sys2Proof/Laws/Tab.lean ====
section
/-! SUPPORT. Sparse tables: what a read gives after a write, and that writes keep the canonical form. -/

namespace Sys2Proof.Tab

variable {α : Type}

@[simp] theorem get_nil (d : Nat → α) (k : Nat) : get d [] k = d k := rfl

theorem get_cons (d : Nat → α) (i k : Nat) (v : α) (t : Tab α) :
    get d ((i, v) :: t) k = if i = k then v else get d t k := rfl

theorem get_put (d : Nat → α) (k j : Nat) (v : α) (t : Tab α) :
    get d (put k v t) j = if k = j then v else get d t j := by
  induction t with
  | nil => simp [put, get]
  | cons e t ih =>
    obtain ⟨i, w⟩ := e
    simp only [put]
    split
    · simp [get]
    · split
      · subst_vars; simp only [get]; split <;> rfl
      · simp only [get, ih]
        split <;> split <;> first | rfl | omega

theorem get_filter (d : Nat → α) (p : Nat → Bool) (t : Tab α) (j : Nat) (h : p j = true) :
    get d (t.filter fun e => p e.1) j = get d t j := by
  induction t with
  | nil => rfl
  | cons e t ih =>
    obtain ⟨i, w⟩ := e
    by_cases hi : p i = true
    · simp [hi, get, ih]
    · rw [List.filter_cons_of_neg (by simpa using hi), ih]
      have : i ≠ j := fun hij => hi (hij ▸ h)
      simp [get, this]

theorem get_filter_out (d : Nat → α) (p : Nat → Bool) (t : Tab α) (j : Nat) (h : p j = false) :
    get d (t.filter fun e => p e.1) j = d j := by
  induction t with
  | nil => rfl
  | cons e t ih =>
    obtain ⟨i, w⟩ := e
    by_cases hi : p i = true
    · have : i ≠ j := fun hij => by simp [hij, h] at hi
      simp [hi, get, ih, this]
    · rw [List.filter_cons_of_neg (by simpa using hi), ih]

theorem get_del (d : Nat → α) (k j : Nat) (t : Tab α) :
    get d (del k t) j = if k = j then d j else get d t j := by
  by_cases h : k = j
  · subst h; rw [if_pos rfl]; exact get_filter_out d (fun i => decide (i ≠ k)) t k (by simp)
  · rw [if_neg h]; exact get_filter d (fun i => decide (i ≠ k)) t j (by simp [Ne.symm h])

/-- A read after a write gives the value written at its index and what it gave before elsewhere, on any list. -/
theorem get_set [DecidableEq α] (d : Nat → α) (t : Tab α) (k j : Nat) (v : α) :
    get d (set d t k v) j = if k = j then v else get d t j := by
  unfold set
  split
  · rename_i h; rw [get_del]; split <;> simp_all
  · exact get_put d k j v t

@[simp] theorem get_set_same [DecidableEq α] (d : Nat → α) (t : Tab α) (k : Nat) (v : α) :
    get d (set d t k v) k = v := by simp [get_set]

theorem get_set_other [DecidableEq α] (d : Nat → α) (t : Tab α) {k j : Nat} (v : α) (h : k ≠ j) :
    get d (set d t k v) j = get d t j := by simp [get_set, h]

/-- The same under another default, where only one index of the table is asked for: what registers of one file do. -/
theorem get_set_ne [DecidableEq α] (d d' : Nat → α) (t : Tab α) {k j : Nat} (v : α) (h : k ≠ j) :
    get d' (set d t k v) j = get d' t j := by
  unfold set
  split
  · exact (get_del d' k j t).trans (if_neg h)
  · exact (get_put d' k j v t).trans (if_neg h)

/-- Indices strictly rise, as a pairwise relation. -/
theorem sorted_iff (t : Tab α) : sorted t = true ↔ t.Pairwise fun e f => e.1 < f.1 := by
  induction t with
  | nil => simp [sorted]
  | cons e t ih =>
    cases t with
    | nil => simp [sorted]
    | cons f t =>
      simp only [sorted, Bool.and_eq_true, decide_eq_true_eq, ih]
      constructor
      · rintro ⟨h, p⟩
        refine List.pairwise_cons.2 ⟨fun g hg => ?_, p⟩
        rcases List.mem_cons.1 hg with rfl | hg
        · exact h
        · exact Nat.lt_trans h ((List.pairwise_cons.1 p).1 g hg)
      · intro p
        exact ⟨(List.pairwise_cons.1 p).1 f (by simp), (List.pairwise_cons.1 p).2⟩

theorem mem_put {k : Nat} {v : α} {t : Tab α} {e : Nat × α} (h : e ∈ put k v t) : e = (k, v) ∨ e ∈ t := by
  induction t with
  | nil => simpa [put] using h
  | cons f t ih =>
    obtain ⟨i, w⟩ := f
    simp only [put] at h
    split at h
    · simpa using h
    · split at h
      · rcases List.mem_cons.1 h with h | h
        · exact .inl h
        · exact .inr (List.mem_cons_of_mem _ h)
      · rcases List.mem_cons.1 h with h | h
        · exact .inr (by simp [h])
        · exact (ih h).imp_right (List.mem_cons_of_mem _)

theorem sorted_put (k : Nat) (v : α) (t : Tab α) (h : sorted t = true) : sorted (put k v t) = true := by
  rw [sorted_iff] at h ⊢
  induction t with
  | nil => simp [put]
  | cons e t ih =>
    obtain ⟨i, w⟩ := e
    obtain ⟨h1, h2⟩ := List.pairwise_cons.1 h
    simp only [put]
    split
    · rename_i hk
      refine List.pairwise_cons.2 ⟨fun g hg => ?_, h⟩
      rcases List.mem_cons.1 hg with rfl | hg
      · exact hk
      · exact Nat.lt_trans hk (h1 g hg)
    · split
      · subst_vars; exact List.pairwise_cons.2 ⟨h1, h2⟩
      · refine List.pairwise_cons.2 ⟨fun g hg => ?_, ih h2⟩
        rcases mem_put hg with rfl | hg
        · simp only; omega
        · exact h1 g hg

theorem sorted_filter (p : Nat × α → Bool) (t : Tab α) (h : sorted t = true) : sorted (t.filter p) = true := by
  rw [sorted_iff] at h ⊢
  exact h.filter p

/-- Taking entries out keeps the canonical form. -/
theorem wf_filter [DecidableEq α] (d : Nat → α) (p : Nat × α → Bool) (t : Tab α) (h : wf d t = true) :
    wf d (t.filter p) = true := by
  simp only [wf, Bool.and_eq_true, tight, List.all_eq_true] at h ⊢
  exact ⟨sorted_filter p t h.1, fun e he => h.2 e (List.mem_filter.1 he).1⟩

/-- A write keeps the canonical form. -/
theorem wf_set [DecidableEq α] (d : Nat → α) (t : Tab α) (k : Nat) (v : α) (h : wf d t = true) :
    wf d (set d t k v) = true := by
  unfold set
  split
  · exact wf_filter d _ t h
  · rename_i hv
    simp only [wf, Bool.and_eq_true, tight, List.all_eq_true] at h ⊢
    refine ⟨sorted_put k v t h.1, fun e he => ?_⟩
    rcases mem_put he with rfl | he
    · simpa using hv
    · exact h.2 e he

@[simp] theorem wf_nil [DecidableEq α] (d : Nat → α) : wf d [] = true := rfl

/-- An entry of a sorted table is what its index reads as. -/
theorem get_of_mem (d : Nat → α) (t : Tab α) (h : sorted t = true) {e : Nat × α} (he : e ∈ t) : get d t e.1 = e.2 := by
  rw [sorted_iff] at h
  induction t with
  | nil => simp at he
  | cons f t ih =>
    obtain ⟨i, w⟩ := f
    obtain ⟨h1, h2⟩ := List.pairwise_cons.1 h
    rcases List.mem_cons.1 he with rfl | he
    · simp [get]
    · have := h1 e he
      simp only at this
      rw [get_cons, if_neg (by omega), ih h2 he]

end Sys2Proof.Tab
end

