-- ==== Sys2Proof/Laws/State.lean ====
section
/-! SUPPORT. One lemma for each field that an update of State leaves alone, true by rfl, and one for what the update's own
table reads after it. -/

namespace Sys2Proof.Machine

variable (s : State)

section
variable (id : RegId) (i : Nat) (v : Word)
@[simp] theorem setRg_pending : (setRg s id i v).pending = s.pending := rfl
@[simp] theorem setRg_clk : (setRg s id i v).clk = s.clk := rfl
@[simp] theorem setRg_run : (setRg s id i v).run = s.run := rfl
@[simp] theorem setRg_late : (setRg s id i v).late = s.late := rfl
@[simp] theorem setRg_heldFrom : (setRg s id i v).heldFrom = s.heldFrom := rfl
@[simp] theorem setRg_heldTo : (setRg s id i v).heldTo = s.heldTo := rfl
@[simp] theorem setRg_skipNext : (setRg s id i v).skipNext = s.skipNext := rfl
@[simp] theorem setRg_levelNow : (setRg s id i v).levelNow = s.levelNow := rfl
@[simp] theorem setRg_levelNext : (setRg s id i v).levelNext = s.levelNext := rfl
@[simp] theorem setRg_dwell : (setRg s id i v).dwell = s.dwell := rfl
@[simp] theorem setRg_life : (setRg s id i v).life = s.life := rfl
@[simp] theorem setRg_railsLost : (setRg s id i v).railsLost = s.railsLost := rfl
@[simp] theorem setRg_wake : (setRg s id i v).wake = s.wake := rfl
@[simp] theorem setRg_warmNext : (setRg s id i v).warmNext = s.warmNext := rfl
@[simp] theorem setRg_regsA : (setRg s id i v).regsA = s.regsA := rfl
@[simp] theorem setRg_chainRegs : (setRg s id i v).chainRegs = s.chainRegs := rfl
@[simp] theorem setRg_regsB1 : (setRg s id i v).regsB1 = s.regsB1 := rfl
@[simp] theorem setRg_regsB2 : (setRg s id i v).regsB2 = s.regsB2 := rfl
@[simp] theorem setRg_regsM1 : (setRg s id i v).regsM1 = s.regsM1 := rfl
@[simp] theorem setRg_regsM2 : (setRg s id i v).regsM2 = s.regsM2 := rfl
@[simp] theorem setRg_regsM3 : (setRg s id i v).regsM3 = s.regsM3 := rfl
@[simp] theorem setRg_mem : (setRg s id i v).mem = s.mem := rfl
@[simp] theorem setRg_ups : (setRg s id i v).ups = s.ups := rfl
@[simp] theorem setRg_upsOther : (setRg s id i v).upsOther = s.upsOther := rfl
@[simp] theorem setRg_tiles : (setRg s id i v).tiles = s.tiles := rfl
@[simp] theorem setRg_spares : (setRg s id i v).spares = s.spares := rfl
@[simp] theorem setRg_cols : (setRg s id i v).cols = s.cols := rfl
@[simp] theorem setRg_wheelPos : (setRg s id i v).wheelPos = s.wheelPos := rfl
@[simp] theorem setRg_turns : (setRg s id i v).turns = s.turns := rfl
@[simp] theorem setRg_wheelSet : (setRg s id i v).wheelSet = s.wheelSet := rfl
@[simp] theorem setRg_wheelPend : (setRg s id i v).wheelPend = s.wheelPend := rfl
@[simp] theorem setRg_wheelReq : (setRg s id i v).wheelReq = s.wheelReq := rfl
@[simp] theorem setRg_wheels : (setRg s id i v).wheels = s.wheels := rfl
@[simp] theorem setRg_lfsrPrev : (setRg s id i v).lfsrPrev = s.lfsrPrev := rfl
@[simp] theorem setRg_queues : (setRg s id i v).queues = s.queues := rfl
@[simp] theorem setRg_lots : (setRg s id i v).lots = s.lots := rfl
@[simp] theorem setRg_starving : (setRg s id i v).starving = s.starving := rfl
@[simp] theorem setRg_rdLanes : (setRg s id i v).rdLanes = s.rdLanes := rfl
@[simp] theorem setRg_wrLanes : (setRg s id i v).wrLanes = s.wrLanes := rfl
@[simp] theorem setRg_slotRd : (setRg s id i v).slotRd = s.slotRd := rfl
@[simp] theorem setRg_slotWr : (setRg s id i v).slotWr = s.slotWr := rfl
@[simp] theorem setRg_slotRdOut : (setRg s id i v).slotRdOut = s.slotRdOut := rfl
@[simp] theorem setRg_slotWrOut : (setRg s id i v).slotWrOut = s.slotWrOut := rfl
@[simp] theorem setRg_scalars : (setRg s id i v).scalars = s.scalars := rfl
@[simp] theorem setRg_nextScalar : (setRg s id i v).nextScalar = s.nextScalar := rfl
@[simp] theorem setRg_scalarOut : (setRg s id i v).scalarOut = s.scalarOut := rfl
@[simp] theorem setRg_rsts : (setRg s id i v).rsts = s.rsts := rfl
@[simp] theorem setRg_links : (setRg s id i v).links = s.links := rfl
@[simp] theorem setRg_wins : (setRg s id i v).wins = s.wins := rfl
@[simp] theorem setRg_decay : (setRg s id i v).decay = s.decay := rfl
@[simp] theorem setRg_sats : (setRg s id i v).sats = s.sats := rfl
@[simp] theorem setRg_satMem : (setRg s id i v).satMem = s.satMem := rfl
@[simp] theorem setRg_satOut : (setRg s id i v).satOut = s.satOut := rfl
@[simp] theorem setRg_hops : (setRg s id i v).hops = s.hops := rfl
@[simp] theorem setRg_caravans : (setRg s id i v).caravans = s.caravans := rfl
@[simp] theorem setRg_store : (setRg s id i v).store = s.store := rfl
@[simp] theorem setRg_agents : (setRg s id i v).agents = s.agents := rfl
@[simp] theorem setRg_ctxs : (setRg s id i v).ctxs = s.ctxs := rfl
@[simp] theorem setRg_pieces : (setRg s id i v).pieces = s.pieces := rfl
@[simp] theorem setRg_nextSq : (setRg s id i v).nextSq = s.nextSq := rfl
@[simp] theorem setRg_bursts : (setRg s id i v).bursts = s.bursts := rfl
@[simp] theorem setRg_exports : (setRg s id i v).exports = s.exports := rfl
@[simp] theorem setRg_rr : (setRg s id i v).rr = s.rr := rfl
@[simp] theorem setRg_axiLast : (setRg s id i v).axiLast = s.axiLast := rfl
@[simp] theorem setRg_aborts : (setRg s id i v).aborts = s.aborts := rfl
@[simp] theorem setRg_farHold : (setRg s id i v).farHold = s.farHold := rfl
@[simp] theorem setRg_pmaps : (setRg s id i v).pmaps = s.pmaps := rfl
@[simp] theorem setRg_pmapOp : (setRg s id i v).pmapOp = s.pmapOp := rfl
@[simp] theorem setRg_pmapHeld : (setRg s id i v).pmapHeld = s.pmapHeld := rfl
@[simp] theorem setRg_escq : (setRg s id i v).escq = s.escq := rfl
@[simp] theorem setRg_nextEsc : (setRg s id i v).nextEsc = s.nextEsc := rfl
@[simp] theorem setRg_metas : (setRg s id i v).metas = s.metas := rfl
@[simp] theorem setRg_tallies : (setRg s id i v).tallies = s.tallies := rfl
@[simp] theorem setRg_tallyMem : (setRg s id i v).tallyMem = s.tallyMem := rfl
@[simp] theorem setRg_tallyOut : (setRg s id i v).tallyOut = s.tallyOut := rfl
@[simp] theorem setRg_bells : (setRg s id i v).bells = s.bells := rfl
@[simp] theorem setRg_bellOps : (setRg s id i v).bellOps = s.bellOps := rfl
@[simp] theorem setRg_tkHeld : (setRg s id i v).tkHeld = s.tkHeld := rfl
@[simp] theorem setRg_sbox : (setRg s id i v).sbox = s.sbox := rfl
@[simp] theorem setRg_sboxWait : (setRg s id i v).sboxWait = s.sboxWait := rfl
@[simp] theorem setRg_sboxAns : (setRg s id i v).sboxAns = s.sboxAns := rfl
@[simp] theorem setRg_sboxBusy : (setRg s id i v).sboxBusy = s.sboxBusy := rfl
@[simp] theorem setRg_reapSet : (setRg s id i v).reapSet = s.reapSet := rfl
@[simp] theorem setRg_reapEnter : (setRg s id i v).reapEnter = s.reapEnter := rfl
@[simp] theorem setRg_reapAt : (setRg s id i v).reapAt = s.reapAt := rfl
@[simp] theorem setRg_reapMark : (setRg s id i v).reapMark = s.reapMark := rfl
@[simp] theorem setRg_reapSince : (setRg s id i v).reapSince = s.reapSince := rfl
@[simp] theorem setRg_reapEnd : (setRg s id i v).reapEnd = s.reapEnd := rfl
@[simp] theorem setRg_reapMarked : (setRg s id i v).reapMarked = s.reapMarked := rfl
@[simp] theorem setRg_wipeEnd : (setRg s id i v).wipeEnd = s.wipeEnd := rfl
@[simp] theorem setRg_lcKnown : (setRg s id i v).lcKnown = s.lcKnown := rfl
@[simp] theorem setRg_fus : (setRg s id i v).fus = s.fus := rfl
@[simp] theorem setRg_safe : (setRg s id i v).safe = s.safe := rfl
@[simp] theorem setRg_safeAt : (setRg s id i v).safeAt = s.safeAt := rfl
@[simp] theorem setRg_errPulse : (setRg s id i v).errPulse = s.errPulse := rfl
@[simp] theorem setRg_errWant : (setRg s id i v).errWant = s.errWant := rfl
@[simp] theorem setRg_intPend : (setRg s id i v).intPend = s.intPend := rfl
@[simp] theorem setRg_intLine : (setRg s id i v).intLine = s.intLine := rfl
@[simp] theorem setRg_intPulse : (setRg s id i v).intPulse = s.intPulse := rfl
@[simp] theorem setRg_intOwner : (setRg s id i v).intOwner = s.intOwner := rfl
@[simp] theorem setRg_intSel : (setRg s id i v).intSel = s.intSel := rfl
@[simp] theorem setRg_asleep : (setRg s id i v).asleep = s.asleep := rfl
@[simp] theorem setRg_caps : (setRg s id i v).caps = s.caps := rfl
@[simp] theorem setRg_captures : (setRg s id i v).captures = s.captures := rfl
@[simp] theorem setRg_ledgerCaps : (setRg s id i v).ledgerCaps = s.ledgerCaps := rfl
@[simp] theorem setRg_answers : (setRg s id i v).answers = s.answers := rfl
@[simp] theorem setRg_parked : (setRg s id i v).parked = s.parked := rfl
@[simp] theorem setRg_gate : (setRg s id i v).gate = s.gate := rfl
@[simp] theorem setRg_turn : (setRg s id i v).turn = s.turn := rfl
@[simp] theorem setRg_loader : (setRg s id i v).loader = s.loader := rfl
@[simp] theorem setRg_sealed_ : (setRg s id i v).sealed_ = s.sealed_ := rfl
@[simp] theorem setRg_sealWant : (setRg s id i v).sealWant = s.sealWant := rfl
@[simp] theorem setRg_domains : (setRg s id i v).domains = s.domains := rfl
@[simp] theorem setRg_free : (setRg s id i v).free = s.free := rfl
end

section
variable (id : RegId) (i h l v : Nat)
@[simp] theorem setRf_pending : (setRf s id i h l v).pending = s.pending := rfl
@[simp] theorem setRf_clk : (setRf s id i h l v).clk = s.clk := rfl
@[simp] theorem setRf_run : (setRf s id i h l v).run = s.run := rfl
@[simp] theorem setRf_late : (setRf s id i h l v).late = s.late := rfl
@[simp] theorem setRf_heldFrom : (setRf s id i h l v).heldFrom = s.heldFrom := rfl
@[simp] theorem setRf_heldTo : (setRf s id i h l v).heldTo = s.heldTo := rfl
@[simp] theorem setRf_skipNext : (setRf s id i h l v).skipNext = s.skipNext := rfl
@[simp] theorem setRf_levelNow : (setRf s id i h l v).levelNow = s.levelNow := rfl
@[simp] theorem setRf_levelNext : (setRf s id i h l v).levelNext = s.levelNext := rfl
@[simp] theorem setRf_dwell : (setRf s id i h l v).dwell = s.dwell := rfl
@[simp] theorem setRf_life : (setRf s id i h l v).life = s.life := rfl
@[simp] theorem setRf_railsLost : (setRf s id i h l v).railsLost = s.railsLost := rfl
@[simp] theorem setRf_wake : (setRf s id i h l v).wake = s.wake := rfl
@[simp] theorem setRf_warmNext : (setRf s id i h l v).warmNext = s.warmNext := rfl
@[simp] theorem setRf_regsA : (setRf s id i h l v).regsA = s.regsA := rfl
@[simp] theorem setRf_chainRegs : (setRf s id i h l v).chainRegs = s.chainRegs := rfl
@[simp] theorem setRf_regsB1 : (setRf s id i h l v).regsB1 = s.regsB1 := rfl
@[simp] theorem setRf_regsB2 : (setRf s id i h l v).regsB2 = s.regsB2 := rfl
@[simp] theorem setRf_regsM1 : (setRf s id i h l v).regsM1 = s.regsM1 := rfl
@[simp] theorem setRf_regsM2 : (setRf s id i h l v).regsM2 = s.regsM2 := rfl
@[simp] theorem setRf_regsM3 : (setRf s id i h l v).regsM3 = s.regsM3 := rfl
@[simp] theorem setRf_mem : (setRf s id i h l v).mem = s.mem := rfl
@[simp] theorem setRf_ups : (setRf s id i h l v).ups = s.ups := rfl
@[simp] theorem setRf_upsOther : (setRf s id i h l v).upsOther = s.upsOther := rfl
@[simp] theorem setRf_tiles : (setRf s id i h l v).tiles = s.tiles := rfl
@[simp] theorem setRf_spares : (setRf s id i h l v).spares = s.spares := rfl
@[simp] theorem setRf_cols : (setRf s id i h l v).cols = s.cols := rfl
@[simp] theorem setRf_wheelPos : (setRf s id i h l v).wheelPos = s.wheelPos := rfl
@[simp] theorem setRf_turns : (setRf s id i h l v).turns = s.turns := rfl
@[simp] theorem setRf_wheelSet : (setRf s id i h l v).wheelSet = s.wheelSet := rfl
@[simp] theorem setRf_wheelPend : (setRf s id i h l v).wheelPend = s.wheelPend := rfl
@[simp] theorem setRf_wheelReq : (setRf s id i h l v).wheelReq = s.wheelReq := rfl
@[simp] theorem setRf_wheels : (setRf s id i h l v).wheels = s.wheels := rfl
@[simp] theorem setRf_lfsrPrev : (setRf s id i h l v).lfsrPrev = s.lfsrPrev := rfl
@[simp] theorem setRf_queues : (setRf s id i h l v).queues = s.queues := rfl
@[simp] theorem setRf_lots : (setRf s id i h l v).lots = s.lots := rfl
@[simp] theorem setRf_starving : (setRf s id i h l v).starving = s.starving := rfl
@[simp] theorem setRf_rdLanes : (setRf s id i h l v).rdLanes = s.rdLanes := rfl
@[simp] theorem setRf_wrLanes : (setRf s id i h l v).wrLanes = s.wrLanes := rfl
@[simp] theorem setRf_slotRd : (setRf s id i h l v).slotRd = s.slotRd := rfl
@[simp] theorem setRf_slotWr : (setRf s id i h l v).slotWr = s.slotWr := rfl
@[simp] theorem setRf_slotRdOut : (setRf s id i h l v).slotRdOut = s.slotRdOut := rfl
@[simp] theorem setRf_slotWrOut : (setRf s id i h l v).slotWrOut = s.slotWrOut := rfl
@[simp] theorem setRf_scalars : (setRf s id i h l v).scalars = s.scalars := rfl
@[simp] theorem setRf_nextScalar : (setRf s id i h l v).nextScalar = s.nextScalar := rfl
@[simp] theorem setRf_scalarOut : (setRf s id i h l v).scalarOut = s.scalarOut := rfl
@[simp] theorem setRf_rsts : (setRf s id i h l v).rsts = s.rsts := rfl
@[simp] theorem setRf_links : (setRf s id i h l v).links = s.links := rfl
@[simp] theorem setRf_wins : (setRf s id i h l v).wins = s.wins := rfl
@[simp] theorem setRf_decay : (setRf s id i h l v).decay = s.decay := rfl
@[simp] theorem setRf_sats : (setRf s id i h l v).sats = s.sats := rfl
@[simp] theorem setRf_satMem : (setRf s id i h l v).satMem = s.satMem := rfl
@[simp] theorem setRf_satOut : (setRf s id i h l v).satOut = s.satOut := rfl
@[simp] theorem setRf_hops : (setRf s id i h l v).hops = s.hops := rfl
@[simp] theorem setRf_caravans : (setRf s id i h l v).caravans = s.caravans := rfl
@[simp] theorem setRf_store : (setRf s id i h l v).store = s.store := rfl
@[simp] theorem setRf_agents : (setRf s id i h l v).agents = s.agents := rfl
@[simp] theorem setRf_ctxs : (setRf s id i h l v).ctxs = s.ctxs := rfl
@[simp] theorem setRf_pieces : (setRf s id i h l v).pieces = s.pieces := rfl
@[simp] theorem setRf_nextSq : (setRf s id i h l v).nextSq = s.nextSq := rfl
@[simp] theorem setRf_bursts : (setRf s id i h l v).bursts = s.bursts := rfl
@[simp] theorem setRf_exports : (setRf s id i h l v).exports = s.exports := rfl
@[simp] theorem setRf_rr : (setRf s id i h l v).rr = s.rr := rfl
@[simp] theorem setRf_axiLast : (setRf s id i h l v).axiLast = s.axiLast := rfl
@[simp] theorem setRf_aborts : (setRf s id i h l v).aborts = s.aborts := rfl
@[simp] theorem setRf_farHold : (setRf s id i h l v).farHold = s.farHold := rfl
@[simp] theorem setRf_pmaps : (setRf s id i h l v).pmaps = s.pmaps := rfl
@[simp] theorem setRf_pmapOp : (setRf s id i h l v).pmapOp = s.pmapOp := rfl
@[simp] theorem setRf_pmapHeld : (setRf s id i h l v).pmapHeld = s.pmapHeld := rfl
@[simp] theorem setRf_escq : (setRf s id i h l v).escq = s.escq := rfl
@[simp] theorem setRf_nextEsc : (setRf s id i h l v).nextEsc = s.nextEsc := rfl
@[simp] theorem setRf_metas : (setRf s id i h l v).metas = s.metas := rfl
@[simp] theorem setRf_tallies : (setRf s id i h l v).tallies = s.tallies := rfl
@[simp] theorem setRf_tallyMem : (setRf s id i h l v).tallyMem = s.tallyMem := rfl
@[simp] theorem setRf_tallyOut : (setRf s id i h l v).tallyOut = s.tallyOut := rfl
@[simp] theorem setRf_bells : (setRf s id i h l v).bells = s.bells := rfl
@[simp] theorem setRf_bellOps : (setRf s id i h l v).bellOps = s.bellOps := rfl
@[simp] theorem setRf_tkHeld : (setRf s id i h l v).tkHeld = s.tkHeld := rfl
@[simp] theorem setRf_sbox : (setRf s id i h l v).sbox = s.sbox := rfl
@[simp] theorem setRf_sboxWait : (setRf s id i h l v).sboxWait = s.sboxWait := rfl
@[simp] theorem setRf_sboxAns : (setRf s id i h l v).sboxAns = s.sboxAns := rfl
@[simp] theorem setRf_sboxBusy : (setRf s id i h l v).sboxBusy = s.sboxBusy := rfl
@[simp] theorem setRf_reapSet : (setRf s id i h l v).reapSet = s.reapSet := rfl
@[simp] theorem setRf_reapEnter : (setRf s id i h l v).reapEnter = s.reapEnter := rfl
@[simp] theorem setRf_reapAt : (setRf s id i h l v).reapAt = s.reapAt := rfl
@[simp] theorem setRf_reapMark : (setRf s id i h l v).reapMark = s.reapMark := rfl
@[simp] theorem setRf_reapSince : (setRf s id i h l v).reapSince = s.reapSince := rfl
@[simp] theorem setRf_reapEnd : (setRf s id i h l v).reapEnd = s.reapEnd := rfl
@[simp] theorem setRf_reapMarked : (setRf s id i h l v).reapMarked = s.reapMarked := rfl
@[simp] theorem setRf_wipeEnd : (setRf s id i h l v).wipeEnd = s.wipeEnd := rfl
@[simp] theorem setRf_lcKnown : (setRf s id i h l v).lcKnown = s.lcKnown := rfl
@[simp] theorem setRf_fus : (setRf s id i h l v).fus = s.fus := rfl
@[simp] theorem setRf_safe : (setRf s id i h l v).safe = s.safe := rfl
@[simp] theorem setRf_safeAt : (setRf s id i h l v).safeAt = s.safeAt := rfl
@[simp] theorem setRf_errPulse : (setRf s id i h l v).errPulse = s.errPulse := rfl
@[simp] theorem setRf_errWant : (setRf s id i h l v).errWant = s.errWant := rfl
@[simp] theorem setRf_intPend : (setRf s id i h l v).intPend = s.intPend := rfl
@[simp] theorem setRf_intLine : (setRf s id i h l v).intLine = s.intLine := rfl
@[simp] theorem setRf_intPulse : (setRf s id i h l v).intPulse = s.intPulse := rfl
@[simp] theorem setRf_intOwner : (setRf s id i h l v).intOwner = s.intOwner := rfl
@[simp] theorem setRf_intSel : (setRf s id i h l v).intSel = s.intSel := rfl
@[simp] theorem setRf_asleep : (setRf s id i h l v).asleep = s.asleep := rfl
@[simp] theorem setRf_caps : (setRf s id i h l v).caps = s.caps := rfl
@[simp] theorem setRf_captures : (setRf s id i h l v).captures = s.captures := rfl
@[simp] theorem setRf_ledgerCaps : (setRf s id i h l v).ledgerCaps = s.ledgerCaps := rfl
@[simp] theorem setRf_answers : (setRf s id i h l v).answers = s.answers := rfl
@[simp] theorem setRf_parked : (setRf s id i h l v).parked = s.parked := rfl
@[simp] theorem setRf_gate : (setRf s id i h l v).gate = s.gate := rfl
@[simp] theorem setRf_turn : (setRf s id i h l v).turn = s.turn := rfl
@[simp] theorem setRf_loader : (setRf s id i h l v).loader = s.loader := rfl
@[simp] theorem setRf_sealed_ : (setRf s id i h l v).sealed_ = s.sealed_ := rfl
@[simp] theorem setRf_sealWant : (setRf s id i h l v).sealWant = s.sealWant := rfl
@[simp] theorem setRf_domains : (setRf s id i h l v).domains = s.domains := rfl
@[simp] theorem setRf_free : (setRf s id i h l v).free = s.free := rfl
end

section
variable (id : RegId) (i h l n : Nat)
@[simp] theorem bump_pending : (bump s id i h l n).pending = s.pending := rfl
@[simp] theorem bump_clk : (bump s id i h l n).clk = s.clk := rfl
@[simp] theorem bump_run : (bump s id i h l n).run = s.run := rfl
@[simp] theorem bump_late : (bump s id i h l n).late = s.late := rfl
@[simp] theorem bump_heldFrom : (bump s id i h l n).heldFrom = s.heldFrom := rfl
@[simp] theorem bump_heldTo : (bump s id i h l n).heldTo = s.heldTo := rfl
@[simp] theorem bump_skipNext : (bump s id i h l n).skipNext = s.skipNext := rfl
@[simp] theorem bump_levelNow : (bump s id i h l n).levelNow = s.levelNow := rfl
@[simp] theorem bump_levelNext : (bump s id i h l n).levelNext = s.levelNext := rfl
@[simp] theorem bump_dwell : (bump s id i h l n).dwell = s.dwell := rfl
@[simp] theorem bump_life : (bump s id i h l n).life = s.life := rfl
@[simp] theorem bump_railsLost : (bump s id i h l n).railsLost = s.railsLost := rfl
@[simp] theorem bump_wake : (bump s id i h l n).wake = s.wake := rfl
@[simp] theorem bump_warmNext : (bump s id i h l n).warmNext = s.warmNext := rfl
@[simp] theorem bump_regsA : (bump s id i h l n).regsA = s.regsA := rfl
@[simp] theorem bump_chainRegs : (bump s id i h l n).chainRegs = s.chainRegs := rfl
@[simp] theorem bump_regsB1 : (bump s id i h l n).regsB1 = s.regsB1 := rfl
@[simp] theorem bump_regsB2 : (bump s id i h l n).regsB2 = s.regsB2 := rfl
@[simp] theorem bump_regsM1 : (bump s id i h l n).regsM1 = s.regsM1 := rfl
@[simp] theorem bump_regsM2 : (bump s id i h l n).regsM2 = s.regsM2 := rfl
@[simp] theorem bump_regsM3 : (bump s id i h l n).regsM3 = s.regsM3 := rfl
@[simp] theorem bump_mem : (bump s id i h l n).mem = s.mem := rfl
@[simp] theorem bump_ups : (bump s id i h l n).ups = s.ups := rfl
@[simp] theorem bump_upsOther : (bump s id i h l n).upsOther = s.upsOther := rfl
@[simp] theorem bump_tiles : (bump s id i h l n).tiles = s.tiles := rfl
@[simp] theorem bump_spares : (bump s id i h l n).spares = s.spares := rfl
@[simp] theorem bump_cols : (bump s id i h l n).cols = s.cols := rfl
@[simp] theorem bump_wheelPos : (bump s id i h l n).wheelPos = s.wheelPos := rfl
@[simp] theorem bump_turns : (bump s id i h l n).turns = s.turns := rfl
@[simp] theorem bump_wheelSet : (bump s id i h l n).wheelSet = s.wheelSet := rfl
@[simp] theorem bump_wheelPend : (bump s id i h l n).wheelPend = s.wheelPend := rfl
@[simp] theorem bump_wheelReq : (bump s id i h l n).wheelReq = s.wheelReq := rfl
@[simp] theorem bump_wheels : (bump s id i h l n).wheels = s.wheels := rfl
@[simp] theorem bump_lfsrPrev : (bump s id i h l n).lfsrPrev = s.lfsrPrev := rfl
@[simp] theorem bump_queues : (bump s id i h l n).queues = s.queues := rfl
@[simp] theorem bump_lots : (bump s id i h l n).lots = s.lots := rfl
@[simp] theorem bump_starving : (bump s id i h l n).starving = s.starving := rfl
@[simp] theorem bump_rdLanes : (bump s id i h l n).rdLanes = s.rdLanes := rfl
@[simp] theorem bump_wrLanes : (bump s id i h l n).wrLanes = s.wrLanes := rfl
@[simp] theorem bump_slotRd : (bump s id i h l n).slotRd = s.slotRd := rfl
@[simp] theorem bump_slotWr : (bump s id i h l n).slotWr = s.slotWr := rfl
@[simp] theorem bump_slotRdOut : (bump s id i h l n).slotRdOut = s.slotRdOut := rfl
@[simp] theorem bump_slotWrOut : (bump s id i h l n).slotWrOut = s.slotWrOut := rfl
@[simp] theorem bump_scalars : (bump s id i h l n).scalars = s.scalars := rfl
@[simp] theorem bump_nextScalar : (bump s id i h l n).nextScalar = s.nextScalar := rfl
@[simp] theorem bump_scalarOut : (bump s id i h l n).scalarOut = s.scalarOut := rfl
@[simp] theorem bump_rsts : (bump s id i h l n).rsts = s.rsts := rfl
@[simp] theorem bump_links : (bump s id i h l n).links = s.links := rfl
@[simp] theorem bump_wins : (bump s id i h l n).wins = s.wins := rfl
@[simp] theorem bump_decay : (bump s id i h l n).decay = s.decay := rfl
@[simp] theorem bump_sats : (bump s id i h l n).sats = s.sats := rfl
@[simp] theorem bump_satMem : (bump s id i h l n).satMem = s.satMem := rfl
@[simp] theorem bump_satOut : (bump s id i h l n).satOut = s.satOut := rfl
@[simp] theorem bump_hops : (bump s id i h l n).hops = s.hops := rfl
@[simp] theorem bump_caravans : (bump s id i h l n).caravans = s.caravans := rfl
@[simp] theorem bump_store : (bump s id i h l n).store = s.store := rfl
@[simp] theorem bump_agents : (bump s id i h l n).agents = s.agents := rfl
@[simp] theorem bump_ctxs : (bump s id i h l n).ctxs = s.ctxs := rfl
@[simp] theorem bump_pieces : (bump s id i h l n).pieces = s.pieces := rfl
@[simp] theorem bump_nextSq : (bump s id i h l n).nextSq = s.nextSq := rfl
@[simp] theorem bump_bursts : (bump s id i h l n).bursts = s.bursts := rfl
@[simp] theorem bump_exports : (bump s id i h l n).exports = s.exports := rfl
@[simp] theorem bump_rr : (bump s id i h l n).rr = s.rr := rfl
@[simp] theorem bump_axiLast : (bump s id i h l n).axiLast = s.axiLast := rfl
@[simp] theorem bump_aborts : (bump s id i h l n).aborts = s.aborts := rfl
@[simp] theorem bump_farHold : (bump s id i h l n).farHold = s.farHold := rfl
@[simp] theorem bump_pmaps : (bump s id i h l n).pmaps = s.pmaps := rfl
@[simp] theorem bump_pmapOp : (bump s id i h l n).pmapOp = s.pmapOp := rfl
@[simp] theorem bump_pmapHeld : (bump s id i h l n).pmapHeld = s.pmapHeld := rfl
@[simp] theorem bump_escq : (bump s id i h l n).escq = s.escq := rfl
@[simp] theorem bump_nextEsc : (bump s id i h l n).nextEsc = s.nextEsc := rfl
@[simp] theorem bump_metas : (bump s id i h l n).metas = s.metas := rfl
@[simp] theorem bump_tallies : (bump s id i h l n).tallies = s.tallies := rfl
@[simp] theorem bump_tallyMem : (bump s id i h l n).tallyMem = s.tallyMem := rfl
@[simp] theorem bump_tallyOut : (bump s id i h l n).tallyOut = s.tallyOut := rfl
@[simp] theorem bump_bells : (bump s id i h l n).bells = s.bells := rfl
@[simp] theorem bump_bellOps : (bump s id i h l n).bellOps = s.bellOps := rfl
@[simp] theorem bump_tkHeld : (bump s id i h l n).tkHeld = s.tkHeld := rfl
@[simp] theorem bump_sbox : (bump s id i h l n).sbox = s.sbox := rfl
@[simp] theorem bump_sboxWait : (bump s id i h l n).sboxWait = s.sboxWait := rfl
@[simp] theorem bump_sboxAns : (bump s id i h l n).sboxAns = s.sboxAns := rfl
@[simp] theorem bump_sboxBusy : (bump s id i h l n).sboxBusy = s.sboxBusy := rfl
@[simp] theorem bump_reapSet : (bump s id i h l n).reapSet = s.reapSet := rfl
@[simp] theorem bump_reapEnter : (bump s id i h l n).reapEnter = s.reapEnter := rfl
@[simp] theorem bump_reapAt : (bump s id i h l n).reapAt = s.reapAt := rfl
@[simp] theorem bump_reapMark : (bump s id i h l n).reapMark = s.reapMark := rfl
@[simp] theorem bump_reapSince : (bump s id i h l n).reapSince = s.reapSince := rfl
@[simp] theorem bump_reapEnd : (bump s id i h l n).reapEnd = s.reapEnd := rfl
@[simp] theorem bump_reapMarked : (bump s id i h l n).reapMarked = s.reapMarked := rfl
@[simp] theorem bump_wipeEnd : (bump s id i h l n).wipeEnd = s.wipeEnd := rfl
@[simp] theorem bump_lcKnown : (bump s id i h l n).lcKnown = s.lcKnown := rfl
@[simp] theorem bump_fus : (bump s id i h l n).fus = s.fus := rfl
@[simp] theorem bump_safe : (bump s id i h l n).safe = s.safe := rfl
@[simp] theorem bump_safeAt : (bump s id i h l n).safeAt = s.safeAt := rfl
@[simp] theorem bump_errPulse : (bump s id i h l n).errPulse = s.errPulse := rfl
@[simp] theorem bump_errWant : (bump s id i h l n).errWant = s.errWant := rfl
@[simp] theorem bump_intPend : (bump s id i h l n).intPend = s.intPend := rfl
@[simp] theorem bump_intLine : (bump s id i h l n).intLine = s.intLine := rfl
@[simp] theorem bump_intPulse : (bump s id i h l n).intPulse = s.intPulse := rfl
@[simp] theorem bump_intOwner : (bump s id i h l n).intOwner = s.intOwner := rfl
@[simp] theorem bump_intSel : (bump s id i h l n).intSel = s.intSel := rfl
@[simp] theorem bump_asleep : (bump s id i h l n).asleep = s.asleep := rfl
@[simp] theorem bump_caps : (bump s id i h l n).caps = s.caps := rfl
@[simp] theorem bump_captures : (bump s id i h l n).captures = s.captures := rfl
@[simp] theorem bump_ledgerCaps : (bump s id i h l n).ledgerCaps = s.ledgerCaps := rfl
@[simp] theorem bump_answers : (bump s id i h l n).answers = s.answers := rfl
@[simp] theorem bump_parked : (bump s id i h l n).parked = s.parked := rfl
@[simp] theorem bump_gate : (bump s id i h l n).gate = s.gate := rfl
@[simp] theorem bump_turn : (bump s id i h l n).turn = s.turn := rfl
@[simp] theorem bump_loader : (bump s id i h l n).loader = s.loader := rfl
@[simp] theorem bump_sealed_ : (bump s id i h l n).sealed_ = s.sealed_ := rfl
@[simp] theorem bump_sealWant : (bump s id i h l n).sealWant = s.sealWant := rfl
@[simp] theorem bump_domains : (bump s id i h l n).domains = s.domains := rfl
@[simp] theorem bump_free : (bump s id i h l n).free = s.free := rfl
end

section
variable (c t : Nat) (v : Tile)
@[simp] theorem setTile_pending : (s.setTile c t v).pending = s.pending := rfl
@[simp] theorem setTile_clk : (s.setTile c t v).clk = s.clk := rfl
@[simp] theorem setTile_run : (s.setTile c t v).run = s.run := rfl
@[simp] theorem setTile_late : (s.setTile c t v).late = s.late := rfl
@[simp] theorem setTile_heldFrom : (s.setTile c t v).heldFrom = s.heldFrom := rfl
@[simp] theorem setTile_heldTo : (s.setTile c t v).heldTo = s.heldTo := rfl
@[simp] theorem setTile_skipNext : (s.setTile c t v).skipNext = s.skipNext := rfl
@[simp] theorem setTile_levelNow : (s.setTile c t v).levelNow = s.levelNow := rfl
@[simp] theorem setTile_levelNext : (s.setTile c t v).levelNext = s.levelNext := rfl
@[simp] theorem setTile_dwell : (s.setTile c t v).dwell = s.dwell := rfl
@[simp] theorem setTile_life : (s.setTile c t v).life = s.life := rfl
@[simp] theorem setTile_railsLost : (s.setTile c t v).railsLost = s.railsLost := rfl
@[simp] theorem setTile_wake : (s.setTile c t v).wake = s.wake := rfl
@[simp] theorem setTile_warmNext : (s.setTile c t v).warmNext = s.warmNext := rfl
@[simp] theorem setTile_regs : (s.setTile c t v).regs = s.regs := rfl
@[simp] theorem setTile_regsA : (s.setTile c t v).regsA = s.regsA := rfl
@[simp] theorem setTile_chainRegs : (s.setTile c t v).chainRegs = s.chainRegs := rfl
@[simp] theorem setTile_regsB1 : (s.setTile c t v).regsB1 = s.regsB1 := rfl
@[simp] theorem setTile_regsB2 : (s.setTile c t v).regsB2 = s.regsB2 := rfl
@[simp] theorem setTile_regsM1 : (s.setTile c t v).regsM1 = s.regsM1 := rfl
@[simp] theorem setTile_regsM2 : (s.setTile c t v).regsM2 = s.regsM2 := rfl
@[simp] theorem setTile_regsM3 : (s.setTile c t v).regsM3 = s.regsM3 := rfl
@[simp] theorem setTile_mem : (s.setTile c t v).mem = s.mem := rfl
@[simp] theorem setTile_ups : (s.setTile c t v).ups = s.ups := rfl
@[simp] theorem setTile_upsOther : (s.setTile c t v).upsOther = s.upsOther := rfl
@[simp] theorem setTile_spares : (s.setTile c t v).spares = s.spares := rfl
@[simp] theorem setTile_cols : (s.setTile c t v).cols = s.cols := rfl
@[simp] theorem setTile_wheelPos : (s.setTile c t v).wheelPos = s.wheelPos := rfl
@[simp] theorem setTile_turns : (s.setTile c t v).turns = s.turns := rfl
@[simp] theorem setTile_wheelSet : (s.setTile c t v).wheelSet = s.wheelSet := rfl
@[simp] theorem setTile_wheelPend : (s.setTile c t v).wheelPend = s.wheelPend := rfl
@[simp] theorem setTile_wheelReq : (s.setTile c t v).wheelReq = s.wheelReq := rfl
@[simp] theorem setTile_wheels : (s.setTile c t v).wheels = s.wheels := rfl
@[simp] theorem setTile_lfsrPrev : (s.setTile c t v).lfsrPrev = s.lfsrPrev := rfl
@[simp] theorem setTile_queues : (s.setTile c t v).queues = s.queues := rfl
@[simp] theorem setTile_lots : (s.setTile c t v).lots = s.lots := rfl
@[simp] theorem setTile_starving : (s.setTile c t v).starving = s.starving := rfl
@[simp] theorem setTile_rdLanes : (s.setTile c t v).rdLanes = s.rdLanes := rfl
@[simp] theorem setTile_wrLanes : (s.setTile c t v).wrLanes = s.wrLanes := rfl
@[simp] theorem setTile_slotRd : (s.setTile c t v).slotRd = s.slotRd := rfl
@[simp] theorem setTile_slotWr : (s.setTile c t v).slotWr = s.slotWr := rfl
@[simp] theorem setTile_slotRdOut : (s.setTile c t v).slotRdOut = s.slotRdOut := rfl
@[simp] theorem setTile_slotWrOut : (s.setTile c t v).slotWrOut = s.slotWrOut := rfl
@[simp] theorem setTile_scalars : (s.setTile c t v).scalars = s.scalars := rfl
@[simp] theorem setTile_nextScalar : (s.setTile c t v).nextScalar = s.nextScalar := rfl
@[simp] theorem setTile_scalarOut : (s.setTile c t v).scalarOut = s.scalarOut := rfl
@[simp] theorem setTile_rsts : (s.setTile c t v).rsts = s.rsts := rfl
@[simp] theorem setTile_links : (s.setTile c t v).links = s.links := rfl
@[simp] theorem setTile_wins : (s.setTile c t v).wins = s.wins := rfl
@[simp] theorem setTile_decay : (s.setTile c t v).decay = s.decay := rfl
@[simp] theorem setTile_sats : (s.setTile c t v).sats = s.sats := rfl
@[simp] theorem setTile_satMem : (s.setTile c t v).satMem = s.satMem := rfl
@[simp] theorem setTile_satOut : (s.setTile c t v).satOut = s.satOut := rfl
@[simp] theorem setTile_hops : (s.setTile c t v).hops = s.hops := rfl
@[simp] theorem setTile_caravans : (s.setTile c t v).caravans = s.caravans := rfl
@[simp] theorem setTile_store : (s.setTile c t v).store = s.store := rfl
@[simp] theorem setTile_agents : (s.setTile c t v).agents = s.agents := rfl
@[simp] theorem setTile_ctxs : (s.setTile c t v).ctxs = s.ctxs := rfl
@[simp] theorem setTile_pieces : (s.setTile c t v).pieces = s.pieces := rfl
@[simp] theorem setTile_nextSq : (s.setTile c t v).nextSq = s.nextSq := rfl
@[simp] theorem setTile_bursts : (s.setTile c t v).bursts = s.bursts := rfl
@[simp] theorem setTile_exports : (s.setTile c t v).exports = s.exports := rfl
@[simp] theorem setTile_rr : (s.setTile c t v).rr = s.rr := rfl
@[simp] theorem setTile_axiLast : (s.setTile c t v).axiLast = s.axiLast := rfl
@[simp] theorem setTile_aborts : (s.setTile c t v).aborts = s.aborts := rfl
@[simp] theorem setTile_farHold : (s.setTile c t v).farHold = s.farHold := rfl
@[simp] theorem setTile_pmaps : (s.setTile c t v).pmaps = s.pmaps := rfl
@[simp] theorem setTile_pmapOp : (s.setTile c t v).pmapOp = s.pmapOp := rfl
@[simp] theorem setTile_pmapHeld : (s.setTile c t v).pmapHeld = s.pmapHeld := rfl
@[simp] theorem setTile_escq : (s.setTile c t v).escq = s.escq := rfl
@[simp] theorem setTile_nextEsc : (s.setTile c t v).nextEsc = s.nextEsc := rfl
@[simp] theorem setTile_metas : (s.setTile c t v).metas = s.metas := rfl
@[simp] theorem setTile_tallies : (s.setTile c t v).tallies = s.tallies := rfl
@[simp] theorem setTile_tallyMem : (s.setTile c t v).tallyMem = s.tallyMem := rfl
@[simp] theorem setTile_tallyOut : (s.setTile c t v).tallyOut = s.tallyOut := rfl
@[simp] theorem setTile_bells : (s.setTile c t v).bells = s.bells := rfl
@[simp] theorem setTile_bellOps : (s.setTile c t v).bellOps = s.bellOps := rfl
@[simp] theorem setTile_tkHeld : (s.setTile c t v).tkHeld = s.tkHeld := rfl
@[simp] theorem setTile_sbox : (s.setTile c t v).sbox = s.sbox := rfl
@[simp] theorem setTile_sboxWait : (s.setTile c t v).sboxWait = s.sboxWait := rfl
@[simp] theorem setTile_sboxAns : (s.setTile c t v).sboxAns = s.sboxAns := rfl
@[simp] theorem setTile_sboxBusy : (s.setTile c t v).sboxBusy = s.sboxBusy := rfl
@[simp] theorem setTile_reapSet : (s.setTile c t v).reapSet = s.reapSet := rfl
@[simp] theorem setTile_reapEnter : (s.setTile c t v).reapEnter = s.reapEnter := rfl
@[simp] theorem setTile_reapAt : (s.setTile c t v).reapAt = s.reapAt := rfl
@[simp] theorem setTile_reapMark : (s.setTile c t v).reapMark = s.reapMark := rfl
@[simp] theorem setTile_reapSince : (s.setTile c t v).reapSince = s.reapSince := rfl
@[simp] theorem setTile_reapEnd : (s.setTile c t v).reapEnd = s.reapEnd := rfl
@[simp] theorem setTile_reapMarked : (s.setTile c t v).reapMarked = s.reapMarked := rfl
@[simp] theorem setTile_wipeEnd : (s.setTile c t v).wipeEnd = s.wipeEnd := rfl
@[simp] theorem setTile_lcKnown : (s.setTile c t v).lcKnown = s.lcKnown := rfl
@[simp] theorem setTile_fus : (s.setTile c t v).fus = s.fus := rfl
@[simp] theorem setTile_safe : (s.setTile c t v).safe = s.safe := rfl
@[simp] theorem setTile_safeAt : (s.setTile c t v).safeAt = s.safeAt := rfl
@[simp] theorem setTile_errPulse : (s.setTile c t v).errPulse = s.errPulse := rfl
@[simp] theorem setTile_errWant : (s.setTile c t v).errWant = s.errWant := rfl
@[simp] theorem setTile_intPend : (s.setTile c t v).intPend = s.intPend := rfl
@[simp] theorem setTile_intLine : (s.setTile c t v).intLine = s.intLine := rfl
@[simp] theorem setTile_intPulse : (s.setTile c t v).intPulse = s.intPulse := rfl
@[simp] theorem setTile_intOwner : (s.setTile c t v).intOwner = s.intOwner := rfl
@[simp] theorem setTile_intSel : (s.setTile c t v).intSel = s.intSel := rfl
@[simp] theorem setTile_asleep : (s.setTile c t v).asleep = s.asleep := rfl
@[simp] theorem setTile_caps : (s.setTile c t v).caps = s.caps := rfl
@[simp] theorem setTile_captures : (s.setTile c t v).captures = s.captures := rfl
@[simp] theorem setTile_ledgerCaps : (s.setTile c t v).ledgerCaps = s.ledgerCaps := rfl
@[simp] theorem setTile_answers : (s.setTile c t v).answers = s.answers := rfl
@[simp] theorem setTile_parked : (s.setTile c t v).parked = s.parked := rfl
@[simp] theorem setTile_gate : (s.setTile c t v).gate = s.gate := rfl
@[simp] theorem setTile_turn : (s.setTile c t v).turn = s.turn := rfl
@[simp] theorem setTile_loader : (s.setTile c t v).loader = s.loader := rfl
@[simp] theorem setTile_sealed_ : (s.setTile c t v).sealed_ = s.sealed_ := rfl
@[simp] theorem setTile_sealWant : (s.setTile c t v).sealWant = s.sealWant := rfl
@[simp] theorem setTile_domains : (s.setTile c t v).domains = s.domains := rfl
@[simp] theorem setTile_free : (s.setTile c t v).free = s.free := rfl
end

section
variable (c : Nat) (v : Col)
@[simp] theorem setCol_pending : (s.setCol c v).pending = s.pending := rfl
@[simp] theorem setCol_clk : (s.setCol c v).clk = s.clk := rfl
@[simp] theorem setCol_run : (s.setCol c v).run = s.run := rfl
@[simp] theorem setCol_late : (s.setCol c v).late = s.late := rfl
@[simp] theorem setCol_heldFrom : (s.setCol c v).heldFrom = s.heldFrom := rfl
@[simp] theorem setCol_heldTo : (s.setCol c v).heldTo = s.heldTo := rfl
@[simp] theorem setCol_skipNext : (s.setCol c v).skipNext = s.skipNext := rfl
@[simp] theorem setCol_levelNow : (s.setCol c v).levelNow = s.levelNow := rfl
@[simp] theorem setCol_levelNext : (s.setCol c v).levelNext = s.levelNext := rfl
@[simp] theorem setCol_dwell : (s.setCol c v).dwell = s.dwell := rfl
@[simp] theorem setCol_life : (s.setCol c v).life = s.life := rfl
@[simp] theorem setCol_railsLost : (s.setCol c v).railsLost = s.railsLost := rfl
@[simp] theorem setCol_wake : (s.setCol c v).wake = s.wake := rfl
@[simp] theorem setCol_warmNext : (s.setCol c v).warmNext = s.warmNext := rfl
@[simp] theorem setCol_regs : (s.setCol c v).regs = s.regs := rfl
@[simp] theorem setCol_regsA : (s.setCol c v).regsA = s.regsA := rfl
@[simp] theorem setCol_chainRegs : (s.setCol c v).chainRegs = s.chainRegs := rfl
@[simp] theorem setCol_regsB1 : (s.setCol c v).regsB1 = s.regsB1 := rfl
@[simp] theorem setCol_regsB2 : (s.setCol c v).regsB2 = s.regsB2 := rfl
@[simp] theorem setCol_regsM1 : (s.setCol c v).regsM1 = s.regsM1 := rfl
@[simp] theorem setCol_regsM2 : (s.setCol c v).regsM2 = s.regsM2 := rfl
@[simp] theorem setCol_regsM3 : (s.setCol c v).regsM3 = s.regsM3 := rfl
@[simp] theorem setCol_mem : (s.setCol c v).mem = s.mem := rfl
@[simp] theorem setCol_ups : (s.setCol c v).ups = s.ups := rfl
@[simp] theorem setCol_upsOther : (s.setCol c v).upsOther = s.upsOther := rfl
@[simp] theorem setCol_tiles : (s.setCol c v).tiles = s.tiles := rfl
@[simp] theorem setCol_spares : (s.setCol c v).spares = s.spares := rfl
@[simp] theorem setCol_wheelPos : (s.setCol c v).wheelPos = s.wheelPos := rfl
@[simp] theorem setCol_turns : (s.setCol c v).turns = s.turns := rfl
@[simp] theorem setCol_wheelSet : (s.setCol c v).wheelSet = s.wheelSet := rfl
@[simp] theorem setCol_wheelPend : (s.setCol c v).wheelPend = s.wheelPend := rfl
@[simp] theorem setCol_wheelReq : (s.setCol c v).wheelReq = s.wheelReq := rfl
@[simp] theorem setCol_wheels : (s.setCol c v).wheels = s.wheels := rfl
@[simp] theorem setCol_lfsrPrev : (s.setCol c v).lfsrPrev = s.lfsrPrev := rfl
@[simp] theorem setCol_queues : (s.setCol c v).queues = s.queues := rfl
@[simp] theorem setCol_lots : (s.setCol c v).lots = s.lots := rfl
@[simp] theorem setCol_starving : (s.setCol c v).starving = s.starving := rfl
@[simp] theorem setCol_rdLanes : (s.setCol c v).rdLanes = s.rdLanes := rfl
@[simp] theorem setCol_wrLanes : (s.setCol c v).wrLanes = s.wrLanes := rfl
@[simp] theorem setCol_slotRd : (s.setCol c v).slotRd = s.slotRd := rfl
@[simp] theorem setCol_slotWr : (s.setCol c v).slotWr = s.slotWr := rfl
@[simp] theorem setCol_slotRdOut : (s.setCol c v).slotRdOut = s.slotRdOut := rfl
@[simp] theorem setCol_slotWrOut : (s.setCol c v).slotWrOut = s.slotWrOut := rfl
@[simp] theorem setCol_scalars : (s.setCol c v).scalars = s.scalars := rfl
@[simp] theorem setCol_nextScalar : (s.setCol c v).nextScalar = s.nextScalar := rfl
@[simp] theorem setCol_scalarOut : (s.setCol c v).scalarOut = s.scalarOut := rfl
@[simp] theorem setCol_rsts : (s.setCol c v).rsts = s.rsts := rfl
@[simp] theorem setCol_links : (s.setCol c v).links = s.links := rfl
@[simp] theorem setCol_wins : (s.setCol c v).wins = s.wins := rfl
@[simp] theorem setCol_decay : (s.setCol c v).decay = s.decay := rfl
@[simp] theorem setCol_sats : (s.setCol c v).sats = s.sats := rfl
@[simp] theorem setCol_satMem : (s.setCol c v).satMem = s.satMem := rfl
@[simp] theorem setCol_satOut : (s.setCol c v).satOut = s.satOut := rfl
@[simp] theorem setCol_hops : (s.setCol c v).hops = s.hops := rfl
@[simp] theorem setCol_caravans : (s.setCol c v).caravans = s.caravans := rfl
@[simp] theorem setCol_store : (s.setCol c v).store = s.store := rfl
@[simp] theorem setCol_agents : (s.setCol c v).agents = s.agents := rfl
@[simp] theorem setCol_ctxs : (s.setCol c v).ctxs = s.ctxs := rfl
@[simp] theorem setCol_pieces : (s.setCol c v).pieces = s.pieces := rfl
@[simp] theorem setCol_nextSq : (s.setCol c v).nextSq = s.nextSq := rfl
@[simp] theorem setCol_bursts : (s.setCol c v).bursts = s.bursts := rfl
@[simp] theorem setCol_exports : (s.setCol c v).exports = s.exports := rfl
@[simp] theorem setCol_rr : (s.setCol c v).rr = s.rr := rfl
@[simp] theorem setCol_axiLast : (s.setCol c v).axiLast = s.axiLast := rfl
@[simp] theorem setCol_aborts : (s.setCol c v).aborts = s.aborts := rfl
@[simp] theorem setCol_farHold : (s.setCol c v).farHold = s.farHold := rfl
@[simp] theorem setCol_pmaps : (s.setCol c v).pmaps = s.pmaps := rfl
@[simp] theorem setCol_pmapOp : (s.setCol c v).pmapOp = s.pmapOp := rfl
@[simp] theorem setCol_pmapHeld : (s.setCol c v).pmapHeld = s.pmapHeld := rfl
@[simp] theorem setCol_escq : (s.setCol c v).escq = s.escq := rfl
@[simp] theorem setCol_nextEsc : (s.setCol c v).nextEsc = s.nextEsc := rfl
@[simp] theorem setCol_metas : (s.setCol c v).metas = s.metas := rfl
@[simp] theorem setCol_tallies : (s.setCol c v).tallies = s.tallies := rfl
@[simp] theorem setCol_tallyMem : (s.setCol c v).tallyMem = s.tallyMem := rfl
@[simp] theorem setCol_tallyOut : (s.setCol c v).tallyOut = s.tallyOut := rfl
@[simp] theorem setCol_bells : (s.setCol c v).bells = s.bells := rfl
@[simp] theorem setCol_bellOps : (s.setCol c v).bellOps = s.bellOps := rfl
@[simp] theorem setCol_tkHeld : (s.setCol c v).tkHeld = s.tkHeld := rfl
@[simp] theorem setCol_sbox : (s.setCol c v).sbox = s.sbox := rfl
@[simp] theorem setCol_sboxWait : (s.setCol c v).sboxWait = s.sboxWait := rfl
@[simp] theorem setCol_sboxAns : (s.setCol c v).sboxAns = s.sboxAns := rfl
@[simp] theorem setCol_sboxBusy : (s.setCol c v).sboxBusy = s.sboxBusy := rfl
@[simp] theorem setCol_reapSet : (s.setCol c v).reapSet = s.reapSet := rfl
@[simp] theorem setCol_reapEnter : (s.setCol c v).reapEnter = s.reapEnter := rfl
@[simp] theorem setCol_reapAt : (s.setCol c v).reapAt = s.reapAt := rfl
@[simp] theorem setCol_reapMark : (s.setCol c v).reapMark = s.reapMark := rfl
@[simp] theorem setCol_reapSince : (s.setCol c v).reapSince = s.reapSince := rfl
@[simp] theorem setCol_reapEnd : (s.setCol c v).reapEnd = s.reapEnd := rfl
@[simp] theorem setCol_reapMarked : (s.setCol c v).reapMarked = s.reapMarked := rfl
@[simp] theorem setCol_wipeEnd : (s.setCol c v).wipeEnd = s.wipeEnd := rfl
@[simp] theorem setCol_lcKnown : (s.setCol c v).lcKnown = s.lcKnown := rfl
@[simp] theorem setCol_fus : (s.setCol c v).fus = s.fus := rfl
@[simp] theorem setCol_safe : (s.setCol c v).safe = s.safe := rfl
@[simp] theorem setCol_safeAt : (s.setCol c v).safeAt = s.safeAt := rfl
@[simp] theorem setCol_errPulse : (s.setCol c v).errPulse = s.errPulse := rfl
@[simp] theorem setCol_errWant : (s.setCol c v).errWant = s.errWant := rfl
@[simp] theorem setCol_intPend : (s.setCol c v).intPend = s.intPend := rfl
@[simp] theorem setCol_intLine : (s.setCol c v).intLine = s.intLine := rfl
@[simp] theorem setCol_intPulse : (s.setCol c v).intPulse = s.intPulse := rfl
@[simp] theorem setCol_intOwner : (s.setCol c v).intOwner = s.intOwner := rfl
@[simp] theorem setCol_intSel : (s.setCol c v).intSel = s.intSel := rfl
@[simp] theorem setCol_asleep : (s.setCol c v).asleep = s.asleep := rfl
@[simp] theorem setCol_caps : (s.setCol c v).caps = s.caps := rfl
@[simp] theorem setCol_captures : (s.setCol c v).captures = s.captures := rfl
@[simp] theorem setCol_ledgerCaps : (s.setCol c v).ledgerCaps = s.ledgerCaps := rfl
@[simp] theorem setCol_answers : (s.setCol c v).answers = s.answers := rfl
@[simp] theorem setCol_parked : (s.setCol c v).parked = s.parked := rfl
@[simp] theorem setCol_gate : (s.setCol c v).gate = s.gate := rfl
@[simp] theorem setCol_turn : (s.setCol c v).turn = s.turn := rfl
@[simp] theorem setCol_loader : (s.setCol c v).loader = s.loader := rfl
@[simp] theorem setCol_sealed_ : (s.setCol c v).sealed_ = s.sealed_ := rfl
@[simp] theorem setCol_sealWant : (s.setCol c v).sealWant = s.sealWant := rfl
@[simp] theorem setCol_domains : (s.setCol c v).domains = s.domains := rfl
@[simp] theorem setCol_free : (s.setCol c v).free = s.free := rfl
end

section
variable (k : Nat) (v : Lot)
@[simp] theorem setLot_pending : (s.setLot k v).pending = s.pending := rfl
@[simp] theorem setLot_clk : (s.setLot k v).clk = s.clk := rfl
@[simp] theorem setLot_run : (s.setLot k v).run = s.run := rfl
@[simp] theorem setLot_late : (s.setLot k v).late = s.late := rfl
@[simp] theorem setLot_heldFrom : (s.setLot k v).heldFrom = s.heldFrom := rfl
@[simp] theorem setLot_heldTo : (s.setLot k v).heldTo = s.heldTo := rfl
@[simp] theorem setLot_skipNext : (s.setLot k v).skipNext = s.skipNext := rfl
@[simp] theorem setLot_levelNow : (s.setLot k v).levelNow = s.levelNow := rfl
@[simp] theorem setLot_levelNext : (s.setLot k v).levelNext = s.levelNext := rfl
@[simp] theorem setLot_dwell : (s.setLot k v).dwell = s.dwell := rfl
@[simp] theorem setLot_life : (s.setLot k v).life = s.life := rfl
@[simp] theorem setLot_railsLost : (s.setLot k v).railsLost = s.railsLost := rfl
@[simp] theorem setLot_wake : (s.setLot k v).wake = s.wake := rfl
@[simp] theorem setLot_warmNext : (s.setLot k v).warmNext = s.warmNext := rfl
@[simp] theorem setLot_regs : (s.setLot k v).regs = s.regs := rfl
@[simp] theorem setLot_regsA : (s.setLot k v).regsA = s.regsA := rfl
@[simp] theorem setLot_chainRegs : (s.setLot k v).chainRegs = s.chainRegs := rfl
@[simp] theorem setLot_regsB1 : (s.setLot k v).regsB1 = s.regsB1 := rfl
@[simp] theorem setLot_regsB2 : (s.setLot k v).regsB2 = s.regsB2 := rfl
@[simp] theorem setLot_regsM1 : (s.setLot k v).regsM1 = s.regsM1 := rfl
@[simp] theorem setLot_regsM2 : (s.setLot k v).regsM2 = s.regsM2 := rfl
@[simp] theorem setLot_regsM3 : (s.setLot k v).regsM3 = s.regsM3 := rfl
@[simp] theorem setLot_mem : (s.setLot k v).mem = s.mem := rfl
@[simp] theorem setLot_ups : (s.setLot k v).ups = s.ups := rfl
@[simp] theorem setLot_upsOther : (s.setLot k v).upsOther = s.upsOther := rfl
@[simp] theorem setLot_tiles : (s.setLot k v).tiles = s.tiles := rfl
@[simp] theorem setLot_spares : (s.setLot k v).spares = s.spares := rfl
@[simp] theorem setLot_cols : (s.setLot k v).cols = s.cols := rfl
@[simp] theorem setLot_wheelPos : (s.setLot k v).wheelPos = s.wheelPos := rfl
@[simp] theorem setLot_turns : (s.setLot k v).turns = s.turns := rfl
@[simp] theorem setLot_wheelSet : (s.setLot k v).wheelSet = s.wheelSet := rfl
@[simp] theorem setLot_wheelPend : (s.setLot k v).wheelPend = s.wheelPend := rfl
@[simp] theorem setLot_wheelReq : (s.setLot k v).wheelReq = s.wheelReq := rfl
@[simp] theorem setLot_wheels : (s.setLot k v).wheels = s.wheels := rfl
@[simp] theorem setLot_lfsrPrev : (s.setLot k v).lfsrPrev = s.lfsrPrev := rfl
@[simp] theorem setLot_queues : (s.setLot k v).queues = s.queues := rfl
@[simp] theorem setLot_starving : (s.setLot k v).starving = s.starving := rfl
@[simp] theorem setLot_rdLanes : (s.setLot k v).rdLanes = s.rdLanes := rfl
@[simp] theorem setLot_wrLanes : (s.setLot k v).wrLanes = s.wrLanes := rfl
@[simp] theorem setLot_slotRd : (s.setLot k v).slotRd = s.slotRd := rfl
@[simp] theorem setLot_slotWr : (s.setLot k v).slotWr = s.slotWr := rfl
@[simp] theorem setLot_slotRdOut : (s.setLot k v).slotRdOut = s.slotRdOut := rfl
@[simp] theorem setLot_slotWrOut : (s.setLot k v).slotWrOut = s.slotWrOut := rfl
@[simp] theorem setLot_scalars : (s.setLot k v).scalars = s.scalars := rfl
@[simp] theorem setLot_nextScalar : (s.setLot k v).nextScalar = s.nextScalar := rfl
@[simp] theorem setLot_scalarOut : (s.setLot k v).scalarOut = s.scalarOut := rfl
@[simp] theorem setLot_rsts : (s.setLot k v).rsts = s.rsts := rfl
@[simp] theorem setLot_links : (s.setLot k v).links = s.links := rfl
@[simp] theorem setLot_wins : (s.setLot k v).wins = s.wins := rfl
@[simp] theorem setLot_decay : (s.setLot k v).decay = s.decay := rfl
@[simp] theorem setLot_sats : (s.setLot k v).sats = s.sats := rfl
@[simp] theorem setLot_satMem : (s.setLot k v).satMem = s.satMem := rfl
@[simp] theorem setLot_satOut : (s.setLot k v).satOut = s.satOut := rfl
@[simp] theorem setLot_hops : (s.setLot k v).hops = s.hops := rfl
@[simp] theorem setLot_caravans : (s.setLot k v).caravans = s.caravans := rfl
@[simp] theorem setLot_store : (s.setLot k v).store = s.store := rfl
@[simp] theorem setLot_agents : (s.setLot k v).agents = s.agents := rfl
@[simp] theorem setLot_ctxs : (s.setLot k v).ctxs = s.ctxs := rfl
@[simp] theorem setLot_pieces : (s.setLot k v).pieces = s.pieces := rfl
@[simp] theorem setLot_nextSq : (s.setLot k v).nextSq = s.nextSq := rfl
@[simp] theorem setLot_bursts : (s.setLot k v).bursts = s.bursts := rfl
@[simp] theorem setLot_exports : (s.setLot k v).exports = s.exports := rfl
@[simp] theorem setLot_rr : (s.setLot k v).rr = s.rr := rfl
@[simp] theorem setLot_axiLast : (s.setLot k v).axiLast = s.axiLast := rfl
@[simp] theorem setLot_aborts : (s.setLot k v).aborts = s.aborts := rfl
@[simp] theorem setLot_farHold : (s.setLot k v).farHold = s.farHold := rfl
@[simp] theorem setLot_pmaps : (s.setLot k v).pmaps = s.pmaps := rfl
@[simp] theorem setLot_pmapOp : (s.setLot k v).pmapOp = s.pmapOp := rfl
@[simp] theorem setLot_pmapHeld : (s.setLot k v).pmapHeld = s.pmapHeld := rfl
@[simp] theorem setLot_escq : (s.setLot k v).escq = s.escq := rfl
@[simp] theorem setLot_nextEsc : (s.setLot k v).nextEsc = s.nextEsc := rfl
@[simp] theorem setLot_metas : (s.setLot k v).metas = s.metas := rfl
@[simp] theorem setLot_tallies : (s.setLot k v).tallies = s.tallies := rfl
@[simp] theorem setLot_tallyMem : (s.setLot k v).tallyMem = s.tallyMem := rfl
@[simp] theorem setLot_tallyOut : (s.setLot k v).tallyOut = s.tallyOut := rfl
@[simp] theorem setLot_bells : (s.setLot k v).bells = s.bells := rfl
@[simp] theorem setLot_bellOps : (s.setLot k v).bellOps = s.bellOps := rfl
@[simp] theorem setLot_tkHeld : (s.setLot k v).tkHeld = s.tkHeld := rfl
@[simp] theorem setLot_sbox : (s.setLot k v).sbox = s.sbox := rfl
@[simp] theorem setLot_sboxWait : (s.setLot k v).sboxWait = s.sboxWait := rfl
@[simp] theorem setLot_sboxAns : (s.setLot k v).sboxAns = s.sboxAns := rfl
@[simp] theorem setLot_sboxBusy : (s.setLot k v).sboxBusy = s.sboxBusy := rfl
@[simp] theorem setLot_reapSet : (s.setLot k v).reapSet = s.reapSet := rfl
@[simp] theorem setLot_reapEnter : (s.setLot k v).reapEnter = s.reapEnter := rfl
@[simp] theorem setLot_reapAt : (s.setLot k v).reapAt = s.reapAt := rfl
@[simp] theorem setLot_reapMark : (s.setLot k v).reapMark = s.reapMark := rfl
@[simp] theorem setLot_reapSince : (s.setLot k v).reapSince = s.reapSince := rfl
@[simp] theorem setLot_reapEnd : (s.setLot k v).reapEnd = s.reapEnd := rfl
@[simp] theorem setLot_reapMarked : (s.setLot k v).reapMarked = s.reapMarked := rfl
@[simp] theorem setLot_wipeEnd : (s.setLot k v).wipeEnd = s.wipeEnd := rfl
@[simp] theorem setLot_lcKnown : (s.setLot k v).lcKnown = s.lcKnown := rfl
@[simp] theorem setLot_fus : (s.setLot k v).fus = s.fus := rfl
@[simp] theorem setLot_safe : (s.setLot k v).safe = s.safe := rfl
@[simp] theorem setLot_safeAt : (s.setLot k v).safeAt = s.safeAt := rfl
@[simp] theorem setLot_errPulse : (s.setLot k v).errPulse = s.errPulse := rfl
@[simp] theorem setLot_errWant : (s.setLot k v).errWant = s.errWant := rfl
@[simp] theorem setLot_intPend : (s.setLot k v).intPend = s.intPend := rfl
@[simp] theorem setLot_intLine : (s.setLot k v).intLine = s.intLine := rfl
@[simp] theorem setLot_intPulse : (s.setLot k v).intPulse = s.intPulse := rfl
@[simp] theorem setLot_intOwner : (s.setLot k v).intOwner = s.intOwner := rfl
@[simp] theorem setLot_intSel : (s.setLot k v).intSel = s.intSel := rfl
@[simp] theorem setLot_asleep : (s.setLot k v).asleep = s.asleep := rfl
@[simp] theorem setLot_caps : (s.setLot k v).caps = s.caps := rfl
@[simp] theorem setLot_captures : (s.setLot k v).captures = s.captures := rfl
@[simp] theorem setLot_ledgerCaps : (s.setLot k v).ledgerCaps = s.ledgerCaps := rfl
@[simp] theorem setLot_answers : (s.setLot k v).answers = s.answers := rfl
@[simp] theorem setLot_parked : (s.setLot k v).parked = s.parked := rfl
@[simp] theorem setLot_gate : (s.setLot k v).gate = s.gate := rfl
@[simp] theorem setLot_turn : (s.setLot k v).turn = s.turn := rfl
@[simp] theorem setLot_loader : (s.setLot k v).loader = s.loader := rfl
@[simp] theorem setLot_sealed_ : (s.setLot k v).sealed_ = s.sealed_ := rfl
@[simp] theorem setLot_sealWant : (s.setLot k v).sealWant = s.sealWant := rfl
@[simp] theorem setLot_domains : (s.setLot k v).domains = s.domains := rfl
@[simp] theorem setLot_free : (s.setLot k v).free = s.free := rfl
end

section
variable (k : Nat) (v : LotQueue)
@[simp] theorem setQueue_pending : (s.setQueue k v).pending = s.pending := rfl
@[simp] theorem setQueue_clk : (s.setQueue k v).clk = s.clk := rfl
@[simp] theorem setQueue_run : (s.setQueue k v).run = s.run := rfl
@[simp] theorem setQueue_late : (s.setQueue k v).late = s.late := rfl
@[simp] theorem setQueue_heldFrom : (s.setQueue k v).heldFrom = s.heldFrom := rfl
@[simp] theorem setQueue_heldTo : (s.setQueue k v).heldTo = s.heldTo := rfl
@[simp] theorem setQueue_skipNext : (s.setQueue k v).skipNext = s.skipNext := rfl
@[simp] theorem setQueue_levelNow : (s.setQueue k v).levelNow = s.levelNow := rfl
@[simp] theorem setQueue_levelNext : (s.setQueue k v).levelNext = s.levelNext := rfl
@[simp] theorem setQueue_dwell : (s.setQueue k v).dwell = s.dwell := rfl
@[simp] theorem setQueue_life : (s.setQueue k v).life = s.life := rfl
@[simp] theorem setQueue_railsLost : (s.setQueue k v).railsLost = s.railsLost := rfl
@[simp] theorem setQueue_wake : (s.setQueue k v).wake = s.wake := rfl
@[simp] theorem setQueue_warmNext : (s.setQueue k v).warmNext = s.warmNext := rfl
@[simp] theorem setQueue_regs : (s.setQueue k v).regs = s.regs := rfl
@[simp] theorem setQueue_regsA : (s.setQueue k v).regsA = s.regsA := rfl
@[simp] theorem setQueue_chainRegs : (s.setQueue k v).chainRegs = s.chainRegs := rfl
@[simp] theorem setQueue_regsB1 : (s.setQueue k v).regsB1 = s.regsB1 := rfl
@[simp] theorem setQueue_regsB2 : (s.setQueue k v).regsB2 = s.regsB2 := rfl
@[simp] theorem setQueue_regsM1 : (s.setQueue k v).regsM1 = s.regsM1 := rfl
@[simp] theorem setQueue_regsM2 : (s.setQueue k v).regsM2 = s.regsM2 := rfl
@[simp] theorem setQueue_regsM3 : (s.setQueue k v).regsM3 = s.regsM3 := rfl
@[simp] theorem setQueue_mem : (s.setQueue k v).mem = s.mem := rfl
@[simp] theorem setQueue_ups : (s.setQueue k v).ups = s.ups := rfl
@[simp] theorem setQueue_upsOther : (s.setQueue k v).upsOther = s.upsOther := rfl
@[simp] theorem setQueue_tiles : (s.setQueue k v).tiles = s.tiles := rfl
@[simp] theorem setQueue_spares : (s.setQueue k v).spares = s.spares := rfl
@[simp] theorem setQueue_cols : (s.setQueue k v).cols = s.cols := rfl
@[simp] theorem setQueue_wheelPos : (s.setQueue k v).wheelPos = s.wheelPos := rfl
@[simp] theorem setQueue_turns : (s.setQueue k v).turns = s.turns := rfl
@[simp] theorem setQueue_wheelSet : (s.setQueue k v).wheelSet = s.wheelSet := rfl
@[simp] theorem setQueue_wheelPend : (s.setQueue k v).wheelPend = s.wheelPend := rfl
@[simp] theorem setQueue_wheelReq : (s.setQueue k v).wheelReq = s.wheelReq := rfl
@[simp] theorem setQueue_wheels : (s.setQueue k v).wheels = s.wheels := rfl
@[simp] theorem setQueue_lfsrPrev : (s.setQueue k v).lfsrPrev = s.lfsrPrev := rfl
@[simp] theorem setQueue_lots : (s.setQueue k v).lots = s.lots := rfl
@[simp] theorem setQueue_starving : (s.setQueue k v).starving = s.starving := rfl
@[simp] theorem setQueue_rdLanes : (s.setQueue k v).rdLanes = s.rdLanes := rfl
@[simp] theorem setQueue_wrLanes : (s.setQueue k v).wrLanes = s.wrLanes := rfl
@[simp] theorem setQueue_slotRd : (s.setQueue k v).slotRd = s.slotRd := rfl
@[simp] theorem setQueue_slotWr : (s.setQueue k v).slotWr = s.slotWr := rfl
@[simp] theorem setQueue_slotRdOut : (s.setQueue k v).slotRdOut = s.slotRdOut := rfl
@[simp] theorem setQueue_slotWrOut : (s.setQueue k v).slotWrOut = s.slotWrOut := rfl
@[simp] theorem setQueue_scalars : (s.setQueue k v).scalars = s.scalars := rfl
@[simp] theorem setQueue_nextScalar : (s.setQueue k v).nextScalar = s.nextScalar := rfl
@[simp] theorem setQueue_scalarOut : (s.setQueue k v).scalarOut = s.scalarOut := rfl
@[simp] theorem setQueue_rsts : (s.setQueue k v).rsts = s.rsts := rfl
@[simp] theorem setQueue_links : (s.setQueue k v).links = s.links := rfl
@[simp] theorem setQueue_wins : (s.setQueue k v).wins = s.wins := rfl
@[simp] theorem setQueue_decay : (s.setQueue k v).decay = s.decay := rfl
@[simp] theorem setQueue_sats : (s.setQueue k v).sats = s.sats := rfl
@[simp] theorem setQueue_satMem : (s.setQueue k v).satMem = s.satMem := rfl
@[simp] theorem setQueue_satOut : (s.setQueue k v).satOut = s.satOut := rfl
@[simp] theorem setQueue_hops : (s.setQueue k v).hops = s.hops := rfl
@[simp] theorem setQueue_caravans : (s.setQueue k v).caravans = s.caravans := rfl
@[simp] theorem setQueue_store : (s.setQueue k v).store = s.store := rfl
@[simp] theorem setQueue_agents : (s.setQueue k v).agents = s.agents := rfl
@[simp] theorem setQueue_ctxs : (s.setQueue k v).ctxs = s.ctxs := rfl
@[simp] theorem setQueue_pieces : (s.setQueue k v).pieces = s.pieces := rfl
@[simp] theorem setQueue_nextSq : (s.setQueue k v).nextSq = s.nextSq := rfl
@[simp] theorem setQueue_bursts : (s.setQueue k v).bursts = s.bursts := rfl
@[simp] theorem setQueue_exports : (s.setQueue k v).exports = s.exports := rfl
@[simp] theorem setQueue_rr : (s.setQueue k v).rr = s.rr := rfl
@[simp] theorem setQueue_axiLast : (s.setQueue k v).axiLast = s.axiLast := rfl
@[simp] theorem setQueue_aborts : (s.setQueue k v).aborts = s.aborts := rfl
@[simp] theorem setQueue_farHold : (s.setQueue k v).farHold = s.farHold := rfl
@[simp] theorem setQueue_pmaps : (s.setQueue k v).pmaps = s.pmaps := rfl
@[simp] theorem setQueue_pmapOp : (s.setQueue k v).pmapOp = s.pmapOp := rfl
@[simp] theorem setQueue_pmapHeld : (s.setQueue k v).pmapHeld = s.pmapHeld := rfl
@[simp] theorem setQueue_escq : (s.setQueue k v).escq = s.escq := rfl
@[simp] theorem setQueue_nextEsc : (s.setQueue k v).nextEsc = s.nextEsc := rfl
@[simp] theorem setQueue_metas : (s.setQueue k v).metas = s.metas := rfl
@[simp] theorem setQueue_tallies : (s.setQueue k v).tallies = s.tallies := rfl
@[simp] theorem setQueue_tallyMem : (s.setQueue k v).tallyMem = s.tallyMem := rfl
@[simp] theorem setQueue_tallyOut : (s.setQueue k v).tallyOut = s.tallyOut := rfl
@[simp] theorem setQueue_bells : (s.setQueue k v).bells = s.bells := rfl
@[simp] theorem setQueue_bellOps : (s.setQueue k v).bellOps = s.bellOps := rfl
@[simp] theorem setQueue_tkHeld : (s.setQueue k v).tkHeld = s.tkHeld := rfl
@[simp] theorem setQueue_sbox : (s.setQueue k v).sbox = s.sbox := rfl
@[simp] theorem setQueue_sboxWait : (s.setQueue k v).sboxWait = s.sboxWait := rfl
@[simp] theorem setQueue_sboxAns : (s.setQueue k v).sboxAns = s.sboxAns := rfl
@[simp] theorem setQueue_sboxBusy : (s.setQueue k v).sboxBusy = s.sboxBusy := rfl
@[simp] theorem setQueue_reapSet : (s.setQueue k v).reapSet = s.reapSet := rfl
@[simp] theorem setQueue_reapEnter : (s.setQueue k v).reapEnter = s.reapEnter := rfl
@[simp] theorem setQueue_reapAt : (s.setQueue k v).reapAt = s.reapAt := rfl
@[simp] theorem setQueue_reapMark : (s.setQueue k v).reapMark = s.reapMark := rfl
@[simp] theorem setQueue_reapSince : (s.setQueue k v).reapSince = s.reapSince := rfl
@[simp] theorem setQueue_reapEnd : (s.setQueue k v).reapEnd = s.reapEnd := rfl
@[simp] theorem setQueue_reapMarked : (s.setQueue k v).reapMarked = s.reapMarked := rfl
@[simp] theorem setQueue_wipeEnd : (s.setQueue k v).wipeEnd = s.wipeEnd := rfl
@[simp] theorem setQueue_lcKnown : (s.setQueue k v).lcKnown = s.lcKnown := rfl
@[simp] theorem setQueue_fus : (s.setQueue k v).fus = s.fus := rfl
@[simp] theorem setQueue_safe : (s.setQueue k v).safe = s.safe := rfl
@[simp] theorem setQueue_safeAt : (s.setQueue k v).safeAt = s.safeAt := rfl
@[simp] theorem setQueue_errPulse : (s.setQueue k v).errPulse = s.errPulse := rfl
@[simp] theorem setQueue_errWant : (s.setQueue k v).errWant = s.errWant := rfl
@[simp] theorem setQueue_intPend : (s.setQueue k v).intPend = s.intPend := rfl
@[simp] theorem setQueue_intLine : (s.setQueue k v).intLine = s.intLine := rfl
@[simp] theorem setQueue_intPulse : (s.setQueue k v).intPulse = s.intPulse := rfl
@[simp] theorem setQueue_intOwner : (s.setQueue k v).intOwner = s.intOwner := rfl
@[simp] theorem setQueue_intSel : (s.setQueue k v).intSel = s.intSel := rfl
@[simp] theorem setQueue_asleep : (s.setQueue k v).asleep = s.asleep := rfl
@[simp] theorem setQueue_caps : (s.setQueue k v).caps = s.caps := rfl
@[simp] theorem setQueue_captures : (s.setQueue k v).captures = s.captures := rfl
@[simp] theorem setQueue_ledgerCaps : (s.setQueue k v).ledgerCaps = s.ledgerCaps := rfl
@[simp] theorem setQueue_answers : (s.setQueue k v).answers = s.answers := rfl
@[simp] theorem setQueue_parked : (s.setQueue k v).parked = s.parked := rfl
@[simp] theorem setQueue_gate : (s.setQueue k v).gate = s.gate := rfl
@[simp] theorem setQueue_turn : (s.setQueue k v).turn = s.turn := rfl
@[simp] theorem setQueue_loader : (s.setQueue k v).loader = s.loader := rfl
@[simp] theorem setQueue_sealed_ : (s.setQueue k v).sealed_ = s.sealed_ := rfl
@[simp] theorem setQueue_sealWant : (s.setQueue k v).sealWant = s.sealWant := rfl
@[simp] theorem setQueue_domains : (s.setQueue k v).domains = s.domains := rfl
@[simp] theorem setQueue_free : (s.setQueue k v).free = s.free := rfl
end

section
variable (x : Nat) (v : SlotDir)
@[simp] theorem setRdDir_pending : (s.setRdDir x v).pending = s.pending := rfl
@[simp] theorem setRdDir_clk : (s.setRdDir x v).clk = s.clk := rfl
@[simp] theorem setRdDir_run : (s.setRdDir x v).run = s.run := rfl
@[simp] theorem setRdDir_late : (s.setRdDir x v).late = s.late := rfl
@[simp] theorem setRdDir_heldFrom : (s.setRdDir x v).heldFrom = s.heldFrom := rfl
@[simp] theorem setRdDir_heldTo : (s.setRdDir x v).heldTo = s.heldTo := rfl
@[simp] theorem setRdDir_skipNext : (s.setRdDir x v).skipNext = s.skipNext := rfl
@[simp] theorem setRdDir_levelNow : (s.setRdDir x v).levelNow = s.levelNow := rfl
@[simp] theorem setRdDir_levelNext : (s.setRdDir x v).levelNext = s.levelNext := rfl
@[simp] theorem setRdDir_dwell : (s.setRdDir x v).dwell = s.dwell := rfl
@[simp] theorem setRdDir_life : (s.setRdDir x v).life = s.life := rfl
@[simp] theorem setRdDir_railsLost : (s.setRdDir x v).railsLost = s.railsLost := rfl
@[simp] theorem setRdDir_wake : (s.setRdDir x v).wake = s.wake := rfl
@[simp] theorem setRdDir_warmNext : (s.setRdDir x v).warmNext = s.warmNext := rfl
@[simp] theorem setRdDir_regs : (s.setRdDir x v).regs = s.regs := rfl
@[simp] theorem setRdDir_regsA : (s.setRdDir x v).regsA = s.regsA := rfl
@[simp] theorem setRdDir_chainRegs : (s.setRdDir x v).chainRegs = s.chainRegs := rfl
@[simp] theorem setRdDir_regsB1 : (s.setRdDir x v).regsB1 = s.regsB1 := rfl
@[simp] theorem setRdDir_regsB2 : (s.setRdDir x v).regsB2 = s.regsB2 := rfl
@[simp] theorem setRdDir_regsM1 : (s.setRdDir x v).regsM1 = s.regsM1 := rfl
@[simp] theorem setRdDir_regsM2 : (s.setRdDir x v).regsM2 = s.regsM2 := rfl
@[simp] theorem setRdDir_regsM3 : (s.setRdDir x v).regsM3 = s.regsM3 := rfl
@[simp] theorem setRdDir_mem : (s.setRdDir x v).mem = s.mem := rfl
@[simp] theorem setRdDir_ups : (s.setRdDir x v).ups = s.ups := rfl
@[simp] theorem setRdDir_upsOther : (s.setRdDir x v).upsOther = s.upsOther := rfl
@[simp] theorem setRdDir_tiles : (s.setRdDir x v).tiles = s.tiles := rfl
@[simp] theorem setRdDir_spares : (s.setRdDir x v).spares = s.spares := rfl
@[simp] theorem setRdDir_cols : (s.setRdDir x v).cols = s.cols := rfl
@[simp] theorem setRdDir_wheelPos : (s.setRdDir x v).wheelPos = s.wheelPos := rfl
@[simp] theorem setRdDir_turns : (s.setRdDir x v).turns = s.turns := rfl
@[simp] theorem setRdDir_wheelSet : (s.setRdDir x v).wheelSet = s.wheelSet := rfl
@[simp] theorem setRdDir_wheelPend : (s.setRdDir x v).wheelPend = s.wheelPend := rfl
@[simp] theorem setRdDir_wheelReq : (s.setRdDir x v).wheelReq = s.wheelReq := rfl
@[simp] theorem setRdDir_wheels : (s.setRdDir x v).wheels = s.wheels := rfl
@[simp] theorem setRdDir_lfsrPrev : (s.setRdDir x v).lfsrPrev = s.lfsrPrev := rfl
@[simp] theorem setRdDir_queues : (s.setRdDir x v).queues = s.queues := rfl
@[simp] theorem setRdDir_lots : (s.setRdDir x v).lots = s.lots := rfl
@[simp] theorem setRdDir_starving : (s.setRdDir x v).starving = s.starving := rfl
@[simp] theorem setRdDir_rdLanes : (s.setRdDir x v).rdLanes = s.rdLanes := rfl
@[simp] theorem setRdDir_wrLanes : (s.setRdDir x v).wrLanes = s.wrLanes := rfl
@[simp] theorem setRdDir_slotWr : (s.setRdDir x v).slotWr = s.slotWr := rfl
@[simp] theorem setRdDir_slotRdOut : (s.setRdDir x v).slotRdOut = s.slotRdOut := rfl
@[simp] theorem setRdDir_slotWrOut : (s.setRdDir x v).slotWrOut = s.slotWrOut := rfl
@[simp] theorem setRdDir_scalars : (s.setRdDir x v).scalars = s.scalars := rfl
@[simp] theorem setRdDir_nextScalar : (s.setRdDir x v).nextScalar = s.nextScalar := rfl
@[simp] theorem setRdDir_scalarOut : (s.setRdDir x v).scalarOut = s.scalarOut := rfl
@[simp] theorem setRdDir_rsts : (s.setRdDir x v).rsts = s.rsts := rfl
@[simp] theorem setRdDir_links : (s.setRdDir x v).links = s.links := rfl
@[simp] theorem setRdDir_wins : (s.setRdDir x v).wins = s.wins := rfl
@[simp] theorem setRdDir_decay : (s.setRdDir x v).decay = s.decay := rfl
@[simp] theorem setRdDir_sats : (s.setRdDir x v).sats = s.sats := rfl
@[simp] theorem setRdDir_satMem : (s.setRdDir x v).satMem = s.satMem := rfl
@[simp] theorem setRdDir_satOut : (s.setRdDir x v).satOut = s.satOut := rfl
@[simp] theorem setRdDir_hops : (s.setRdDir x v).hops = s.hops := rfl
@[simp] theorem setRdDir_caravans : (s.setRdDir x v).caravans = s.caravans := rfl
@[simp] theorem setRdDir_store : (s.setRdDir x v).store = s.store := rfl
@[simp] theorem setRdDir_agents : (s.setRdDir x v).agents = s.agents := rfl
@[simp] theorem setRdDir_ctxs : (s.setRdDir x v).ctxs = s.ctxs := rfl
@[simp] theorem setRdDir_pieces : (s.setRdDir x v).pieces = s.pieces := rfl
@[simp] theorem setRdDir_nextSq : (s.setRdDir x v).nextSq = s.nextSq := rfl
@[simp] theorem setRdDir_bursts : (s.setRdDir x v).bursts = s.bursts := rfl
@[simp] theorem setRdDir_exports : (s.setRdDir x v).exports = s.exports := rfl
@[simp] theorem setRdDir_rr : (s.setRdDir x v).rr = s.rr := rfl
@[simp] theorem setRdDir_axiLast : (s.setRdDir x v).axiLast = s.axiLast := rfl
@[simp] theorem setRdDir_aborts : (s.setRdDir x v).aborts = s.aborts := rfl
@[simp] theorem setRdDir_farHold : (s.setRdDir x v).farHold = s.farHold := rfl
@[simp] theorem setRdDir_pmaps : (s.setRdDir x v).pmaps = s.pmaps := rfl
@[simp] theorem setRdDir_pmapOp : (s.setRdDir x v).pmapOp = s.pmapOp := rfl
@[simp] theorem setRdDir_pmapHeld : (s.setRdDir x v).pmapHeld = s.pmapHeld := rfl
@[simp] theorem setRdDir_escq : (s.setRdDir x v).escq = s.escq := rfl
@[simp] theorem setRdDir_nextEsc : (s.setRdDir x v).nextEsc = s.nextEsc := rfl
@[simp] theorem setRdDir_metas : (s.setRdDir x v).metas = s.metas := rfl
@[simp] theorem setRdDir_tallies : (s.setRdDir x v).tallies = s.tallies := rfl
@[simp] theorem setRdDir_tallyMem : (s.setRdDir x v).tallyMem = s.tallyMem := rfl
@[simp] theorem setRdDir_tallyOut : (s.setRdDir x v).tallyOut = s.tallyOut := rfl
@[simp] theorem setRdDir_bells : (s.setRdDir x v).bells = s.bells := rfl
@[simp] theorem setRdDir_bellOps : (s.setRdDir x v).bellOps = s.bellOps := rfl
@[simp] theorem setRdDir_tkHeld : (s.setRdDir x v).tkHeld = s.tkHeld := rfl
@[simp] theorem setRdDir_sbox : (s.setRdDir x v).sbox = s.sbox := rfl
@[simp] theorem setRdDir_sboxWait : (s.setRdDir x v).sboxWait = s.sboxWait := rfl
@[simp] theorem setRdDir_sboxAns : (s.setRdDir x v).sboxAns = s.sboxAns := rfl
@[simp] theorem setRdDir_sboxBusy : (s.setRdDir x v).sboxBusy = s.sboxBusy := rfl
@[simp] theorem setRdDir_reapSet : (s.setRdDir x v).reapSet = s.reapSet := rfl
@[simp] theorem setRdDir_reapEnter : (s.setRdDir x v).reapEnter = s.reapEnter := rfl
@[simp] theorem setRdDir_reapAt : (s.setRdDir x v).reapAt = s.reapAt := rfl
@[simp] theorem setRdDir_reapMark : (s.setRdDir x v).reapMark = s.reapMark := rfl
@[simp] theorem setRdDir_reapSince : (s.setRdDir x v).reapSince = s.reapSince := rfl
@[simp] theorem setRdDir_reapEnd : (s.setRdDir x v).reapEnd = s.reapEnd := rfl
@[simp] theorem setRdDir_reapMarked : (s.setRdDir x v).reapMarked = s.reapMarked := rfl
@[simp] theorem setRdDir_wipeEnd : (s.setRdDir x v).wipeEnd = s.wipeEnd := rfl
@[simp] theorem setRdDir_lcKnown : (s.setRdDir x v).lcKnown = s.lcKnown := rfl
@[simp] theorem setRdDir_fus : (s.setRdDir x v).fus = s.fus := rfl
@[simp] theorem setRdDir_safe : (s.setRdDir x v).safe = s.safe := rfl
@[simp] theorem setRdDir_safeAt : (s.setRdDir x v).safeAt = s.safeAt := rfl
@[simp] theorem setRdDir_errPulse : (s.setRdDir x v).errPulse = s.errPulse := rfl
@[simp] theorem setRdDir_errWant : (s.setRdDir x v).errWant = s.errWant := rfl
@[simp] theorem setRdDir_intPend : (s.setRdDir x v).intPend = s.intPend := rfl
@[simp] theorem setRdDir_intLine : (s.setRdDir x v).intLine = s.intLine := rfl
@[simp] theorem setRdDir_intPulse : (s.setRdDir x v).intPulse = s.intPulse := rfl
@[simp] theorem setRdDir_intOwner : (s.setRdDir x v).intOwner = s.intOwner := rfl
@[simp] theorem setRdDir_intSel : (s.setRdDir x v).intSel = s.intSel := rfl
@[simp] theorem setRdDir_asleep : (s.setRdDir x v).asleep = s.asleep := rfl
@[simp] theorem setRdDir_caps : (s.setRdDir x v).caps = s.caps := rfl
@[simp] theorem setRdDir_captures : (s.setRdDir x v).captures = s.captures := rfl
@[simp] theorem setRdDir_ledgerCaps : (s.setRdDir x v).ledgerCaps = s.ledgerCaps := rfl
@[simp] theorem setRdDir_answers : (s.setRdDir x v).answers = s.answers := rfl
@[simp] theorem setRdDir_parked : (s.setRdDir x v).parked = s.parked := rfl
@[simp] theorem setRdDir_gate : (s.setRdDir x v).gate = s.gate := rfl
@[simp] theorem setRdDir_turn : (s.setRdDir x v).turn = s.turn := rfl
@[simp] theorem setRdDir_loader : (s.setRdDir x v).loader = s.loader := rfl
@[simp] theorem setRdDir_sealed_ : (s.setRdDir x v).sealed_ = s.sealed_ := rfl
@[simp] theorem setRdDir_sealWant : (s.setRdDir x v).sealWant = s.sealWant := rfl
@[simp] theorem setRdDir_domains : (s.setRdDir x v).domains = s.domains := rfl
@[simp] theorem setRdDir_free : (s.setRdDir x v).free = s.free := rfl
end

section
variable (x : Nat) (v : SlotDir)
@[simp] theorem setWrDir_pending : (s.setWrDir x v).pending = s.pending := rfl
@[simp] theorem setWrDir_clk : (s.setWrDir x v).clk = s.clk := rfl
@[simp] theorem setWrDir_run : (s.setWrDir x v).run = s.run := rfl
@[simp] theorem setWrDir_late : (s.setWrDir x v).late = s.late := rfl
@[simp] theorem setWrDir_heldFrom : (s.setWrDir x v).heldFrom = s.heldFrom := rfl
@[simp] theorem setWrDir_heldTo : (s.setWrDir x v).heldTo = s.heldTo := rfl
@[simp] theorem setWrDir_skipNext : (s.setWrDir x v).skipNext = s.skipNext := rfl
@[simp] theorem setWrDir_levelNow : (s.setWrDir x v).levelNow = s.levelNow := rfl
@[simp] theorem setWrDir_levelNext : (s.setWrDir x v).levelNext = s.levelNext := rfl
@[simp] theorem setWrDir_dwell : (s.setWrDir x v).dwell = s.dwell := rfl
@[simp] theorem setWrDir_life : (s.setWrDir x v).life = s.life := rfl
@[simp] theorem setWrDir_railsLost : (s.setWrDir x v).railsLost = s.railsLost := rfl
@[simp] theorem setWrDir_wake : (s.setWrDir x v).wake = s.wake := rfl
@[simp] theorem setWrDir_warmNext : (s.setWrDir x v).warmNext = s.warmNext := rfl
@[simp] theorem setWrDir_regs : (s.setWrDir x v).regs = s.regs := rfl
@[simp] theorem setWrDir_regsA : (s.setWrDir x v).regsA = s.regsA := rfl
@[simp] theorem setWrDir_chainRegs : (s.setWrDir x v).chainRegs = s.chainRegs := rfl
@[simp] theorem setWrDir_regsB1 : (s.setWrDir x v).regsB1 = s.regsB1 := rfl
@[simp] theorem setWrDir_regsB2 : (s.setWrDir x v).regsB2 = s.regsB2 := rfl
@[simp] theorem setWrDir_regsM1 : (s.setWrDir x v).regsM1 = s.regsM1 := rfl
@[simp] theorem setWrDir_regsM2 : (s.setWrDir x v).regsM2 = s.regsM2 := rfl
@[simp] theorem setWrDir_regsM3 : (s.setWrDir x v).regsM3 = s.regsM3 := rfl
@[simp] theorem setWrDir_mem : (s.setWrDir x v).mem = s.mem := rfl
@[simp] theorem setWrDir_ups : (s.setWrDir x v).ups = s.ups := rfl
@[simp] theorem setWrDir_upsOther : (s.setWrDir x v).upsOther = s.upsOther := rfl
@[simp] theorem setWrDir_tiles : (s.setWrDir x v).tiles = s.tiles := rfl
@[simp] theorem setWrDir_spares : (s.setWrDir x v).spares = s.spares := rfl
@[simp] theorem setWrDir_cols : (s.setWrDir x v).cols = s.cols := rfl
@[simp] theorem setWrDir_wheelPos : (s.setWrDir x v).wheelPos = s.wheelPos := rfl
@[simp] theorem setWrDir_turns : (s.setWrDir x v).turns = s.turns := rfl
@[simp] theorem setWrDir_wheelSet : (s.setWrDir x v).wheelSet = s.wheelSet := rfl
@[simp] theorem setWrDir_wheelPend : (s.setWrDir x v).wheelPend = s.wheelPend := rfl
@[simp] theorem setWrDir_wheelReq : (s.setWrDir x v).wheelReq = s.wheelReq := rfl
@[simp] theorem setWrDir_wheels : (s.setWrDir x v).wheels = s.wheels := rfl
@[simp] theorem setWrDir_lfsrPrev : (s.setWrDir x v).lfsrPrev = s.lfsrPrev := rfl
@[simp] theorem setWrDir_queues : (s.setWrDir x v).queues = s.queues := rfl
@[simp] theorem setWrDir_lots : (s.setWrDir x v).lots = s.lots := rfl
@[simp] theorem setWrDir_starving : (s.setWrDir x v).starving = s.starving := rfl
@[simp] theorem setWrDir_rdLanes : (s.setWrDir x v).rdLanes = s.rdLanes := rfl
@[simp] theorem setWrDir_wrLanes : (s.setWrDir x v).wrLanes = s.wrLanes := rfl
@[simp] theorem setWrDir_slotRd : (s.setWrDir x v).slotRd = s.slotRd := rfl
@[simp] theorem setWrDir_slotRdOut : (s.setWrDir x v).slotRdOut = s.slotRdOut := rfl
@[simp] theorem setWrDir_slotWrOut : (s.setWrDir x v).slotWrOut = s.slotWrOut := rfl
@[simp] theorem setWrDir_scalars : (s.setWrDir x v).scalars = s.scalars := rfl
@[simp] theorem setWrDir_nextScalar : (s.setWrDir x v).nextScalar = s.nextScalar := rfl
@[simp] theorem setWrDir_scalarOut : (s.setWrDir x v).scalarOut = s.scalarOut := rfl
@[simp] theorem setWrDir_rsts : (s.setWrDir x v).rsts = s.rsts := rfl
@[simp] theorem setWrDir_links : (s.setWrDir x v).links = s.links := rfl
@[simp] theorem setWrDir_wins : (s.setWrDir x v).wins = s.wins := rfl
@[simp] theorem setWrDir_decay : (s.setWrDir x v).decay = s.decay := rfl
@[simp] theorem setWrDir_sats : (s.setWrDir x v).sats = s.sats := rfl
@[simp] theorem setWrDir_satMem : (s.setWrDir x v).satMem = s.satMem := rfl
@[simp] theorem setWrDir_satOut : (s.setWrDir x v).satOut = s.satOut := rfl
@[simp] theorem setWrDir_hops : (s.setWrDir x v).hops = s.hops := rfl
@[simp] theorem setWrDir_caravans : (s.setWrDir x v).caravans = s.caravans := rfl
@[simp] theorem setWrDir_store : (s.setWrDir x v).store = s.store := rfl
@[simp] theorem setWrDir_agents : (s.setWrDir x v).agents = s.agents := rfl
@[simp] theorem setWrDir_ctxs : (s.setWrDir x v).ctxs = s.ctxs := rfl
@[simp] theorem setWrDir_pieces : (s.setWrDir x v).pieces = s.pieces := rfl
@[simp] theorem setWrDir_nextSq : (s.setWrDir x v).nextSq = s.nextSq := rfl
@[simp] theorem setWrDir_bursts : (s.setWrDir x v).bursts = s.bursts := rfl
@[simp] theorem setWrDir_exports : (s.setWrDir x v).exports = s.exports := rfl
@[simp] theorem setWrDir_rr : (s.setWrDir x v).rr = s.rr := rfl
@[simp] theorem setWrDir_axiLast : (s.setWrDir x v).axiLast = s.axiLast := rfl
@[simp] theorem setWrDir_aborts : (s.setWrDir x v).aborts = s.aborts := rfl
@[simp] theorem setWrDir_farHold : (s.setWrDir x v).farHold = s.farHold := rfl
@[simp] theorem setWrDir_pmaps : (s.setWrDir x v).pmaps = s.pmaps := rfl
@[simp] theorem setWrDir_pmapOp : (s.setWrDir x v).pmapOp = s.pmapOp := rfl
@[simp] theorem setWrDir_pmapHeld : (s.setWrDir x v).pmapHeld = s.pmapHeld := rfl
@[simp] theorem setWrDir_escq : (s.setWrDir x v).escq = s.escq := rfl
@[simp] theorem setWrDir_nextEsc : (s.setWrDir x v).nextEsc = s.nextEsc := rfl
@[simp] theorem setWrDir_metas : (s.setWrDir x v).metas = s.metas := rfl
@[simp] theorem setWrDir_tallies : (s.setWrDir x v).tallies = s.tallies := rfl
@[simp] theorem setWrDir_tallyMem : (s.setWrDir x v).tallyMem = s.tallyMem := rfl
@[simp] theorem setWrDir_tallyOut : (s.setWrDir x v).tallyOut = s.tallyOut := rfl
@[simp] theorem setWrDir_bells : (s.setWrDir x v).bells = s.bells := rfl
@[simp] theorem setWrDir_bellOps : (s.setWrDir x v).bellOps = s.bellOps := rfl
@[simp] theorem setWrDir_tkHeld : (s.setWrDir x v).tkHeld = s.tkHeld := rfl
@[simp] theorem setWrDir_sbox : (s.setWrDir x v).sbox = s.sbox := rfl
@[simp] theorem setWrDir_sboxWait : (s.setWrDir x v).sboxWait = s.sboxWait := rfl
@[simp] theorem setWrDir_sboxAns : (s.setWrDir x v).sboxAns = s.sboxAns := rfl
@[simp] theorem setWrDir_sboxBusy : (s.setWrDir x v).sboxBusy = s.sboxBusy := rfl
@[simp] theorem setWrDir_reapSet : (s.setWrDir x v).reapSet = s.reapSet := rfl
@[simp] theorem setWrDir_reapEnter : (s.setWrDir x v).reapEnter = s.reapEnter := rfl
@[simp] theorem setWrDir_reapAt : (s.setWrDir x v).reapAt = s.reapAt := rfl
@[simp] theorem setWrDir_reapMark : (s.setWrDir x v).reapMark = s.reapMark := rfl
@[simp] theorem setWrDir_reapSince : (s.setWrDir x v).reapSince = s.reapSince := rfl
@[simp] theorem setWrDir_reapEnd : (s.setWrDir x v).reapEnd = s.reapEnd := rfl
@[simp] theorem setWrDir_reapMarked : (s.setWrDir x v).reapMarked = s.reapMarked := rfl
@[simp] theorem setWrDir_wipeEnd : (s.setWrDir x v).wipeEnd = s.wipeEnd := rfl
@[simp] theorem setWrDir_lcKnown : (s.setWrDir x v).lcKnown = s.lcKnown := rfl
@[simp] theorem setWrDir_fus : (s.setWrDir x v).fus = s.fus := rfl
@[simp] theorem setWrDir_safe : (s.setWrDir x v).safe = s.safe := rfl
@[simp] theorem setWrDir_safeAt : (s.setWrDir x v).safeAt = s.safeAt := rfl
@[simp] theorem setWrDir_errPulse : (s.setWrDir x v).errPulse = s.errPulse := rfl
@[simp] theorem setWrDir_errWant : (s.setWrDir x v).errWant = s.errWant := rfl
@[simp] theorem setWrDir_intPend : (s.setWrDir x v).intPend = s.intPend := rfl
@[simp] theorem setWrDir_intLine : (s.setWrDir x v).intLine = s.intLine := rfl
@[simp] theorem setWrDir_intPulse : (s.setWrDir x v).intPulse = s.intPulse := rfl
@[simp] theorem setWrDir_intOwner : (s.setWrDir x v).intOwner = s.intOwner := rfl
@[simp] theorem setWrDir_intSel : (s.setWrDir x v).intSel = s.intSel := rfl
@[simp] theorem setWrDir_asleep : (s.setWrDir x v).asleep = s.asleep := rfl
@[simp] theorem setWrDir_caps : (s.setWrDir x v).caps = s.caps := rfl
@[simp] theorem setWrDir_captures : (s.setWrDir x v).captures = s.captures := rfl
@[simp] theorem setWrDir_ledgerCaps : (s.setWrDir x v).ledgerCaps = s.ledgerCaps := rfl
@[simp] theorem setWrDir_answers : (s.setWrDir x v).answers = s.answers := rfl
@[simp] theorem setWrDir_parked : (s.setWrDir x v).parked = s.parked := rfl
@[simp] theorem setWrDir_gate : (s.setWrDir x v).gate = s.gate := rfl
@[simp] theorem setWrDir_turn : (s.setWrDir x v).turn = s.turn := rfl
@[simp] theorem setWrDir_loader : (s.setWrDir x v).loader = s.loader := rfl
@[simp] theorem setWrDir_sealed_ : (s.setWrDir x v).sealed_ = s.sealed_ := rfl
@[simp] theorem setWrDir_sealWant : (s.setWrDir x v).sealWant = s.sealWant := rfl
@[simp] theorem setWrDir_domains : (s.setWrDir x v).domains = s.domains := rfl
@[simp] theorem setWrDir_free : (s.setWrDir x v).free = s.free := rfl
end

section
variable (g : Nat) (v : List Scalar)
@[simp] theorem setScalar_pending : (s.setScalar g v).pending = s.pending := rfl
@[simp] theorem setScalar_clk : (s.setScalar g v).clk = s.clk := rfl
@[simp] theorem setScalar_run : (s.setScalar g v).run = s.run := rfl
@[simp] theorem setScalar_late : (s.setScalar g v).late = s.late := rfl
@[simp] theorem setScalar_heldFrom : (s.setScalar g v).heldFrom = s.heldFrom := rfl
@[simp] theorem setScalar_heldTo : (s.setScalar g v).heldTo = s.heldTo := rfl
@[simp] theorem setScalar_skipNext : (s.setScalar g v).skipNext = s.skipNext := rfl
@[simp] theorem setScalar_levelNow : (s.setScalar g v).levelNow = s.levelNow := rfl
@[simp] theorem setScalar_levelNext : (s.setScalar g v).levelNext = s.levelNext := rfl
@[simp] theorem setScalar_dwell : (s.setScalar g v).dwell = s.dwell := rfl
@[simp] theorem setScalar_life : (s.setScalar g v).life = s.life := rfl
@[simp] theorem setScalar_railsLost : (s.setScalar g v).railsLost = s.railsLost := rfl
@[simp] theorem setScalar_wake : (s.setScalar g v).wake = s.wake := rfl
@[simp] theorem setScalar_warmNext : (s.setScalar g v).warmNext = s.warmNext := rfl
@[simp] theorem setScalar_regs : (s.setScalar g v).regs = s.regs := rfl
@[simp] theorem setScalar_regsA : (s.setScalar g v).regsA = s.regsA := rfl
@[simp] theorem setScalar_chainRegs : (s.setScalar g v).chainRegs = s.chainRegs := rfl
@[simp] theorem setScalar_regsB1 : (s.setScalar g v).regsB1 = s.regsB1 := rfl
@[simp] theorem setScalar_regsB2 : (s.setScalar g v).regsB2 = s.regsB2 := rfl
@[simp] theorem setScalar_regsM1 : (s.setScalar g v).regsM1 = s.regsM1 := rfl
@[simp] theorem setScalar_regsM2 : (s.setScalar g v).regsM2 = s.regsM2 := rfl
@[simp] theorem setScalar_regsM3 : (s.setScalar g v).regsM3 = s.regsM3 := rfl
@[simp] theorem setScalar_mem : (s.setScalar g v).mem = s.mem := rfl
@[simp] theorem setScalar_ups : (s.setScalar g v).ups = s.ups := rfl
@[simp] theorem setScalar_upsOther : (s.setScalar g v).upsOther = s.upsOther := rfl
@[simp] theorem setScalar_tiles : (s.setScalar g v).tiles = s.tiles := rfl
@[simp] theorem setScalar_spares : (s.setScalar g v).spares = s.spares := rfl
@[simp] theorem setScalar_cols : (s.setScalar g v).cols = s.cols := rfl
@[simp] theorem setScalar_wheelPos : (s.setScalar g v).wheelPos = s.wheelPos := rfl
@[simp] theorem setScalar_turns : (s.setScalar g v).turns = s.turns := rfl
@[simp] theorem setScalar_wheelSet : (s.setScalar g v).wheelSet = s.wheelSet := rfl
@[simp] theorem setScalar_wheelPend : (s.setScalar g v).wheelPend = s.wheelPend := rfl
@[simp] theorem setScalar_wheelReq : (s.setScalar g v).wheelReq = s.wheelReq := rfl
@[simp] theorem setScalar_wheels : (s.setScalar g v).wheels = s.wheels := rfl
@[simp] theorem setScalar_lfsrPrev : (s.setScalar g v).lfsrPrev = s.lfsrPrev := rfl
@[simp] theorem setScalar_queues : (s.setScalar g v).queues = s.queues := rfl
@[simp] theorem setScalar_lots : (s.setScalar g v).lots = s.lots := rfl
@[simp] theorem setScalar_starving : (s.setScalar g v).starving = s.starving := rfl
@[simp] theorem setScalar_rdLanes : (s.setScalar g v).rdLanes = s.rdLanes := rfl
@[simp] theorem setScalar_wrLanes : (s.setScalar g v).wrLanes = s.wrLanes := rfl
@[simp] theorem setScalar_slotRd : (s.setScalar g v).slotRd = s.slotRd := rfl
@[simp] theorem setScalar_slotWr : (s.setScalar g v).slotWr = s.slotWr := rfl
@[simp] theorem setScalar_slotRdOut : (s.setScalar g v).slotRdOut = s.slotRdOut := rfl
@[simp] theorem setScalar_slotWrOut : (s.setScalar g v).slotWrOut = s.slotWrOut := rfl
@[simp] theorem setScalar_nextScalar : (s.setScalar g v).nextScalar = s.nextScalar := rfl
@[simp] theorem setScalar_scalarOut : (s.setScalar g v).scalarOut = s.scalarOut := rfl
@[simp] theorem setScalar_rsts : (s.setScalar g v).rsts = s.rsts := rfl
@[simp] theorem setScalar_links : (s.setScalar g v).links = s.links := rfl
@[simp] theorem setScalar_wins : (s.setScalar g v).wins = s.wins := rfl
@[simp] theorem setScalar_decay : (s.setScalar g v).decay = s.decay := rfl
@[simp] theorem setScalar_sats : (s.setScalar g v).sats = s.sats := rfl
@[simp] theorem setScalar_satMem : (s.setScalar g v).satMem = s.satMem := rfl
@[simp] theorem setScalar_satOut : (s.setScalar g v).satOut = s.satOut := rfl
@[simp] theorem setScalar_hops : (s.setScalar g v).hops = s.hops := rfl
@[simp] theorem setScalar_caravans : (s.setScalar g v).caravans = s.caravans := rfl
@[simp] theorem setScalar_store : (s.setScalar g v).store = s.store := rfl
@[simp] theorem setScalar_agents : (s.setScalar g v).agents = s.agents := rfl
@[simp] theorem setScalar_ctxs : (s.setScalar g v).ctxs = s.ctxs := rfl
@[simp] theorem setScalar_pieces : (s.setScalar g v).pieces = s.pieces := rfl
@[simp] theorem setScalar_nextSq : (s.setScalar g v).nextSq = s.nextSq := rfl
@[simp] theorem setScalar_bursts : (s.setScalar g v).bursts = s.bursts := rfl
@[simp] theorem setScalar_exports : (s.setScalar g v).exports = s.exports := rfl
@[simp] theorem setScalar_rr : (s.setScalar g v).rr = s.rr := rfl
@[simp] theorem setScalar_axiLast : (s.setScalar g v).axiLast = s.axiLast := rfl
@[simp] theorem setScalar_aborts : (s.setScalar g v).aborts = s.aborts := rfl
@[simp] theorem setScalar_farHold : (s.setScalar g v).farHold = s.farHold := rfl
@[simp] theorem setScalar_pmaps : (s.setScalar g v).pmaps = s.pmaps := rfl
@[simp] theorem setScalar_pmapOp : (s.setScalar g v).pmapOp = s.pmapOp := rfl
@[simp] theorem setScalar_pmapHeld : (s.setScalar g v).pmapHeld = s.pmapHeld := rfl
@[simp] theorem setScalar_escq : (s.setScalar g v).escq = s.escq := rfl
@[simp] theorem setScalar_nextEsc : (s.setScalar g v).nextEsc = s.nextEsc := rfl
@[simp] theorem setScalar_metas : (s.setScalar g v).metas = s.metas := rfl
@[simp] theorem setScalar_tallies : (s.setScalar g v).tallies = s.tallies := rfl
@[simp] theorem setScalar_tallyMem : (s.setScalar g v).tallyMem = s.tallyMem := rfl
@[simp] theorem setScalar_tallyOut : (s.setScalar g v).tallyOut = s.tallyOut := rfl
@[simp] theorem setScalar_bells : (s.setScalar g v).bells = s.bells := rfl
@[simp] theorem setScalar_bellOps : (s.setScalar g v).bellOps = s.bellOps := rfl
@[simp] theorem setScalar_tkHeld : (s.setScalar g v).tkHeld = s.tkHeld := rfl
@[simp] theorem setScalar_sbox : (s.setScalar g v).sbox = s.sbox := rfl
@[simp] theorem setScalar_sboxWait : (s.setScalar g v).sboxWait = s.sboxWait := rfl
@[simp] theorem setScalar_sboxAns : (s.setScalar g v).sboxAns = s.sboxAns := rfl
@[simp] theorem setScalar_sboxBusy : (s.setScalar g v).sboxBusy = s.sboxBusy := rfl
@[simp] theorem setScalar_reapSet : (s.setScalar g v).reapSet = s.reapSet := rfl
@[simp] theorem setScalar_reapEnter : (s.setScalar g v).reapEnter = s.reapEnter := rfl
@[simp] theorem setScalar_reapAt : (s.setScalar g v).reapAt = s.reapAt := rfl
@[simp] theorem setScalar_reapMark : (s.setScalar g v).reapMark = s.reapMark := rfl
@[simp] theorem setScalar_reapSince : (s.setScalar g v).reapSince = s.reapSince := rfl
@[simp] theorem setScalar_reapEnd : (s.setScalar g v).reapEnd = s.reapEnd := rfl
@[simp] theorem setScalar_reapMarked : (s.setScalar g v).reapMarked = s.reapMarked := rfl
@[simp] theorem setScalar_wipeEnd : (s.setScalar g v).wipeEnd = s.wipeEnd := rfl
@[simp] theorem setScalar_lcKnown : (s.setScalar g v).lcKnown = s.lcKnown := rfl
@[simp] theorem setScalar_fus : (s.setScalar g v).fus = s.fus := rfl
@[simp] theorem setScalar_safe : (s.setScalar g v).safe = s.safe := rfl
@[simp] theorem setScalar_safeAt : (s.setScalar g v).safeAt = s.safeAt := rfl
@[simp] theorem setScalar_errPulse : (s.setScalar g v).errPulse = s.errPulse := rfl
@[simp] theorem setScalar_errWant : (s.setScalar g v).errWant = s.errWant := rfl
@[simp] theorem setScalar_intPend : (s.setScalar g v).intPend = s.intPend := rfl
@[simp] theorem setScalar_intLine : (s.setScalar g v).intLine = s.intLine := rfl
@[simp] theorem setScalar_intPulse : (s.setScalar g v).intPulse = s.intPulse := rfl
@[simp] theorem setScalar_intOwner : (s.setScalar g v).intOwner = s.intOwner := rfl
@[simp] theorem setScalar_intSel : (s.setScalar g v).intSel = s.intSel := rfl
@[simp] theorem setScalar_asleep : (s.setScalar g v).asleep = s.asleep := rfl
@[simp] theorem setScalar_caps : (s.setScalar g v).caps = s.caps := rfl
@[simp] theorem setScalar_captures : (s.setScalar g v).captures = s.captures := rfl
@[simp] theorem setScalar_ledgerCaps : (s.setScalar g v).ledgerCaps = s.ledgerCaps := rfl
@[simp] theorem setScalar_answers : (s.setScalar g v).answers = s.answers := rfl
@[simp] theorem setScalar_parked : (s.setScalar g v).parked = s.parked := rfl
@[simp] theorem setScalar_gate : (s.setScalar g v).gate = s.gate := rfl
@[simp] theorem setScalar_turn : (s.setScalar g v).turn = s.turn := rfl
@[simp] theorem setScalar_loader : (s.setScalar g v).loader = s.loader := rfl
@[simp] theorem setScalar_sealed_ : (s.setScalar g v).sealed_ = s.sealed_ := rfl
@[simp] theorem setScalar_sealWant : (s.setScalar g v).sealWant = s.sealWant := rfl
@[simp] theorem setScalar_domains : (s.setScalar g v).domains = s.domains := rfl
@[simp] theorem setScalar_free : (s.setScalar g v).free = s.free := rfl
end

section
variable (m : Nat) (v : Rst)
@[simp] theorem setRst_pending : (s.setRst m v).pending = s.pending := rfl
@[simp] theorem setRst_clk : (s.setRst m v).clk = s.clk := rfl
@[simp] theorem setRst_run : (s.setRst m v).run = s.run := rfl
@[simp] theorem setRst_late : (s.setRst m v).late = s.late := rfl
@[simp] theorem setRst_heldFrom : (s.setRst m v).heldFrom = s.heldFrom := rfl
@[simp] theorem setRst_heldTo : (s.setRst m v).heldTo = s.heldTo := rfl
@[simp] theorem setRst_skipNext : (s.setRst m v).skipNext = s.skipNext := rfl
@[simp] theorem setRst_levelNow : (s.setRst m v).levelNow = s.levelNow := rfl
@[simp] theorem setRst_levelNext : (s.setRst m v).levelNext = s.levelNext := rfl
@[simp] theorem setRst_dwell : (s.setRst m v).dwell = s.dwell := rfl
@[simp] theorem setRst_life : (s.setRst m v).life = s.life := rfl
@[simp] theorem setRst_railsLost : (s.setRst m v).railsLost = s.railsLost := rfl
@[simp] theorem setRst_wake : (s.setRst m v).wake = s.wake := rfl
@[simp] theorem setRst_warmNext : (s.setRst m v).warmNext = s.warmNext := rfl
@[simp] theorem setRst_regs : (s.setRst m v).regs = s.regs := rfl
@[simp] theorem setRst_regsA : (s.setRst m v).regsA = s.regsA := rfl
@[simp] theorem setRst_chainRegs : (s.setRst m v).chainRegs = s.chainRegs := rfl
@[simp] theorem setRst_regsB1 : (s.setRst m v).regsB1 = s.regsB1 := rfl
@[simp] theorem setRst_regsB2 : (s.setRst m v).regsB2 = s.regsB2 := rfl
@[simp] theorem setRst_regsM1 : (s.setRst m v).regsM1 = s.regsM1 := rfl
@[simp] theorem setRst_regsM2 : (s.setRst m v).regsM2 = s.regsM2 := rfl
@[simp] theorem setRst_regsM3 : (s.setRst m v).regsM3 = s.regsM3 := rfl
@[simp] theorem setRst_mem : (s.setRst m v).mem = s.mem := rfl
@[simp] theorem setRst_ups : (s.setRst m v).ups = s.ups := rfl
@[simp] theorem setRst_upsOther : (s.setRst m v).upsOther = s.upsOther := rfl
@[simp] theorem setRst_tiles : (s.setRst m v).tiles = s.tiles := rfl
@[simp] theorem setRst_spares : (s.setRst m v).spares = s.spares := rfl
@[simp] theorem setRst_cols : (s.setRst m v).cols = s.cols := rfl
@[simp] theorem setRst_wheelPos : (s.setRst m v).wheelPos = s.wheelPos := rfl
@[simp] theorem setRst_turns : (s.setRst m v).turns = s.turns := rfl
@[simp] theorem setRst_wheelSet : (s.setRst m v).wheelSet = s.wheelSet := rfl
@[simp] theorem setRst_wheelPend : (s.setRst m v).wheelPend = s.wheelPend := rfl
@[simp] theorem setRst_wheelReq : (s.setRst m v).wheelReq = s.wheelReq := rfl
@[simp] theorem setRst_wheels : (s.setRst m v).wheels = s.wheels := rfl
@[simp] theorem setRst_lfsrPrev : (s.setRst m v).lfsrPrev = s.lfsrPrev := rfl
@[simp] theorem setRst_queues : (s.setRst m v).queues = s.queues := rfl
@[simp] theorem setRst_lots : (s.setRst m v).lots = s.lots := rfl
@[simp] theorem setRst_starving : (s.setRst m v).starving = s.starving := rfl
@[simp] theorem setRst_rdLanes : (s.setRst m v).rdLanes = s.rdLanes := rfl
@[simp] theorem setRst_wrLanes : (s.setRst m v).wrLanes = s.wrLanes := rfl
@[simp] theorem setRst_slotRd : (s.setRst m v).slotRd = s.slotRd := rfl
@[simp] theorem setRst_slotWr : (s.setRst m v).slotWr = s.slotWr := rfl
@[simp] theorem setRst_slotRdOut : (s.setRst m v).slotRdOut = s.slotRdOut := rfl
@[simp] theorem setRst_slotWrOut : (s.setRst m v).slotWrOut = s.slotWrOut := rfl
@[simp] theorem setRst_scalars : (s.setRst m v).scalars = s.scalars := rfl
@[simp] theorem setRst_nextScalar : (s.setRst m v).nextScalar = s.nextScalar := rfl
@[simp] theorem setRst_scalarOut : (s.setRst m v).scalarOut = s.scalarOut := rfl
@[simp] theorem setRst_links : (s.setRst m v).links = s.links := rfl
@[simp] theorem setRst_wins : (s.setRst m v).wins = s.wins := rfl
@[simp] theorem setRst_decay : (s.setRst m v).decay = s.decay := rfl
@[simp] theorem setRst_sats : (s.setRst m v).sats = s.sats := rfl
@[simp] theorem setRst_satMem : (s.setRst m v).satMem = s.satMem := rfl
@[simp] theorem setRst_satOut : (s.setRst m v).satOut = s.satOut := rfl
@[simp] theorem setRst_hops : (s.setRst m v).hops = s.hops := rfl
@[simp] theorem setRst_caravans : (s.setRst m v).caravans = s.caravans := rfl
@[simp] theorem setRst_store : (s.setRst m v).store = s.store := rfl
@[simp] theorem setRst_agents : (s.setRst m v).agents = s.agents := rfl
@[simp] theorem setRst_ctxs : (s.setRst m v).ctxs = s.ctxs := rfl
@[simp] theorem setRst_pieces : (s.setRst m v).pieces = s.pieces := rfl
@[simp] theorem setRst_nextSq : (s.setRst m v).nextSq = s.nextSq := rfl
@[simp] theorem setRst_bursts : (s.setRst m v).bursts = s.bursts := rfl
@[simp] theorem setRst_exports : (s.setRst m v).exports = s.exports := rfl
@[simp] theorem setRst_rr : (s.setRst m v).rr = s.rr := rfl
@[simp] theorem setRst_axiLast : (s.setRst m v).axiLast = s.axiLast := rfl
@[simp] theorem setRst_aborts : (s.setRst m v).aborts = s.aborts := rfl
@[simp] theorem setRst_farHold : (s.setRst m v).farHold = s.farHold := rfl
@[simp] theorem setRst_pmaps : (s.setRst m v).pmaps = s.pmaps := rfl
@[simp] theorem setRst_pmapOp : (s.setRst m v).pmapOp = s.pmapOp := rfl
@[simp] theorem setRst_pmapHeld : (s.setRst m v).pmapHeld = s.pmapHeld := rfl
@[simp] theorem setRst_escq : (s.setRst m v).escq = s.escq := rfl
@[simp] theorem setRst_nextEsc : (s.setRst m v).nextEsc = s.nextEsc := rfl
@[simp] theorem setRst_metas : (s.setRst m v).metas = s.metas := rfl
@[simp] theorem setRst_tallies : (s.setRst m v).tallies = s.tallies := rfl
@[simp] theorem setRst_tallyMem : (s.setRst m v).tallyMem = s.tallyMem := rfl
@[simp] theorem setRst_tallyOut : (s.setRst m v).tallyOut = s.tallyOut := rfl
@[simp] theorem setRst_bells : (s.setRst m v).bells = s.bells := rfl
@[simp] theorem setRst_bellOps : (s.setRst m v).bellOps = s.bellOps := rfl
@[simp] theorem setRst_tkHeld : (s.setRst m v).tkHeld = s.tkHeld := rfl
@[simp] theorem setRst_sbox : (s.setRst m v).sbox = s.sbox := rfl
@[simp] theorem setRst_sboxWait : (s.setRst m v).sboxWait = s.sboxWait := rfl
@[simp] theorem setRst_sboxAns : (s.setRst m v).sboxAns = s.sboxAns := rfl
@[simp] theorem setRst_sboxBusy : (s.setRst m v).sboxBusy = s.sboxBusy := rfl
@[simp] theorem setRst_reapSet : (s.setRst m v).reapSet = s.reapSet := rfl
@[simp] theorem setRst_reapEnter : (s.setRst m v).reapEnter = s.reapEnter := rfl
@[simp] theorem setRst_reapAt : (s.setRst m v).reapAt = s.reapAt := rfl
@[simp] theorem setRst_reapMark : (s.setRst m v).reapMark = s.reapMark := rfl
@[simp] theorem setRst_reapSince : (s.setRst m v).reapSince = s.reapSince := rfl
@[simp] theorem setRst_reapEnd : (s.setRst m v).reapEnd = s.reapEnd := rfl
@[simp] theorem setRst_reapMarked : (s.setRst m v).reapMarked = s.reapMarked := rfl
@[simp] theorem setRst_wipeEnd : (s.setRst m v).wipeEnd = s.wipeEnd := rfl
@[simp] theorem setRst_lcKnown : (s.setRst m v).lcKnown = s.lcKnown := rfl
@[simp] theorem setRst_fus : (s.setRst m v).fus = s.fus := rfl
@[simp] theorem setRst_safe : (s.setRst m v).safe = s.safe := rfl
@[simp] theorem setRst_safeAt : (s.setRst m v).safeAt = s.safeAt := rfl
@[simp] theorem setRst_errPulse : (s.setRst m v).errPulse = s.errPulse := rfl
@[simp] theorem setRst_errWant : (s.setRst m v).errWant = s.errWant := rfl
@[simp] theorem setRst_intPend : (s.setRst m v).intPend = s.intPend := rfl
@[simp] theorem setRst_intLine : (s.setRst m v).intLine = s.intLine := rfl
@[simp] theorem setRst_intPulse : (s.setRst m v).intPulse = s.intPulse := rfl
@[simp] theorem setRst_intOwner : (s.setRst m v).intOwner = s.intOwner := rfl
@[simp] theorem setRst_intSel : (s.setRst m v).intSel = s.intSel := rfl
@[simp] theorem setRst_asleep : (s.setRst m v).asleep = s.asleep := rfl
@[simp] theorem setRst_caps : (s.setRst m v).caps = s.caps := rfl
@[simp] theorem setRst_captures : (s.setRst m v).captures = s.captures := rfl
@[simp] theorem setRst_ledgerCaps : (s.setRst m v).ledgerCaps = s.ledgerCaps := rfl
@[simp] theorem setRst_answers : (s.setRst m v).answers = s.answers := rfl
@[simp] theorem setRst_parked : (s.setRst m v).parked = s.parked := rfl
@[simp] theorem setRst_gate : (s.setRst m v).gate = s.gate := rfl
@[simp] theorem setRst_turn : (s.setRst m v).turn = s.turn := rfl
@[simp] theorem setRst_loader : (s.setRst m v).loader = s.loader := rfl
@[simp] theorem setRst_sealed_ : (s.setRst m v).sealed_ = s.sealed_ := rfl
@[simp] theorem setRst_sealWant : (s.setRst m v).sealWant = s.sealWant := rfl
@[simp] theorem setRst_domains : (s.setRst m v).domains = s.domains := rfl
@[simp] theorem setRst_free : (s.setRst m v).free = s.free := rfl
end

section
variable (x : Nat) (v : Sat)
@[simp] theorem setSat_pending : (s.setSat x v).pending = s.pending := rfl
@[simp] theorem setSat_clk : (s.setSat x v).clk = s.clk := rfl
@[simp] theorem setSat_run : (s.setSat x v).run = s.run := rfl
@[simp] theorem setSat_late : (s.setSat x v).late = s.late := rfl
@[simp] theorem setSat_heldFrom : (s.setSat x v).heldFrom = s.heldFrom := rfl
@[simp] theorem setSat_heldTo : (s.setSat x v).heldTo = s.heldTo := rfl
@[simp] theorem setSat_skipNext : (s.setSat x v).skipNext = s.skipNext := rfl
@[simp] theorem setSat_levelNow : (s.setSat x v).levelNow = s.levelNow := rfl
@[simp] theorem setSat_levelNext : (s.setSat x v).levelNext = s.levelNext := rfl
@[simp] theorem setSat_dwell : (s.setSat x v).dwell = s.dwell := rfl
@[simp] theorem setSat_life : (s.setSat x v).life = s.life := rfl
@[simp] theorem setSat_railsLost : (s.setSat x v).railsLost = s.railsLost := rfl
@[simp] theorem setSat_wake : (s.setSat x v).wake = s.wake := rfl
@[simp] theorem setSat_warmNext : (s.setSat x v).warmNext = s.warmNext := rfl
@[simp] theorem setSat_regs : (s.setSat x v).regs = s.regs := rfl
@[simp] theorem setSat_regsA : (s.setSat x v).regsA = s.regsA := rfl
@[simp] theorem setSat_chainRegs : (s.setSat x v).chainRegs = s.chainRegs := rfl
@[simp] theorem setSat_regsB1 : (s.setSat x v).regsB1 = s.regsB1 := rfl
@[simp] theorem setSat_regsB2 : (s.setSat x v).regsB2 = s.regsB2 := rfl
@[simp] theorem setSat_regsM1 : (s.setSat x v).regsM1 = s.regsM1 := rfl
@[simp] theorem setSat_regsM2 : (s.setSat x v).regsM2 = s.regsM2 := rfl
@[simp] theorem setSat_regsM3 : (s.setSat x v).regsM3 = s.regsM3 := rfl
@[simp] theorem setSat_mem : (s.setSat x v).mem = s.mem := rfl
@[simp] theorem setSat_ups : (s.setSat x v).ups = s.ups := rfl
@[simp] theorem setSat_upsOther : (s.setSat x v).upsOther = s.upsOther := rfl
@[simp] theorem setSat_tiles : (s.setSat x v).tiles = s.tiles := rfl
@[simp] theorem setSat_spares : (s.setSat x v).spares = s.spares := rfl
@[simp] theorem setSat_cols : (s.setSat x v).cols = s.cols := rfl
@[simp] theorem setSat_wheelPos : (s.setSat x v).wheelPos = s.wheelPos := rfl
@[simp] theorem setSat_turns : (s.setSat x v).turns = s.turns := rfl
@[simp] theorem setSat_wheelSet : (s.setSat x v).wheelSet = s.wheelSet := rfl
@[simp] theorem setSat_wheelPend : (s.setSat x v).wheelPend = s.wheelPend := rfl
@[simp] theorem setSat_wheelReq : (s.setSat x v).wheelReq = s.wheelReq := rfl
@[simp] theorem setSat_wheels : (s.setSat x v).wheels = s.wheels := rfl
@[simp] theorem setSat_lfsrPrev : (s.setSat x v).lfsrPrev = s.lfsrPrev := rfl
@[simp] theorem setSat_queues : (s.setSat x v).queues = s.queues := rfl
@[simp] theorem setSat_lots : (s.setSat x v).lots = s.lots := rfl
@[simp] theorem setSat_starving : (s.setSat x v).starving = s.starving := rfl
@[simp] theorem setSat_rdLanes : (s.setSat x v).rdLanes = s.rdLanes := rfl
@[simp] theorem setSat_wrLanes : (s.setSat x v).wrLanes = s.wrLanes := rfl
@[simp] theorem setSat_slotRd : (s.setSat x v).slotRd = s.slotRd := rfl
@[simp] theorem setSat_slotWr : (s.setSat x v).slotWr = s.slotWr := rfl
@[simp] theorem setSat_slotRdOut : (s.setSat x v).slotRdOut = s.slotRdOut := rfl
@[simp] theorem setSat_slotWrOut : (s.setSat x v).slotWrOut = s.slotWrOut := rfl
@[simp] theorem setSat_scalars : (s.setSat x v).scalars = s.scalars := rfl
@[simp] theorem setSat_nextScalar : (s.setSat x v).nextScalar = s.nextScalar := rfl
@[simp] theorem setSat_scalarOut : (s.setSat x v).scalarOut = s.scalarOut := rfl
@[simp] theorem setSat_rsts : (s.setSat x v).rsts = s.rsts := rfl
@[simp] theorem setSat_links : (s.setSat x v).links = s.links := rfl
@[simp] theorem setSat_wins : (s.setSat x v).wins = s.wins := rfl
@[simp] theorem setSat_decay : (s.setSat x v).decay = s.decay := rfl
@[simp] theorem setSat_satMem : (s.setSat x v).satMem = s.satMem := rfl
@[simp] theorem setSat_satOut : (s.setSat x v).satOut = s.satOut := rfl
@[simp] theorem setSat_hops : (s.setSat x v).hops = s.hops := rfl
@[simp] theorem setSat_caravans : (s.setSat x v).caravans = s.caravans := rfl
@[simp] theorem setSat_store : (s.setSat x v).store = s.store := rfl
@[simp] theorem setSat_agents : (s.setSat x v).agents = s.agents := rfl
@[simp] theorem setSat_ctxs : (s.setSat x v).ctxs = s.ctxs := rfl
@[simp] theorem setSat_pieces : (s.setSat x v).pieces = s.pieces := rfl
@[simp] theorem setSat_nextSq : (s.setSat x v).nextSq = s.nextSq := rfl
@[simp] theorem setSat_bursts : (s.setSat x v).bursts = s.bursts := rfl
@[simp] theorem setSat_exports : (s.setSat x v).exports = s.exports := rfl
@[simp] theorem setSat_rr : (s.setSat x v).rr = s.rr := rfl
@[simp] theorem setSat_axiLast : (s.setSat x v).axiLast = s.axiLast := rfl
@[simp] theorem setSat_aborts : (s.setSat x v).aborts = s.aborts := rfl
@[simp] theorem setSat_farHold : (s.setSat x v).farHold = s.farHold := rfl
@[simp] theorem setSat_pmaps : (s.setSat x v).pmaps = s.pmaps := rfl
@[simp] theorem setSat_pmapOp : (s.setSat x v).pmapOp = s.pmapOp := rfl
@[simp] theorem setSat_pmapHeld : (s.setSat x v).pmapHeld = s.pmapHeld := rfl
@[simp] theorem setSat_escq : (s.setSat x v).escq = s.escq := rfl
@[simp] theorem setSat_nextEsc : (s.setSat x v).nextEsc = s.nextEsc := rfl
@[simp] theorem setSat_metas : (s.setSat x v).metas = s.metas := rfl
@[simp] theorem setSat_tallies : (s.setSat x v).tallies = s.tallies := rfl
@[simp] theorem setSat_tallyMem : (s.setSat x v).tallyMem = s.tallyMem := rfl
@[simp] theorem setSat_tallyOut : (s.setSat x v).tallyOut = s.tallyOut := rfl
@[simp] theorem setSat_bells : (s.setSat x v).bells = s.bells := rfl
@[simp] theorem setSat_bellOps : (s.setSat x v).bellOps = s.bellOps := rfl
@[simp] theorem setSat_tkHeld : (s.setSat x v).tkHeld = s.tkHeld := rfl
@[simp] theorem setSat_sbox : (s.setSat x v).sbox = s.sbox := rfl
@[simp] theorem setSat_sboxWait : (s.setSat x v).sboxWait = s.sboxWait := rfl
@[simp] theorem setSat_sboxAns : (s.setSat x v).sboxAns = s.sboxAns := rfl
@[simp] theorem setSat_sboxBusy : (s.setSat x v).sboxBusy = s.sboxBusy := rfl
@[simp] theorem setSat_reapSet : (s.setSat x v).reapSet = s.reapSet := rfl
@[simp] theorem setSat_reapEnter : (s.setSat x v).reapEnter = s.reapEnter := rfl
@[simp] theorem setSat_reapAt : (s.setSat x v).reapAt = s.reapAt := rfl
@[simp] theorem setSat_reapMark : (s.setSat x v).reapMark = s.reapMark := rfl
@[simp] theorem setSat_reapSince : (s.setSat x v).reapSince = s.reapSince := rfl
@[simp] theorem setSat_reapEnd : (s.setSat x v).reapEnd = s.reapEnd := rfl
@[simp] theorem setSat_reapMarked : (s.setSat x v).reapMarked = s.reapMarked := rfl
@[simp] theorem setSat_wipeEnd : (s.setSat x v).wipeEnd = s.wipeEnd := rfl
@[simp] theorem setSat_lcKnown : (s.setSat x v).lcKnown = s.lcKnown := rfl
@[simp] theorem setSat_fus : (s.setSat x v).fus = s.fus := rfl
@[simp] theorem setSat_safe : (s.setSat x v).safe = s.safe := rfl
@[simp] theorem setSat_safeAt : (s.setSat x v).safeAt = s.safeAt := rfl
@[simp] theorem setSat_errPulse : (s.setSat x v).errPulse = s.errPulse := rfl
@[simp] theorem setSat_errWant : (s.setSat x v).errWant = s.errWant := rfl
@[simp] theorem setSat_intPend : (s.setSat x v).intPend = s.intPend := rfl
@[simp] theorem setSat_intLine : (s.setSat x v).intLine = s.intLine := rfl
@[simp] theorem setSat_intPulse : (s.setSat x v).intPulse = s.intPulse := rfl
@[simp] theorem setSat_intOwner : (s.setSat x v).intOwner = s.intOwner := rfl
@[simp] theorem setSat_intSel : (s.setSat x v).intSel = s.intSel := rfl
@[simp] theorem setSat_asleep : (s.setSat x v).asleep = s.asleep := rfl
@[simp] theorem setSat_caps : (s.setSat x v).caps = s.caps := rfl
@[simp] theorem setSat_captures : (s.setSat x v).captures = s.captures := rfl
@[simp] theorem setSat_ledgerCaps : (s.setSat x v).ledgerCaps = s.ledgerCaps := rfl
@[simp] theorem setSat_answers : (s.setSat x v).answers = s.answers := rfl
@[simp] theorem setSat_parked : (s.setSat x v).parked = s.parked := rfl
@[simp] theorem setSat_gate : (s.setSat x v).gate = s.gate := rfl
@[simp] theorem setSat_turn : (s.setSat x v).turn = s.turn := rfl
@[simp] theorem setSat_loader : (s.setSat x v).loader = s.loader := rfl
@[simp] theorem setSat_sealed_ : (s.setSat x v).sealed_ = s.sealed_ := rfl
@[simp] theorem setSat_sealWant : (s.setSat x v).sealWant = s.sealWant := rfl
@[simp] theorem setSat_domains : (s.setSat x v).domains = s.domains := rfl
@[simp] theorem setSat_free : (s.setSat x v).free = s.free := rfl
end

section
variable (a : Nat) (v : Agent)
@[simp] theorem setAgent_pending : (s.setAgent a v).pending = s.pending := rfl
@[simp] theorem setAgent_clk : (s.setAgent a v).clk = s.clk := rfl
@[simp] theorem setAgent_run : (s.setAgent a v).run = s.run := rfl
@[simp] theorem setAgent_late : (s.setAgent a v).late = s.late := rfl
@[simp] theorem setAgent_heldFrom : (s.setAgent a v).heldFrom = s.heldFrom := rfl
@[simp] theorem setAgent_heldTo : (s.setAgent a v).heldTo = s.heldTo := rfl
@[simp] theorem setAgent_skipNext : (s.setAgent a v).skipNext = s.skipNext := rfl
@[simp] theorem setAgent_levelNow : (s.setAgent a v).levelNow = s.levelNow := rfl
@[simp] theorem setAgent_levelNext : (s.setAgent a v).levelNext = s.levelNext := rfl
@[simp] theorem setAgent_dwell : (s.setAgent a v).dwell = s.dwell := rfl
@[simp] theorem setAgent_life : (s.setAgent a v).life = s.life := rfl
@[simp] theorem setAgent_railsLost : (s.setAgent a v).railsLost = s.railsLost := rfl
@[simp] theorem setAgent_wake : (s.setAgent a v).wake = s.wake := rfl
@[simp] theorem setAgent_warmNext : (s.setAgent a v).warmNext = s.warmNext := rfl
@[simp] theorem setAgent_regs : (s.setAgent a v).regs = s.regs := rfl
@[simp] theorem setAgent_regsA : (s.setAgent a v).regsA = s.regsA := rfl
@[simp] theorem setAgent_chainRegs : (s.setAgent a v).chainRegs = s.chainRegs := rfl
@[simp] theorem setAgent_regsB1 : (s.setAgent a v).regsB1 = s.regsB1 := rfl
@[simp] theorem setAgent_regsB2 : (s.setAgent a v).regsB2 = s.regsB2 := rfl
@[simp] theorem setAgent_regsM1 : (s.setAgent a v).regsM1 = s.regsM1 := rfl
@[simp] theorem setAgent_regsM2 : (s.setAgent a v).regsM2 = s.regsM2 := rfl
@[simp] theorem setAgent_regsM3 : (s.setAgent a v).regsM3 = s.regsM3 := rfl
@[simp] theorem setAgent_mem : (s.setAgent a v).mem = s.mem := rfl
@[simp] theorem setAgent_ups : (s.setAgent a v).ups = s.ups := rfl
@[simp] theorem setAgent_upsOther : (s.setAgent a v).upsOther = s.upsOther := rfl
@[simp] theorem setAgent_tiles : (s.setAgent a v).tiles = s.tiles := rfl
@[simp] theorem setAgent_spares : (s.setAgent a v).spares = s.spares := rfl
@[simp] theorem setAgent_cols : (s.setAgent a v).cols = s.cols := rfl
@[simp] theorem setAgent_wheelPos : (s.setAgent a v).wheelPos = s.wheelPos := rfl
@[simp] theorem setAgent_turns : (s.setAgent a v).turns = s.turns := rfl
@[simp] theorem setAgent_wheelSet : (s.setAgent a v).wheelSet = s.wheelSet := rfl
@[simp] theorem setAgent_wheelPend : (s.setAgent a v).wheelPend = s.wheelPend := rfl
@[simp] theorem setAgent_wheelReq : (s.setAgent a v).wheelReq = s.wheelReq := rfl
@[simp] theorem setAgent_wheels : (s.setAgent a v).wheels = s.wheels := rfl
@[simp] theorem setAgent_lfsrPrev : (s.setAgent a v).lfsrPrev = s.lfsrPrev := rfl
@[simp] theorem setAgent_queues : (s.setAgent a v).queues = s.queues := rfl
@[simp] theorem setAgent_lots : (s.setAgent a v).lots = s.lots := rfl
@[simp] theorem setAgent_starving : (s.setAgent a v).starving = s.starving := rfl
@[simp] theorem setAgent_rdLanes : (s.setAgent a v).rdLanes = s.rdLanes := rfl
@[simp] theorem setAgent_wrLanes : (s.setAgent a v).wrLanes = s.wrLanes := rfl
@[simp] theorem setAgent_slotRd : (s.setAgent a v).slotRd = s.slotRd := rfl
@[simp] theorem setAgent_slotWr : (s.setAgent a v).slotWr = s.slotWr := rfl
@[simp] theorem setAgent_slotRdOut : (s.setAgent a v).slotRdOut = s.slotRdOut := rfl
@[simp] theorem setAgent_slotWrOut : (s.setAgent a v).slotWrOut = s.slotWrOut := rfl
@[simp] theorem setAgent_scalars : (s.setAgent a v).scalars = s.scalars := rfl
@[simp] theorem setAgent_nextScalar : (s.setAgent a v).nextScalar = s.nextScalar := rfl
@[simp] theorem setAgent_scalarOut : (s.setAgent a v).scalarOut = s.scalarOut := rfl
@[simp] theorem setAgent_rsts : (s.setAgent a v).rsts = s.rsts := rfl
@[simp] theorem setAgent_links : (s.setAgent a v).links = s.links := rfl
@[simp] theorem setAgent_wins : (s.setAgent a v).wins = s.wins := rfl
@[simp] theorem setAgent_decay : (s.setAgent a v).decay = s.decay := rfl
@[simp] theorem setAgent_sats : (s.setAgent a v).sats = s.sats := rfl
@[simp] theorem setAgent_satMem : (s.setAgent a v).satMem = s.satMem := rfl
@[simp] theorem setAgent_satOut : (s.setAgent a v).satOut = s.satOut := rfl
@[simp] theorem setAgent_hops : (s.setAgent a v).hops = s.hops := rfl
@[simp] theorem setAgent_caravans : (s.setAgent a v).caravans = s.caravans := rfl
@[simp] theorem setAgent_store : (s.setAgent a v).store = s.store := rfl
@[simp] theorem setAgent_ctxs : (s.setAgent a v).ctxs = s.ctxs := rfl
@[simp] theorem setAgent_pieces : (s.setAgent a v).pieces = s.pieces := rfl
@[simp] theorem setAgent_nextSq : (s.setAgent a v).nextSq = s.nextSq := rfl
@[simp] theorem setAgent_bursts : (s.setAgent a v).bursts = s.bursts := rfl
@[simp] theorem setAgent_exports : (s.setAgent a v).exports = s.exports := rfl
@[simp] theorem setAgent_rr : (s.setAgent a v).rr = s.rr := rfl
@[simp] theorem setAgent_axiLast : (s.setAgent a v).axiLast = s.axiLast := rfl
@[simp] theorem setAgent_aborts : (s.setAgent a v).aborts = s.aborts := rfl
@[simp] theorem setAgent_farHold : (s.setAgent a v).farHold = s.farHold := rfl
@[simp] theorem setAgent_pmaps : (s.setAgent a v).pmaps = s.pmaps := rfl
@[simp] theorem setAgent_pmapOp : (s.setAgent a v).pmapOp = s.pmapOp := rfl
@[simp] theorem setAgent_pmapHeld : (s.setAgent a v).pmapHeld = s.pmapHeld := rfl
@[simp] theorem setAgent_escq : (s.setAgent a v).escq = s.escq := rfl
@[simp] theorem setAgent_nextEsc : (s.setAgent a v).nextEsc = s.nextEsc := rfl
@[simp] theorem setAgent_metas : (s.setAgent a v).metas = s.metas := rfl
@[simp] theorem setAgent_tallies : (s.setAgent a v).tallies = s.tallies := rfl
@[simp] theorem setAgent_tallyMem : (s.setAgent a v).tallyMem = s.tallyMem := rfl
@[simp] theorem setAgent_tallyOut : (s.setAgent a v).tallyOut = s.tallyOut := rfl
@[simp] theorem setAgent_bells : (s.setAgent a v).bells = s.bells := rfl
@[simp] theorem setAgent_bellOps : (s.setAgent a v).bellOps = s.bellOps := rfl
@[simp] theorem setAgent_tkHeld : (s.setAgent a v).tkHeld = s.tkHeld := rfl
@[simp] theorem setAgent_sbox : (s.setAgent a v).sbox = s.sbox := rfl
@[simp] theorem setAgent_sboxWait : (s.setAgent a v).sboxWait = s.sboxWait := rfl
@[simp] theorem setAgent_sboxAns : (s.setAgent a v).sboxAns = s.sboxAns := rfl
@[simp] theorem setAgent_sboxBusy : (s.setAgent a v).sboxBusy = s.sboxBusy := rfl
@[simp] theorem setAgent_reapSet : (s.setAgent a v).reapSet = s.reapSet := rfl
@[simp] theorem setAgent_reapEnter : (s.setAgent a v).reapEnter = s.reapEnter := rfl
@[simp] theorem setAgent_reapAt : (s.setAgent a v).reapAt = s.reapAt := rfl
@[simp] theorem setAgent_reapMark : (s.setAgent a v).reapMark = s.reapMark := rfl
@[simp] theorem setAgent_reapSince : (s.setAgent a v).reapSince = s.reapSince := rfl
@[simp] theorem setAgent_reapEnd : (s.setAgent a v).reapEnd = s.reapEnd := rfl
@[simp] theorem setAgent_reapMarked : (s.setAgent a v).reapMarked = s.reapMarked := rfl
@[simp] theorem setAgent_wipeEnd : (s.setAgent a v).wipeEnd = s.wipeEnd := rfl
@[simp] theorem setAgent_lcKnown : (s.setAgent a v).lcKnown = s.lcKnown := rfl
@[simp] theorem setAgent_fus : (s.setAgent a v).fus = s.fus := rfl
@[simp] theorem setAgent_safe : (s.setAgent a v).safe = s.safe := rfl
@[simp] theorem setAgent_safeAt : (s.setAgent a v).safeAt = s.safeAt := rfl
@[simp] theorem setAgent_errPulse : (s.setAgent a v).errPulse = s.errPulse := rfl
@[simp] theorem setAgent_errWant : (s.setAgent a v).errWant = s.errWant := rfl
@[simp] theorem setAgent_intPend : (s.setAgent a v).intPend = s.intPend := rfl
@[simp] theorem setAgent_intLine : (s.setAgent a v).intLine = s.intLine := rfl
@[simp] theorem setAgent_intPulse : (s.setAgent a v).intPulse = s.intPulse := rfl
@[simp] theorem setAgent_intOwner : (s.setAgent a v).intOwner = s.intOwner := rfl
@[simp] theorem setAgent_intSel : (s.setAgent a v).intSel = s.intSel := rfl
@[simp] theorem setAgent_asleep : (s.setAgent a v).asleep = s.asleep := rfl
@[simp] theorem setAgent_caps : (s.setAgent a v).caps = s.caps := rfl
@[simp] theorem setAgent_captures : (s.setAgent a v).captures = s.captures := rfl
@[simp] theorem setAgent_ledgerCaps : (s.setAgent a v).ledgerCaps = s.ledgerCaps := rfl
@[simp] theorem setAgent_answers : (s.setAgent a v).answers = s.answers := rfl
@[simp] theorem setAgent_parked : (s.setAgent a v).parked = s.parked := rfl
@[simp] theorem setAgent_gate : (s.setAgent a v).gate = s.gate := rfl
@[simp] theorem setAgent_turn : (s.setAgent a v).turn = s.turn := rfl
@[simp] theorem setAgent_loader : (s.setAgent a v).loader = s.loader := rfl
@[simp] theorem setAgent_sealed_ : (s.setAgent a v).sealed_ = s.sealed_ := rfl
@[simp] theorem setAgent_sealWant : (s.setAgent a v).sealWant = s.sealWant := rfl
@[simp] theorem setAgent_domains : (s.setAgent a v).domains = s.domains := rfl
@[simp] theorem setAgent_free : (s.setAgent a v).free = s.free := rfl
end

section
variable (a k : Nat) (v : Ctx)
@[simp] theorem setCtx_pending : (s.setCtx a k v).pending = s.pending := rfl
@[simp] theorem setCtx_clk : (s.setCtx a k v).clk = s.clk := rfl
@[simp] theorem setCtx_run : (s.setCtx a k v).run = s.run := rfl
@[simp] theorem setCtx_late : (s.setCtx a k v).late = s.late := rfl
@[simp] theorem setCtx_heldFrom : (s.setCtx a k v).heldFrom = s.heldFrom := rfl
@[simp] theorem setCtx_heldTo : (s.setCtx a k v).heldTo = s.heldTo := rfl
@[simp] theorem setCtx_skipNext : (s.setCtx a k v).skipNext = s.skipNext := rfl
@[simp] theorem setCtx_levelNow : (s.setCtx a k v).levelNow = s.levelNow := rfl
@[simp] theorem setCtx_levelNext : (s.setCtx a k v).levelNext = s.levelNext := rfl
@[simp] theorem setCtx_dwell : (s.setCtx a k v).dwell = s.dwell := rfl
@[simp] theorem setCtx_life : (s.setCtx a k v).life = s.life := rfl
@[simp] theorem setCtx_railsLost : (s.setCtx a k v).railsLost = s.railsLost := rfl
@[simp] theorem setCtx_wake : (s.setCtx a k v).wake = s.wake := rfl
@[simp] theorem setCtx_warmNext : (s.setCtx a k v).warmNext = s.warmNext := rfl
@[simp] theorem setCtx_regs : (s.setCtx a k v).regs = s.regs := rfl
@[simp] theorem setCtx_regsA : (s.setCtx a k v).regsA = s.regsA := rfl
@[simp] theorem setCtx_chainRegs : (s.setCtx a k v).chainRegs = s.chainRegs := rfl
@[simp] theorem setCtx_regsB1 : (s.setCtx a k v).regsB1 = s.regsB1 := rfl
@[simp] theorem setCtx_regsB2 : (s.setCtx a k v).regsB2 = s.regsB2 := rfl
@[simp] theorem setCtx_regsM1 : (s.setCtx a k v).regsM1 = s.regsM1 := rfl
@[simp] theorem setCtx_regsM2 : (s.setCtx a k v).regsM2 = s.regsM2 := rfl
@[simp] theorem setCtx_regsM3 : (s.setCtx a k v).regsM3 = s.regsM3 := rfl
@[simp] theorem setCtx_mem : (s.setCtx a k v).mem = s.mem := rfl
@[simp] theorem setCtx_ups : (s.setCtx a k v).ups = s.ups := rfl
@[simp] theorem setCtx_upsOther : (s.setCtx a k v).upsOther = s.upsOther := rfl
@[simp] theorem setCtx_tiles : (s.setCtx a k v).tiles = s.tiles := rfl
@[simp] theorem setCtx_spares : (s.setCtx a k v).spares = s.spares := rfl
@[simp] theorem setCtx_cols : (s.setCtx a k v).cols = s.cols := rfl
@[simp] theorem setCtx_wheelPos : (s.setCtx a k v).wheelPos = s.wheelPos := rfl
@[simp] theorem setCtx_turns : (s.setCtx a k v).turns = s.turns := rfl
@[simp] theorem setCtx_wheelSet : (s.setCtx a k v).wheelSet = s.wheelSet := rfl
@[simp] theorem setCtx_wheelPend : (s.setCtx a k v).wheelPend = s.wheelPend := rfl
@[simp] theorem setCtx_wheelReq : (s.setCtx a k v).wheelReq = s.wheelReq := rfl
@[simp] theorem setCtx_wheels : (s.setCtx a k v).wheels = s.wheels := rfl
@[simp] theorem setCtx_lfsrPrev : (s.setCtx a k v).lfsrPrev = s.lfsrPrev := rfl
@[simp] theorem setCtx_queues : (s.setCtx a k v).queues = s.queues := rfl
@[simp] theorem setCtx_lots : (s.setCtx a k v).lots = s.lots := rfl
@[simp] theorem setCtx_starving : (s.setCtx a k v).starving = s.starving := rfl
@[simp] theorem setCtx_rdLanes : (s.setCtx a k v).rdLanes = s.rdLanes := rfl
@[simp] theorem setCtx_wrLanes : (s.setCtx a k v).wrLanes = s.wrLanes := rfl
@[simp] theorem setCtx_slotRd : (s.setCtx a k v).slotRd = s.slotRd := rfl
@[simp] theorem setCtx_slotWr : (s.setCtx a k v).slotWr = s.slotWr := rfl
@[simp] theorem setCtx_slotRdOut : (s.setCtx a k v).slotRdOut = s.slotRdOut := rfl
@[simp] theorem setCtx_slotWrOut : (s.setCtx a k v).slotWrOut = s.slotWrOut := rfl
@[simp] theorem setCtx_scalars : (s.setCtx a k v).scalars = s.scalars := rfl
@[simp] theorem setCtx_nextScalar : (s.setCtx a k v).nextScalar = s.nextScalar := rfl
@[simp] theorem setCtx_scalarOut : (s.setCtx a k v).scalarOut = s.scalarOut := rfl
@[simp] theorem setCtx_rsts : (s.setCtx a k v).rsts = s.rsts := rfl
@[simp] theorem setCtx_links : (s.setCtx a k v).links = s.links := rfl
@[simp] theorem setCtx_wins : (s.setCtx a k v).wins = s.wins := rfl
@[simp] theorem setCtx_decay : (s.setCtx a k v).decay = s.decay := rfl
@[simp] theorem setCtx_sats : (s.setCtx a k v).sats = s.sats := rfl
@[simp] theorem setCtx_satMem : (s.setCtx a k v).satMem = s.satMem := rfl
@[simp] theorem setCtx_satOut : (s.setCtx a k v).satOut = s.satOut := rfl
@[simp] theorem setCtx_hops : (s.setCtx a k v).hops = s.hops := rfl
@[simp] theorem setCtx_caravans : (s.setCtx a k v).caravans = s.caravans := rfl
@[simp] theorem setCtx_store : (s.setCtx a k v).store = s.store := rfl
@[simp] theorem setCtx_agents : (s.setCtx a k v).agents = s.agents := rfl
@[simp] theorem setCtx_pieces : (s.setCtx a k v).pieces = s.pieces := rfl
@[simp] theorem setCtx_nextSq : (s.setCtx a k v).nextSq = s.nextSq := rfl
@[simp] theorem setCtx_bursts : (s.setCtx a k v).bursts = s.bursts := rfl
@[simp] theorem setCtx_exports : (s.setCtx a k v).exports = s.exports := rfl
@[simp] theorem setCtx_rr : (s.setCtx a k v).rr = s.rr := rfl
@[simp] theorem setCtx_axiLast : (s.setCtx a k v).axiLast = s.axiLast := rfl
@[simp] theorem setCtx_aborts : (s.setCtx a k v).aborts = s.aborts := rfl
@[simp] theorem setCtx_farHold : (s.setCtx a k v).farHold = s.farHold := rfl
@[simp] theorem setCtx_pmaps : (s.setCtx a k v).pmaps = s.pmaps := rfl
@[simp] theorem setCtx_pmapOp : (s.setCtx a k v).pmapOp = s.pmapOp := rfl
@[simp] theorem setCtx_pmapHeld : (s.setCtx a k v).pmapHeld = s.pmapHeld := rfl
@[simp] theorem setCtx_escq : (s.setCtx a k v).escq = s.escq := rfl
@[simp] theorem setCtx_nextEsc : (s.setCtx a k v).nextEsc = s.nextEsc := rfl
@[simp] theorem setCtx_metas : (s.setCtx a k v).metas = s.metas := rfl
@[simp] theorem setCtx_tallies : (s.setCtx a k v).tallies = s.tallies := rfl
@[simp] theorem setCtx_tallyMem : (s.setCtx a k v).tallyMem = s.tallyMem := rfl
@[simp] theorem setCtx_tallyOut : (s.setCtx a k v).tallyOut = s.tallyOut := rfl
@[simp] theorem setCtx_bells : (s.setCtx a k v).bells = s.bells := rfl
@[simp] theorem setCtx_bellOps : (s.setCtx a k v).bellOps = s.bellOps := rfl
@[simp] theorem setCtx_tkHeld : (s.setCtx a k v).tkHeld = s.tkHeld := rfl
@[simp] theorem setCtx_sbox : (s.setCtx a k v).sbox = s.sbox := rfl
@[simp] theorem setCtx_sboxWait : (s.setCtx a k v).sboxWait = s.sboxWait := rfl
@[simp] theorem setCtx_sboxAns : (s.setCtx a k v).sboxAns = s.sboxAns := rfl
@[simp] theorem setCtx_sboxBusy : (s.setCtx a k v).sboxBusy = s.sboxBusy := rfl
@[simp] theorem setCtx_reapSet : (s.setCtx a k v).reapSet = s.reapSet := rfl
@[simp] theorem setCtx_reapEnter : (s.setCtx a k v).reapEnter = s.reapEnter := rfl
@[simp] theorem setCtx_reapAt : (s.setCtx a k v).reapAt = s.reapAt := rfl
@[simp] theorem setCtx_reapMark : (s.setCtx a k v).reapMark = s.reapMark := rfl
@[simp] theorem setCtx_reapSince : (s.setCtx a k v).reapSince = s.reapSince := rfl
@[simp] theorem setCtx_reapEnd : (s.setCtx a k v).reapEnd = s.reapEnd := rfl
@[simp] theorem setCtx_reapMarked : (s.setCtx a k v).reapMarked = s.reapMarked := rfl
@[simp] theorem setCtx_wipeEnd : (s.setCtx a k v).wipeEnd = s.wipeEnd := rfl
@[simp] theorem setCtx_lcKnown : (s.setCtx a k v).lcKnown = s.lcKnown := rfl
@[simp] theorem setCtx_fus : (s.setCtx a k v).fus = s.fus := rfl
@[simp] theorem setCtx_safe : (s.setCtx a k v).safe = s.safe := rfl
@[simp] theorem setCtx_safeAt : (s.setCtx a k v).safeAt = s.safeAt := rfl
@[simp] theorem setCtx_errPulse : (s.setCtx a k v).errPulse = s.errPulse := rfl
@[simp] theorem setCtx_errWant : (s.setCtx a k v).errWant = s.errWant := rfl
@[simp] theorem setCtx_intPend : (s.setCtx a k v).intPend = s.intPend := rfl
@[simp] theorem setCtx_intLine : (s.setCtx a k v).intLine = s.intLine := rfl
@[simp] theorem setCtx_intPulse : (s.setCtx a k v).intPulse = s.intPulse := rfl
@[simp] theorem setCtx_intOwner : (s.setCtx a k v).intOwner = s.intOwner := rfl
@[simp] theorem setCtx_intSel : (s.setCtx a k v).intSel = s.intSel := rfl
@[simp] theorem setCtx_asleep : (s.setCtx a k v).asleep = s.asleep := rfl
@[simp] theorem setCtx_caps : (s.setCtx a k v).caps = s.caps := rfl
@[simp] theorem setCtx_captures : (s.setCtx a k v).captures = s.captures := rfl
@[simp] theorem setCtx_ledgerCaps : (s.setCtx a k v).ledgerCaps = s.ledgerCaps := rfl
@[simp] theorem setCtx_answers : (s.setCtx a k v).answers = s.answers := rfl
@[simp] theorem setCtx_parked : (s.setCtx a k v).parked = s.parked := rfl
@[simp] theorem setCtx_gate : (s.setCtx a k v).gate = s.gate := rfl
@[simp] theorem setCtx_turn : (s.setCtx a k v).turn = s.turn := rfl
@[simp] theorem setCtx_loader : (s.setCtx a k v).loader = s.loader := rfl
@[simp] theorem setCtx_sealed_ : (s.setCtx a k v).sealed_ = s.sealed_ := rfl
@[simp] theorem setCtx_sealWant : (s.setCtx a k v).sealWant = s.sealWant := rfl
@[simp] theorem setCtx_domains : (s.setCtx a k v).domains = s.domains := rfl
@[simp] theorem setCtx_free : (s.setCtx a k v).free = s.free := rfl
end

section
variable (b : Nat) (v : Bell)
@[simp] theorem setBell_pending : (s.setBell b v).pending = s.pending := rfl
@[simp] theorem setBell_clk : (s.setBell b v).clk = s.clk := rfl
@[simp] theorem setBell_run : (s.setBell b v).run = s.run := rfl
@[simp] theorem setBell_late : (s.setBell b v).late = s.late := rfl
@[simp] theorem setBell_heldFrom : (s.setBell b v).heldFrom = s.heldFrom := rfl
@[simp] theorem setBell_heldTo : (s.setBell b v).heldTo = s.heldTo := rfl
@[simp] theorem setBell_skipNext : (s.setBell b v).skipNext = s.skipNext := rfl
@[simp] theorem setBell_levelNow : (s.setBell b v).levelNow = s.levelNow := rfl
@[simp] theorem setBell_levelNext : (s.setBell b v).levelNext = s.levelNext := rfl
@[simp] theorem setBell_dwell : (s.setBell b v).dwell = s.dwell := rfl
@[simp] theorem setBell_life : (s.setBell b v).life = s.life := rfl
@[simp] theorem setBell_railsLost : (s.setBell b v).railsLost = s.railsLost := rfl
@[simp] theorem setBell_wake : (s.setBell b v).wake = s.wake := rfl
@[simp] theorem setBell_warmNext : (s.setBell b v).warmNext = s.warmNext := rfl
@[simp] theorem setBell_regs : (s.setBell b v).regs = s.regs := rfl
@[simp] theorem setBell_regsA : (s.setBell b v).regsA = s.regsA := rfl
@[simp] theorem setBell_chainRegs : (s.setBell b v).chainRegs = s.chainRegs := rfl
@[simp] theorem setBell_regsB1 : (s.setBell b v).regsB1 = s.regsB1 := rfl
@[simp] theorem setBell_regsB2 : (s.setBell b v).regsB2 = s.regsB2 := rfl
@[simp] theorem setBell_regsM1 : (s.setBell b v).regsM1 = s.regsM1 := rfl
@[simp] theorem setBell_regsM2 : (s.setBell b v).regsM2 = s.regsM2 := rfl
@[simp] theorem setBell_regsM3 : (s.setBell b v).regsM3 = s.regsM3 := rfl
@[simp] theorem setBell_mem : (s.setBell b v).mem = s.mem := rfl
@[simp] theorem setBell_ups : (s.setBell b v).ups = s.ups := rfl
@[simp] theorem setBell_upsOther : (s.setBell b v).upsOther = s.upsOther := rfl
@[simp] theorem setBell_tiles : (s.setBell b v).tiles = s.tiles := rfl
@[simp] theorem setBell_spares : (s.setBell b v).spares = s.spares := rfl
@[simp] theorem setBell_cols : (s.setBell b v).cols = s.cols := rfl
@[simp] theorem setBell_wheelPos : (s.setBell b v).wheelPos = s.wheelPos := rfl
@[simp] theorem setBell_turns : (s.setBell b v).turns = s.turns := rfl
@[simp] theorem setBell_wheelSet : (s.setBell b v).wheelSet = s.wheelSet := rfl
@[simp] theorem setBell_wheelPend : (s.setBell b v).wheelPend = s.wheelPend := rfl
@[simp] theorem setBell_wheelReq : (s.setBell b v).wheelReq = s.wheelReq := rfl
@[simp] theorem setBell_wheels : (s.setBell b v).wheels = s.wheels := rfl
@[simp] theorem setBell_lfsrPrev : (s.setBell b v).lfsrPrev = s.lfsrPrev := rfl
@[simp] theorem setBell_queues : (s.setBell b v).queues = s.queues := rfl
@[simp] theorem setBell_lots : (s.setBell b v).lots = s.lots := rfl
@[simp] theorem setBell_starving : (s.setBell b v).starving = s.starving := rfl
@[simp] theorem setBell_rdLanes : (s.setBell b v).rdLanes = s.rdLanes := rfl
@[simp] theorem setBell_wrLanes : (s.setBell b v).wrLanes = s.wrLanes := rfl
@[simp] theorem setBell_slotRd : (s.setBell b v).slotRd = s.slotRd := rfl
@[simp] theorem setBell_slotWr : (s.setBell b v).slotWr = s.slotWr := rfl
@[simp] theorem setBell_slotRdOut : (s.setBell b v).slotRdOut = s.slotRdOut := rfl
@[simp] theorem setBell_slotWrOut : (s.setBell b v).slotWrOut = s.slotWrOut := rfl
@[simp] theorem setBell_scalars : (s.setBell b v).scalars = s.scalars := rfl
@[simp] theorem setBell_nextScalar : (s.setBell b v).nextScalar = s.nextScalar := rfl
@[simp] theorem setBell_scalarOut : (s.setBell b v).scalarOut = s.scalarOut := rfl
@[simp] theorem setBell_rsts : (s.setBell b v).rsts = s.rsts := rfl
@[simp] theorem setBell_links : (s.setBell b v).links = s.links := rfl
@[simp] theorem setBell_wins : (s.setBell b v).wins = s.wins := rfl
@[simp] theorem setBell_decay : (s.setBell b v).decay = s.decay := rfl
@[simp] theorem setBell_sats : (s.setBell b v).sats = s.sats := rfl
@[simp] theorem setBell_satMem : (s.setBell b v).satMem = s.satMem := rfl
@[simp] theorem setBell_satOut : (s.setBell b v).satOut = s.satOut := rfl
@[simp] theorem setBell_hops : (s.setBell b v).hops = s.hops := rfl
@[simp] theorem setBell_caravans : (s.setBell b v).caravans = s.caravans := rfl
@[simp] theorem setBell_store : (s.setBell b v).store = s.store := rfl
@[simp] theorem setBell_agents : (s.setBell b v).agents = s.agents := rfl
@[simp] theorem setBell_ctxs : (s.setBell b v).ctxs = s.ctxs := rfl
@[simp] theorem setBell_pieces : (s.setBell b v).pieces = s.pieces := rfl
@[simp] theorem setBell_nextSq : (s.setBell b v).nextSq = s.nextSq := rfl
@[simp] theorem setBell_bursts : (s.setBell b v).bursts = s.bursts := rfl
@[simp] theorem setBell_exports : (s.setBell b v).exports = s.exports := rfl
@[simp] theorem setBell_rr : (s.setBell b v).rr = s.rr := rfl
@[simp] theorem setBell_axiLast : (s.setBell b v).axiLast = s.axiLast := rfl
@[simp] theorem setBell_aborts : (s.setBell b v).aborts = s.aborts := rfl
@[simp] theorem setBell_farHold : (s.setBell b v).farHold = s.farHold := rfl
@[simp] theorem setBell_pmaps : (s.setBell b v).pmaps = s.pmaps := rfl
@[simp] theorem setBell_pmapOp : (s.setBell b v).pmapOp = s.pmapOp := rfl
@[simp] theorem setBell_pmapHeld : (s.setBell b v).pmapHeld = s.pmapHeld := rfl
@[simp] theorem setBell_escq : (s.setBell b v).escq = s.escq := rfl
@[simp] theorem setBell_nextEsc : (s.setBell b v).nextEsc = s.nextEsc := rfl
@[simp] theorem setBell_metas : (s.setBell b v).metas = s.metas := rfl
@[simp] theorem setBell_tallies : (s.setBell b v).tallies = s.tallies := rfl
@[simp] theorem setBell_tallyMem : (s.setBell b v).tallyMem = s.tallyMem := rfl
@[simp] theorem setBell_tallyOut : (s.setBell b v).tallyOut = s.tallyOut := rfl
@[simp] theorem setBell_bellOps : (s.setBell b v).bellOps = s.bellOps := rfl
@[simp] theorem setBell_tkHeld : (s.setBell b v).tkHeld = s.tkHeld := rfl
@[simp] theorem setBell_sbox : (s.setBell b v).sbox = s.sbox := rfl
@[simp] theorem setBell_sboxWait : (s.setBell b v).sboxWait = s.sboxWait := rfl
@[simp] theorem setBell_sboxAns : (s.setBell b v).sboxAns = s.sboxAns := rfl
@[simp] theorem setBell_sboxBusy : (s.setBell b v).sboxBusy = s.sboxBusy := rfl
@[simp] theorem setBell_reapSet : (s.setBell b v).reapSet = s.reapSet := rfl
@[simp] theorem setBell_reapEnter : (s.setBell b v).reapEnter = s.reapEnter := rfl
@[simp] theorem setBell_reapAt : (s.setBell b v).reapAt = s.reapAt := rfl
@[simp] theorem setBell_reapMark : (s.setBell b v).reapMark = s.reapMark := rfl
@[simp] theorem setBell_reapSince : (s.setBell b v).reapSince = s.reapSince := rfl
@[simp] theorem setBell_reapEnd : (s.setBell b v).reapEnd = s.reapEnd := rfl
@[simp] theorem setBell_reapMarked : (s.setBell b v).reapMarked = s.reapMarked := rfl
@[simp] theorem setBell_wipeEnd : (s.setBell b v).wipeEnd = s.wipeEnd := rfl
@[simp] theorem setBell_lcKnown : (s.setBell b v).lcKnown = s.lcKnown := rfl
@[simp] theorem setBell_fus : (s.setBell b v).fus = s.fus := rfl
@[simp] theorem setBell_safe : (s.setBell b v).safe = s.safe := rfl
@[simp] theorem setBell_safeAt : (s.setBell b v).safeAt = s.safeAt := rfl
@[simp] theorem setBell_errPulse : (s.setBell b v).errPulse = s.errPulse := rfl
@[simp] theorem setBell_errWant : (s.setBell b v).errWant = s.errWant := rfl
@[simp] theorem setBell_intPend : (s.setBell b v).intPend = s.intPend := rfl
@[simp] theorem setBell_intLine : (s.setBell b v).intLine = s.intLine := rfl
@[simp] theorem setBell_intPulse : (s.setBell b v).intPulse = s.intPulse := rfl
@[simp] theorem setBell_intOwner : (s.setBell b v).intOwner = s.intOwner := rfl
@[simp] theorem setBell_intSel : (s.setBell b v).intSel = s.intSel := rfl
@[simp] theorem setBell_asleep : (s.setBell b v).asleep = s.asleep := rfl
@[simp] theorem setBell_caps : (s.setBell b v).caps = s.caps := rfl
@[simp] theorem setBell_captures : (s.setBell b v).captures = s.captures := rfl
@[simp] theorem setBell_ledgerCaps : (s.setBell b v).ledgerCaps = s.ledgerCaps := rfl
@[simp] theorem setBell_answers : (s.setBell b v).answers = s.answers := rfl
@[simp] theorem setBell_parked : (s.setBell b v).parked = s.parked := rfl
@[simp] theorem setBell_gate : (s.setBell b v).gate = s.gate := rfl
@[simp] theorem setBell_turn : (s.setBell b v).turn = s.turn := rfl
@[simp] theorem setBell_loader : (s.setBell b v).loader = s.loader := rfl
@[simp] theorem setBell_sealed_ : (s.setBell b v).sealed_ = s.sealed_ := rfl
@[simp] theorem setBell_sealWant : (s.setBell b v).sealWant = s.sealWant := rfl
@[simp] theorem setBell_domains : (s.setBell b v).domains = s.domains := rfl
@[simp] theorem setBell_free : (s.setBell b v).free = s.free := rfl
end

section
variable (n : Nat) (v : Fu)
@[simp] theorem setFu_pending : (s.setFu n v).pending = s.pending := rfl
@[simp] theorem setFu_clk : (s.setFu n v).clk = s.clk := rfl
@[simp] theorem setFu_run : (s.setFu n v).run = s.run := rfl
@[simp] theorem setFu_late : (s.setFu n v).late = s.late := rfl
@[simp] theorem setFu_heldFrom : (s.setFu n v).heldFrom = s.heldFrom := rfl
@[simp] theorem setFu_heldTo : (s.setFu n v).heldTo = s.heldTo := rfl
@[simp] theorem setFu_skipNext : (s.setFu n v).skipNext = s.skipNext := rfl
@[simp] theorem setFu_levelNow : (s.setFu n v).levelNow = s.levelNow := rfl
@[simp] theorem setFu_levelNext : (s.setFu n v).levelNext = s.levelNext := rfl
@[simp] theorem setFu_dwell : (s.setFu n v).dwell = s.dwell := rfl
@[simp] theorem setFu_life : (s.setFu n v).life = s.life := rfl
@[simp] theorem setFu_railsLost : (s.setFu n v).railsLost = s.railsLost := rfl
@[simp] theorem setFu_wake : (s.setFu n v).wake = s.wake := rfl
@[simp] theorem setFu_warmNext : (s.setFu n v).warmNext = s.warmNext := rfl
@[simp] theorem setFu_regs : (s.setFu n v).regs = s.regs := rfl
@[simp] theorem setFu_regsA : (s.setFu n v).regsA = s.regsA := rfl
@[simp] theorem setFu_chainRegs : (s.setFu n v).chainRegs = s.chainRegs := rfl
@[simp] theorem setFu_regsB1 : (s.setFu n v).regsB1 = s.regsB1 := rfl
@[simp] theorem setFu_regsB2 : (s.setFu n v).regsB2 = s.regsB2 := rfl
@[simp] theorem setFu_regsM1 : (s.setFu n v).regsM1 = s.regsM1 := rfl
@[simp] theorem setFu_regsM2 : (s.setFu n v).regsM2 = s.regsM2 := rfl
@[simp] theorem setFu_regsM3 : (s.setFu n v).regsM3 = s.regsM3 := rfl
@[simp] theorem setFu_mem : (s.setFu n v).mem = s.mem := rfl
@[simp] theorem setFu_ups : (s.setFu n v).ups = s.ups := rfl
@[simp] theorem setFu_upsOther : (s.setFu n v).upsOther = s.upsOther := rfl
@[simp] theorem setFu_tiles : (s.setFu n v).tiles = s.tiles := rfl
@[simp] theorem setFu_spares : (s.setFu n v).spares = s.spares := rfl
@[simp] theorem setFu_cols : (s.setFu n v).cols = s.cols := rfl
@[simp] theorem setFu_wheelPos : (s.setFu n v).wheelPos = s.wheelPos := rfl
@[simp] theorem setFu_turns : (s.setFu n v).turns = s.turns := rfl
@[simp] theorem setFu_wheelSet : (s.setFu n v).wheelSet = s.wheelSet := rfl
@[simp] theorem setFu_wheelPend : (s.setFu n v).wheelPend = s.wheelPend := rfl
@[simp] theorem setFu_wheelReq : (s.setFu n v).wheelReq = s.wheelReq := rfl
@[simp] theorem setFu_wheels : (s.setFu n v).wheels = s.wheels := rfl
@[simp] theorem setFu_lfsrPrev : (s.setFu n v).lfsrPrev = s.lfsrPrev := rfl
@[simp] theorem setFu_queues : (s.setFu n v).queues = s.queues := rfl
@[simp] theorem setFu_lots : (s.setFu n v).lots = s.lots := rfl
@[simp] theorem setFu_starving : (s.setFu n v).starving = s.starving := rfl
@[simp] theorem setFu_rdLanes : (s.setFu n v).rdLanes = s.rdLanes := rfl
@[simp] theorem setFu_wrLanes : (s.setFu n v).wrLanes = s.wrLanes := rfl
@[simp] theorem setFu_slotRd : (s.setFu n v).slotRd = s.slotRd := rfl
@[simp] theorem setFu_slotWr : (s.setFu n v).slotWr = s.slotWr := rfl
@[simp] theorem setFu_slotRdOut : (s.setFu n v).slotRdOut = s.slotRdOut := rfl
@[simp] theorem setFu_slotWrOut : (s.setFu n v).slotWrOut = s.slotWrOut := rfl
@[simp] theorem setFu_scalars : (s.setFu n v).scalars = s.scalars := rfl
@[simp] theorem setFu_nextScalar : (s.setFu n v).nextScalar = s.nextScalar := rfl
@[simp] theorem setFu_scalarOut : (s.setFu n v).scalarOut = s.scalarOut := rfl
@[simp] theorem setFu_rsts : (s.setFu n v).rsts = s.rsts := rfl
@[simp] theorem setFu_links : (s.setFu n v).links = s.links := rfl
@[simp] theorem setFu_wins : (s.setFu n v).wins = s.wins := rfl
@[simp] theorem setFu_decay : (s.setFu n v).decay = s.decay := rfl
@[simp] theorem setFu_sats : (s.setFu n v).sats = s.sats := rfl
@[simp] theorem setFu_satMem : (s.setFu n v).satMem = s.satMem := rfl
@[simp] theorem setFu_satOut : (s.setFu n v).satOut = s.satOut := rfl
@[simp] theorem setFu_hops : (s.setFu n v).hops = s.hops := rfl
@[simp] theorem setFu_caravans : (s.setFu n v).caravans = s.caravans := rfl
@[simp] theorem setFu_store : (s.setFu n v).store = s.store := rfl
@[simp] theorem setFu_agents : (s.setFu n v).agents = s.agents := rfl
@[simp] theorem setFu_ctxs : (s.setFu n v).ctxs = s.ctxs := rfl
@[simp] theorem setFu_pieces : (s.setFu n v).pieces = s.pieces := rfl
@[simp] theorem setFu_nextSq : (s.setFu n v).nextSq = s.nextSq := rfl
@[simp] theorem setFu_bursts : (s.setFu n v).bursts = s.bursts := rfl
@[simp] theorem setFu_exports : (s.setFu n v).exports = s.exports := rfl
@[simp] theorem setFu_rr : (s.setFu n v).rr = s.rr := rfl
@[simp] theorem setFu_axiLast : (s.setFu n v).axiLast = s.axiLast := rfl
@[simp] theorem setFu_aborts : (s.setFu n v).aborts = s.aborts := rfl
@[simp] theorem setFu_farHold : (s.setFu n v).farHold = s.farHold := rfl
@[simp] theorem setFu_pmaps : (s.setFu n v).pmaps = s.pmaps := rfl
@[simp] theorem setFu_pmapOp : (s.setFu n v).pmapOp = s.pmapOp := rfl
@[simp] theorem setFu_pmapHeld : (s.setFu n v).pmapHeld = s.pmapHeld := rfl
@[simp] theorem setFu_escq : (s.setFu n v).escq = s.escq := rfl
@[simp] theorem setFu_nextEsc : (s.setFu n v).nextEsc = s.nextEsc := rfl
@[simp] theorem setFu_metas : (s.setFu n v).metas = s.metas := rfl
@[simp] theorem setFu_tallies : (s.setFu n v).tallies = s.tallies := rfl
@[simp] theorem setFu_tallyMem : (s.setFu n v).tallyMem = s.tallyMem := rfl
@[simp] theorem setFu_tallyOut : (s.setFu n v).tallyOut = s.tallyOut := rfl
@[simp] theorem setFu_bells : (s.setFu n v).bells = s.bells := rfl
@[simp] theorem setFu_bellOps : (s.setFu n v).bellOps = s.bellOps := rfl
@[simp] theorem setFu_tkHeld : (s.setFu n v).tkHeld = s.tkHeld := rfl
@[simp] theorem setFu_sbox : (s.setFu n v).sbox = s.sbox := rfl
@[simp] theorem setFu_sboxWait : (s.setFu n v).sboxWait = s.sboxWait := rfl
@[simp] theorem setFu_sboxAns : (s.setFu n v).sboxAns = s.sboxAns := rfl
@[simp] theorem setFu_sboxBusy : (s.setFu n v).sboxBusy = s.sboxBusy := rfl
@[simp] theorem setFu_reapSet : (s.setFu n v).reapSet = s.reapSet := rfl
@[simp] theorem setFu_reapEnter : (s.setFu n v).reapEnter = s.reapEnter := rfl
@[simp] theorem setFu_reapAt : (s.setFu n v).reapAt = s.reapAt := rfl
@[simp] theorem setFu_reapMark : (s.setFu n v).reapMark = s.reapMark := rfl
@[simp] theorem setFu_reapSince : (s.setFu n v).reapSince = s.reapSince := rfl
@[simp] theorem setFu_reapEnd : (s.setFu n v).reapEnd = s.reapEnd := rfl
@[simp] theorem setFu_reapMarked : (s.setFu n v).reapMarked = s.reapMarked := rfl
@[simp] theorem setFu_wipeEnd : (s.setFu n v).wipeEnd = s.wipeEnd := rfl
@[simp] theorem setFu_lcKnown : (s.setFu n v).lcKnown = s.lcKnown := rfl
@[simp] theorem setFu_safe : (s.setFu n v).safe = s.safe := rfl
@[simp] theorem setFu_safeAt : (s.setFu n v).safeAt = s.safeAt := rfl
@[simp] theorem setFu_errPulse : (s.setFu n v).errPulse = s.errPulse := rfl
@[simp] theorem setFu_errWant : (s.setFu n v).errWant = s.errWant := rfl
@[simp] theorem setFu_intPend : (s.setFu n v).intPend = s.intPend := rfl
@[simp] theorem setFu_intLine : (s.setFu n v).intLine = s.intLine := rfl
@[simp] theorem setFu_intPulse : (s.setFu n v).intPulse = s.intPulse := rfl
@[simp] theorem setFu_intOwner : (s.setFu n v).intOwner = s.intOwner := rfl
@[simp] theorem setFu_intSel : (s.setFu n v).intSel = s.intSel := rfl
@[simp] theorem setFu_asleep : (s.setFu n v).asleep = s.asleep := rfl
@[simp] theorem setFu_caps : (s.setFu n v).caps = s.caps := rfl
@[simp] theorem setFu_captures : (s.setFu n v).captures = s.captures := rfl
@[simp] theorem setFu_ledgerCaps : (s.setFu n v).ledgerCaps = s.ledgerCaps := rfl
@[simp] theorem setFu_answers : (s.setFu n v).answers = s.answers := rfl
@[simp] theorem setFu_parked : (s.setFu n v).parked = s.parked := rfl
@[simp] theorem setFu_gate : (s.setFu n v).gate = s.gate := rfl
@[simp] theorem setFu_turn : (s.setFu n v).turn = s.turn := rfl
@[simp] theorem setFu_loader : (s.setFu n v).loader = s.loader := rfl
@[simp] theorem setFu_sealed_ : (s.setFu n v).sealed_ = s.sealed_ := rfl
@[simp] theorem setFu_sealWant : (s.setFu n v).sealWant = s.sealWant := rfl
@[simp] theorem setFu_domains : (s.setFu n v).domains = s.domains := rfl
@[simp] theorem setFu_free : (s.setFu n v).free = s.free := rfl
end

section
variable (w : Nat) (v : WinX)
@[simp] theorem setWin_pending : (s.setWin w v).pending = s.pending := rfl
@[simp] theorem setWin_clk : (s.setWin w v).clk = s.clk := rfl
@[simp] theorem setWin_run : (s.setWin w v).run = s.run := rfl
@[simp] theorem setWin_late : (s.setWin w v).late = s.late := rfl
@[simp] theorem setWin_heldFrom : (s.setWin w v).heldFrom = s.heldFrom := rfl
@[simp] theorem setWin_heldTo : (s.setWin w v).heldTo = s.heldTo := rfl
@[simp] theorem setWin_skipNext : (s.setWin w v).skipNext = s.skipNext := rfl
@[simp] theorem setWin_levelNow : (s.setWin w v).levelNow = s.levelNow := rfl
@[simp] theorem setWin_levelNext : (s.setWin w v).levelNext = s.levelNext := rfl
@[simp] theorem setWin_dwell : (s.setWin w v).dwell = s.dwell := rfl
@[simp] theorem setWin_life : (s.setWin w v).life = s.life := rfl
@[simp] theorem setWin_railsLost : (s.setWin w v).railsLost = s.railsLost := rfl
@[simp] theorem setWin_wake : (s.setWin w v).wake = s.wake := rfl
@[simp] theorem setWin_warmNext : (s.setWin w v).warmNext = s.warmNext := rfl
@[simp] theorem setWin_regs : (s.setWin w v).regs = s.regs := rfl
@[simp] theorem setWin_regsA : (s.setWin w v).regsA = s.regsA := rfl
@[simp] theorem setWin_chainRegs : (s.setWin w v).chainRegs = s.chainRegs := rfl
@[simp] theorem setWin_regsB1 : (s.setWin w v).regsB1 = s.regsB1 := rfl
@[simp] theorem setWin_regsB2 : (s.setWin w v).regsB2 = s.regsB2 := rfl
@[simp] theorem setWin_regsM1 : (s.setWin w v).regsM1 = s.regsM1 := rfl
@[simp] theorem setWin_regsM2 : (s.setWin w v).regsM2 = s.regsM2 := rfl
@[simp] theorem setWin_regsM3 : (s.setWin w v).regsM3 = s.regsM3 := rfl
@[simp] theorem setWin_mem : (s.setWin w v).mem = s.mem := rfl
@[simp] theorem setWin_ups : (s.setWin w v).ups = s.ups := rfl
@[simp] theorem setWin_upsOther : (s.setWin w v).upsOther = s.upsOther := rfl
@[simp] theorem setWin_tiles : (s.setWin w v).tiles = s.tiles := rfl
@[simp] theorem setWin_spares : (s.setWin w v).spares = s.spares := rfl
@[simp] theorem setWin_cols : (s.setWin w v).cols = s.cols := rfl
@[simp] theorem setWin_wheelPos : (s.setWin w v).wheelPos = s.wheelPos := rfl
@[simp] theorem setWin_turns : (s.setWin w v).turns = s.turns := rfl
@[simp] theorem setWin_wheelSet : (s.setWin w v).wheelSet = s.wheelSet := rfl
@[simp] theorem setWin_wheelPend : (s.setWin w v).wheelPend = s.wheelPend := rfl
@[simp] theorem setWin_wheelReq : (s.setWin w v).wheelReq = s.wheelReq := rfl
@[simp] theorem setWin_wheels : (s.setWin w v).wheels = s.wheels := rfl
@[simp] theorem setWin_lfsrPrev : (s.setWin w v).lfsrPrev = s.lfsrPrev := rfl
@[simp] theorem setWin_queues : (s.setWin w v).queues = s.queues := rfl
@[simp] theorem setWin_lots : (s.setWin w v).lots = s.lots := rfl
@[simp] theorem setWin_starving : (s.setWin w v).starving = s.starving := rfl
@[simp] theorem setWin_rdLanes : (s.setWin w v).rdLanes = s.rdLanes := rfl
@[simp] theorem setWin_wrLanes : (s.setWin w v).wrLanes = s.wrLanes := rfl
@[simp] theorem setWin_slotRd : (s.setWin w v).slotRd = s.slotRd := rfl
@[simp] theorem setWin_slotWr : (s.setWin w v).slotWr = s.slotWr := rfl
@[simp] theorem setWin_slotRdOut : (s.setWin w v).slotRdOut = s.slotRdOut := rfl
@[simp] theorem setWin_slotWrOut : (s.setWin w v).slotWrOut = s.slotWrOut := rfl
@[simp] theorem setWin_scalars : (s.setWin w v).scalars = s.scalars := rfl
@[simp] theorem setWin_nextScalar : (s.setWin w v).nextScalar = s.nextScalar := rfl
@[simp] theorem setWin_scalarOut : (s.setWin w v).scalarOut = s.scalarOut := rfl
@[simp] theorem setWin_rsts : (s.setWin w v).rsts = s.rsts := rfl
@[simp] theorem setWin_links : (s.setWin w v).links = s.links := rfl
@[simp] theorem setWin_decay : (s.setWin w v).decay = s.decay := rfl
@[simp] theorem setWin_sats : (s.setWin w v).sats = s.sats := rfl
@[simp] theorem setWin_satMem : (s.setWin w v).satMem = s.satMem := rfl
@[simp] theorem setWin_satOut : (s.setWin w v).satOut = s.satOut := rfl
@[simp] theorem setWin_hops : (s.setWin w v).hops = s.hops := rfl
@[simp] theorem setWin_caravans : (s.setWin w v).caravans = s.caravans := rfl
@[simp] theorem setWin_store : (s.setWin w v).store = s.store := rfl
@[simp] theorem setWin_agents : (s.setWin w v).agents = s.agents := rfl
@[simp] theorem setWin_ctxs : (s.setWin w v).ctxs = s.ctxs := rfl
@[simp] theorem setWin_pieces : (s.setWin w v).pieces = s.pieces := rfl
@[simp] theorem setWin_nextSq : (s.setWin w v).nextSq = s.nextSq := rfl
@[simp] theorem setWin_bursts : (s.setWin w v).bursts = s.bursts := rfl
@[simp] theorem setWin_exports : (s.setWin w v).exports = s.exports := rfl
@[simp] theorem setWin_rr : (s.setWin w v).rr = s.rr := rfl
@[simp] theorem setWin_axiLast : (s.setWin w v).axiLast = s.axiLast := rfl
@[simp] theorem setWin_aborts : (s.setWin w v).aborts = s.aborts := rfl
@[simp] theorem setWin_farHold : (s.setWin w v).farHold = s.farHold := rfl
@[simp] theorem setWin_pmaps : (s.setWin w v).pmaps = s.pmaps := rfl
@[simp] theorem setWin_pmapOp : (s.setWin w v).pmapOp = s.pmapOp := rfl
@[simp] theorem setWin_pmapHeld : (s.setWin w v).pmapHeld = s.pmapHeld := rfl
@[simp] theorem setWin_escq : (s.setWin w v).escq = s.escq := rfl
@[simp] theorem setWin_nextEsc : (s.setWin w v).nextEsc = s.nextEsc := rfl
@[simp] theorem setWin_metas : (s.setWin w v).metas = s.metas := rfl
@[simp] theorem setWin_tallies : (s.setWin w v).tallies = s.tallies := rfl
@[simp] theorem setWin_tallyMem : (s.setWin w v).tallyMem = s.tallyMem := rfl
@[simp] theorem setWin_tallyOut : (s.setWin w v).tallyOut = s.tallyOut := rfl
@[simp] theorem setWin_bells : (s.setWin w v).bells = s.bells := rfl
@[simp] theorem setWin_bellOps : (s.setWin w v).bellOps = s.bellOps := rfl
@[simp] theorem setWin_tkHeld : (s.setWin w v).tkHeld = s.tkHeld := rfl
@[simp] theorem setWin_sbox : (s.setWin w v).sbox = s.sbox := rfl
@[simp] theorem setWin_sboxWait : (s.setWin w v).sboxWait = s.sboxWait := rfl
@[simp] theorem setWin_sboxAns : (s.setWin w v).sboxAns = s.sboxAns := rfl
@[simp] theorem setWin_sboxBusy : (s.setWin w v).sboxBusy = s.sboxBusy := rfl
@[simp] theorem setWin_reapSet : (s.setWin w v).reapSet = s.reapSet := rfl
@[simp] theorem setWin_reapEnter : (s.setWin w v).reapEnter = s.reapEnter := rfl
@[simp] theorem setWin_reapAt : (s.setWin w v).reapAt = s.reapAt := rfl
@[simp] theorem setWin_reapMark : (s.setWin w v).reapMark = s.reapMark := rfl
@[simp] theorem setWin_reapSince : (s.setWin w v).reapSince = s.reapSince := rfl
@[simp] theorem setWin_reapEnd : (s.setWin w v).reapEnd = s.reapEnd := rfl
@[simp] theorem setWin_reapMarked : (s.setWin w v).reapMarked = s.reapMarked := rfl
@[simp] theorem setWin_wipeEnd : (s.setWin w v).wipeEnd = s.wipeEnd := rfl
@[simp] theorem setWin_lcKnown : (s.setWin w v).lcKnown = s.lcKnown := rfl
@[simp] theorem setWin_fus : (s.setWin w v).fus = s.fus := rfl
@[simp] theorem setWin_safe : (s.setWin w v).safe = s.safe := rfl
@[simp] theorem setWin_safeAt : (s.setWin w v).safeAt = s.safeAt := rfl
@[simp] theorem setWin_errPulse : (s.setWin w v).errPulse = s.errPulse := rfl
@[simp] theorem setWin_errWant : (s.setWin w v).errWant = s.errWant := rfl
@[simp] theorem setWin_intPend : (s.setWin w v).intPend = s.intPend := rfl
@[simp] theorem setWin_intLine : (s.setWin w v).intLine = s.intLine := rfl
@[simp] theorem setWin_intPulse : (s.setWin w v).intPulse = s.intPulse := rfl
@[simp] theorem setWin_intOwner : (s.setWin w v).intOwner = s.intOwner := rfl
@[simp] theorem setWin_intSel : (s.setWin w v).intSel = s.intSel := rfl
@[simp] theorem setWin_asleep : (s.setWin w v).asleep = s.asleep := rfl
@[simp] theorem setWin_caps : (s.setWin w v).caps = s.caps := rfl
@[simp] theorem setWin_captures : (s.setWin w v).captures = s.captures := rfl
@[simp] theorem setWin_ledgerCaps : (s.setWin w v).ledgerCaps = s.ledgerCaps := rfl
@[simp] theorem setWin_answers : (s.setWin w v).answers = s.answers := rfl
@[simp] theorem setWin_parked : (s.setWin w v).parked = s.parked := rfl
@[simp] theorem setWin_gate : (s.setWin w v).gate = s.gate := rfl
@[simp] theorem setWin_turn : (s.setWin w v).turn = s.turn := rfl
@[simp] theorem setWin_loader : (s.setWin w v).loader = s.loader := rfl
@[simp] theorem setWin_sealed_ : (s.setWin w v).sealed_ = s.sealed_ := rfl
@[simp] theorem setWin_sealWant : (s.setWin w v).sealWant = s.sealWant := rfl
@[simp] theorem setWin_domains : (s.setWin w v).domains = s.domains := rfl
@[simp] theorem setWin_free : (s.setWin w v).free = s.free := rfl
end

section
variable (l : Nat) (v : Link)
@[simp] theorem setLink_pending : (s.setLink l v).pending = s.pending := rfl
@[simp] theorem setLink_clk : (s.setLink l v).clk = s.clk := rfl
@[simp] theorem setLink_run : (s.setLink l v).run = s.run := rfl
@[simp] theorem setLink_late : (s.setLink l v).late = s.late := rfl
@[simp] theorem setLink_heldFrom : (s.setLink l v).heldFrom = s.heldFrom := rfl
@[simp] theorem setLink_heldTo : (s.setLink l v).heldTo = s.heldTo := rfl
@[simp] theorem setLink_skipNext : (s.setLink l v).skipNext = s.skipNext := rfl
@[simp] theorem setLink_levelNow : (s.setLink l v).levelNow = s.levelNow := rfl
@[simp] theorem setLink_levelNext : (s.setLink l v).levelNext = s.levelNext := rfl
@[simp] theorem setLink_dwell : (s.setLink l v).dwell = s.dwell := rfl
@[simp] theorem setLink_life : (s.setLink l v).life = s.life := rfl
@[simp] theorem setLink_railsLost : (s.setLink l v).railsLost = s.railsLost := rfl
@[simp] theorem setLink_wake : (s.setLink l v).wake = s.wake := rfl
@[simp] theorem setLink_warmNext : (s.setLink l v).warmNext = s.warmNext := rfl
@[simp] theorem setLink_regs : (s.setLink l v).regs = s.regs := rfl
@[simp] theorem setLink_regsA : (s.setLink l v).regsA = s.regsA := rfl
@[simp] theorem setLink_chainRegs : (s.setLink l v).chainRegs = s.chainRegs := rfl
@[simp] theorem setLink_regsB1 : (s.setLink l v).regsB1 = s.regsB1 := rfl
@[simp] theorem setLink_regsB2 : (s.setLink l v).regsB2 = s.regsB2 := rfl
@[simp] theorem setLink_regsM1 : (s.setLink l v).regsM1 = s.regsM1 := rfl
@[simp] theorem setLink_regsM2 : (s.setLink l v).regsM2 = s.regsM2 := rfl
@[simp] theorem setLink_regsM3 : (s.setLink l v).regsM3 = s.regsM3 := rfl
@[simp] theorem setLink_mem : (s.setLink l v).mem = s.mem := rfl
@[simp] theorem setLink_ups : (s.setLink l v).ups = s.ups := rfl
@[simp] theorem setLink_upsOther : (s.setLink l v).upsOther = s.upsOther := rfl
@[simp] theorem setLink_tiles : (s.setLink l v).tiles = s.tiles := rfl
@[simp] theorem setLink_spares : (s.setLink l v).spares = s.spares := rfl
@[simp] theorem setLink_cols : (s.setLink l v).cols = s.cols := rfl
@[simp] theorem setLink_wheelPos : (s.setLink l v).wheelPos = s.wheelPos := rfl
@[simp] theorem setLink_turns : (s.setLink l v).turns = s.turns := rfl
@[simp] theorem setLink_wheelSet : (s.setLink l v).wheelSet = s.wheelSet := rfl
@[simp] theorem setLink_wheelPend : (s.setLink l v).wheelPend = s.wheelPend := rfl
@[simp] theorem setLink_wheelReq : (s.setLink l v).wheelReq = s.wheelReq := rfl
@[simp] theorem setLink_wheels : (s.setLink l v).wheels = s.wheels := rfl
@[simp] theorem setLink_lfsrPrev : (s.setLink l v).lfsrPrev = s.lfsrPrev := rfl
@[simp] theorem setLink_queues : (s.setLink l v).queues = s.queues := rfl
@[simp] theorem setLink_lots : (s.setLink l v).lots = s.lots := rfl
@[simp] theorem setLink_starving : (s.setLink l v).starving = s.starving := rfl
@[simp] theorem setLink_rdLanes : (s.setLink l v).rdLanes = s.rdLanes := rfl
@[simp] theorem setLink_wrLanes : (s.setLink l v).wrLanes = s.wrLanes := rfl
@[simp] theorem setLink_slotRd : (s.setLink l v).slotRd = s.slotRd := rfl
@[simp] theorem setLink_slotWr : (s.setLink l v).slotWr = s.slotWr := rfl
@[simp] theorem setLink_slotRdOut : (s.setLink l v).slotRdOut = s.slotRdOut := rfl
@[simp] theorem setLink_slotWrOut : (s.setLink l v).slotWrOut = s.slotWrOut := rfl
@[simp] theorem setLink_scalars : (s.setLink l v).scalars = s.scalars := rfl
@[simp] theorem setLink_nextScalar : (s.setLink l v).nextScalar = s.nextScalar := rfl
@[simp] theorem setLink_scalarOut : (s.setLink l v).scalarOut = s.scalarOut := rfl
@[simp] theorem setLink_rsts : (s.setLink l v).rsts = s.rsts := rfl
@[simp] theorem setLink_wins : (s.setLink l v).wins = s.wins := rfl
@[simp] theorem setLink_decay : (s.setLink l v).decay = s.decay := rfl
@[simp] theorem setLink_sats : (s.setLink l v).sats = s.sats := rfl
@[simp] theorem setLink_satMem : (s.setLink l v).satMem = s.satMem := rfl
@[simp] theorem setLink_satOut : (s.setLink l v).satOut = s.satOut := rfl
@[simp] theorem setLink_hops : (s.setLink l v).hops = s.hops := rfl
@[simp] theorem setLink_caravans : (s.setLink l v).caravans = s.caravans := rfl
@[simp] theorem setLink_store : (s.setLink l v).store = s.store := rfl
@[simp] theorem setLink_agents : (s.setLink l v).agents = s.agents := rfl
@[simp] theorem setLink_ctxs : (s.setLink l v).ctxs = s.ctxs := rfl
@[simp] theorem setLink_pieces : (s.setLink l v).pieces = s.pieces := rfl
@[simp] theorem setLink_nextSq : (s.setLink l v).nextSq = s.nextSq := rfl
@[simp] theorem setLink_bursts : (s.setLink l v).bursts = s.bursts := rfl
@[simp] theorem setLink_exports : (s.setLink l v).exports = s.exports := rfl
@[simp] theorem setLink_rr : (s.setLink l v).rr = s.rr := rfl
@[simp] theorem setLink_axiLast : (s.setLink l v).axiLast = s.axiLast := rfl
@[simp] theorem setLink_aborts : (s.setLink l v).aborts = s.aborts := rfl
@[simp] theorem setLink_farHold : (s.setLink l v).farHold = s.farHold := rfl
@[simp] theorem setLink_pmaps : (s.setLink l v).pmaps = s.pmaps := rfl
@[simp] theorem setLink_pmapOp : (s.setLink l v).pmapOp = s.pmapOp := rfl
@[simp] theorem setLink_pmapHeld : (s.setLink l v).pmapHeld = s.pmapHeld := rfl
@[simp] theorem setLink_escq : (s.setLink l v).escq = s.escq := rfl
@[simp] theorem setLink_nextEsc : (s.setLink l v).nextEsc = s.nextEsc := rfl
@[simp] theorem setLink_metas : (s.setLink l v).metas = s.metas := rfl
@[simp] theorem setLink_tallies : (s.setLink l v).tallies = s.tallies := rfl
@[simp] theorem setLink_tallyMem : (s.setLink l v).tallyMem = s.tallyMem := rfl
@[simp] theorem setLink_tallyOut : (s.setLink l v).tallyOut = s.tallyOut := rfl
@[simp] theorem setLink_bells : (s.setLink l v).bells = s.bells := rfl
@[simp] theorem setLink_bellOps : (s.setLink l v).bellOps = s.bellOps := rfl
@[simp] theorem setLink_tkHeld : (s.setLink l v).tkHeld = s.tkHeld := rfl
@[simp] theorem setLink_sbox : (s.setLink l v).sbox = s.sbox := rfl
@[simp] theorem setLink_sboxWait : (s.setLink l v).sboxWait = s.sboxWait := rfl
@[simp] theorem setLink_sboxAns : (s.setLink l v).sboxAns = s.sboxAns := rfl
@[simp] theorem setLink_sboxBusy : (s.setLink l v).sboxBusy = s.sboxBusy := rfl
@[simp] theorem setLink_reapSet : (s.setLink l v).reapSet = s.reapSet := rfl
@[simp] theorem setLink_reapEnter : (s.setLink l v).reapEnter = s.reapEnter := rfl
@[simp] theorem setLink_reapAt : (s.setLink l v).reapAt = s.reapAt := rfl
@[simp] theorem setLink_reapMark : (s.setLink l v).reapMark = s.reapMark := rfl
@[simp] theorem setLink_reapSince : (s.setLink l v).reapSince = s.reapSince := rfl
@[simp] theorem setLink_reapEnd : (s.setLink l v).reapEnd = s.reapEnd := rfl
@[simp] theorem setLink_reapMarked : (s.setLink l v).reapMarked = s.reapMarked := rfl
@[simp] theorem setLink_wipeEnd : (s.setLink l v).wipeEnd = s.wipeEnd := rfl
@[simp] theorem setLink_lcKnown : (s.setLink l v).lcKnown = s.lcKnown := rfl
@[simp] theorem setLink_fus : (s.setLink l v).fus = s.fus := rfl
@[simp] theorem setLink_safe : (s.setLink l v).safe = s.safe := rfl
@[simp] theorem setLink_safeAt : (s.setLink l v).safeAt = s.safeAt := rfl
@[simp] theorem setLink_errPulse : (s.setLink l v).errPulse = s.errPulse := rfl
@[simp] theorem setLink_errWant : (s.setLink l v).errWant = s.errWant := rfl
@[simp] theorem setLink_intPend : (s.setLink l v).intPend = s.intPend := rfl
@[simp] theorem setLink_intLine : (s.setLink l v).intLine = s.intLine := rfl
@[simp] theorem setLink_intPulse : (s.setLink l v).intPulse = s.intPulse := rfl
@[simp] theorem setLink_intOwner : (s.setLink l v).intOwner = s.intOwner := rfl
@[simp] theorem setLink_intSel : (s.setLink l v).intSel = s.intSel := rfl
@[simp] theorem setLink_asleep : (s.setLink l v).asleep = s.asleep := rfl
@[simp] theorem setLink_caps : (s.setLink l v).caps = s.caps := rfl
@[simp] theorem setLink_captures : (s.setLink l v).captures = s.captures := rfl
@[simp] theorem setLink_ledgerCaps : (s.setLink l v).ledgerCaps = s.ledgerCaps := rfl
@[simp] theorem setLink_answers : (s.setLink l v).answers = s.answers := rfl
@[simp] theorem setLink_parked : (s.setLink l v).parked = s.parked := rfl
@[simp] theorem setLink_gate : (s.setLink l v).gate = s.gate := rfl
@[simp] theorem setLink_turn : (s.setLink l v).turn = s.turn := rfl
@[simp] theorem setLink_loader : (s.setLink l v).loader = s.loader := rfl
@[simp] theorem setLink_sealed_ : (s.setLink l v).sealed_ = s.sealed_ := rfl
@[simp] theorem setLink_sealWant : (s.setLink l v).sealWant = s.sealWant := rfl
@[simp] theorem setLink_domains : (s.setLink l v).domains = s.domains := rfl
@[simp] theorem setLink_free : (s.setLink l v).free = s.free := rfl
end

section
variable (x : Nat) (v : Tally)
@[simp] theorem setTally_pending : (s.setTally x v).pending = s.pending := rfl
@[simp] theorem setTally_clk : (s.setTally x v).clk = s.clk := rfl
@[simp] theorem setTally_run : (s.setTally x v).run = s.run := rfl
@[simp] theorem setTally_late : (s.setTally x v).late = s.late := rfl
@[simp] theorem setTally_heldFrom : (s.setTally x v).heldFrom = s.heldFrom := rfl
@[simp] theorem setTally_heldTo : (s.setTally x v).heldTo = s.heldTo := rfl
@[simp] theorem setTally_skipNext : (s.setTally x v).skipNext = s.skipNext := rfl
@[simp] theorem setTally_levelNow : (s.setTally x v).levelNow = s.levelNow := rfl
@[simp] theorem setTally_levelNext : (s.setTally x v).levelNext = s.levelNext := rfl
@[simp] theorem setTally_dwell : (s.setTally x v).dwell = s.dwell := rfl
@[simp] theorem setTally_life : (s.setTally x v).life = s.life := rfl
@[simp] theorem setTally_railsLost : (s.setTally x v).railsLost = s.railsLost := rfl
@[simp] theorem setTally_wake : (s.setTally x v).wake = s.wake := rfl
@[simp] theorem setTally_warmNext : (s.setTally x v).warmNext = s.warmNext := rfl
@[simp] theorem setTally_regs : (s.setTally x v).regs = s.regs := rfl
@[simp] theorem setTally_regsA : (s.setTally x v).regsA = s.regsA := rfl
@[simp] theorem setTally_chainRegs : (s.setTally x v).chainRegs = s.chainRegs := rfl
@[simp] theorem setTally_regsB1 : (s.setTally x v).regsB1 = s.regsB1 := rfl
@[simp] theorem setTally_regsB2 : (s.setTally x v).regsB2 = s.regsB2 := rfl
@[simp] theorem setTally_regsM1 : (s.setTally x v).regsM1 = s.regsM1 := rfl
@[simp] theorem setTally_regsM2 : (s.setTally x v).regsM2 = s.regsM2 := rfl
@[simp] theorem setTally_regsM3 : (s.setTally x v).regsM3 = s.regsM3 := rfl
@[simp] theorem setTally_mem : (s.setTally x v).mem = s.mem := rfl
@[simp] theorem setTally_ups : (s.setTally x v).ups = s.ups := rfl
@[simp] theorem setTally_upsOther : (s.setTally x v).upsOther = s.upsOther := rfl
@[simp] theorem setTally_tiles : (s.setTally x v).tiles = s.tiles := rfl
@[simp] theorem setTally_spares : (s.setTally x v).spares = s.spares := rfl
@[simp] theorem setTally_cols : (s.setTally x v).cols = s.cols := rfl
@[simp] theorem setTally_wheelPos : (s.setTally x v).wheelPos = s.wheelPos := rfl
@[simp] theorem setTally_turns : (s.setTally x v).turns = s.turns := rfl
@[simp] theorem setTally_wheelSet : (s.setTally x v).wheelSet = s.wheelSet := rfl
@[simp] theorem setTally_wheelPend : (s.setTally x v).wheelPend = s.wheelPend := rfl
@[simp] theorem setTally_wheelReq : (s.setTally x v).wheelReq = s.wheelReq := rfl
@[simp] theorem setTally_wheels : (s.setTally x v).wheels = s.wheels := rfl
@[simp] theorem setTally_lfsrPrev : (s.setTally x v).lfsrPrev = s.lfsrPrev := rfl
@[simp] theorem setTally_queues : (s.setTally x v).queues = s.queues := rfl
@[simp] theorem setTally_lots : (s.setTally x v).lots = s.lots := rfl
@[simp] theorem setTally_starving : (s.setTally x v).starving = s.starving := rfl
@[simp] theorem setTally_rdLanes : (s.setTally x v).rdLanes = s.rdLanes := rfl
@[simp] theorem setTally_wrLanes : (s.setTally x v).wrLanes = s.wrLanes := rfl
@[simp] theorem setTally_slotRd : (s.setTally x v).slotRd = s.slotRd := rfl
@[simp] theorem setTally_slotWr : (s.setTally x v).slotWr = s.slotWr := rfl
@[simp] theorem setTally_slotRdOut : (s.setTally x v).slotRdOut = s.slotRdOut := rfl
@[simp] theorem setTally_slotWrOut : (s.setTally x v).slotWrOut = s.slotWrOut := rfl
@[simp] theorem setTally_scalars : (s.setTally x v).scalars = s.scalars := rfl
@[simp] theorem setTally_nextScalar : (s.setTally x v).nextScalar = s.nextScalar := rfl
@[simp] theorem setTally_scalarOut : (s.setTally x v).scalarOut = s.scalarOut := rfl
@[simp] theorem setTally_rsts : (s.setTally x v).rsts = s.rsts := rfl
@[simp] theorem setTally_links : (s.setTally x v).links = s.links := rfl
@[simp] theorem setTally_wins : (s.setTally x v).wins = s.wins := rfl
@[simp] theorem setTally_decay : (s.setTally x v).decay = s.decay := rfl
@[simp] theorem setTally_sats : (s.setTally x v).sats = s.sats := rfl
@[simp] theorem setTally_satMem : (s.setTally x v).satMem = s.satMem := rfl
@[simp] theorem setTally_satOut : (s.setTally x v).satOut = s.satOut := rfl
@[simp] theorem setTally_hops : (s.setTally x v).hops = s.hops := rfl
@[simp] theorem setTally_caravans : (s.setTally x v).caravans = s.caravans := rfl
@[simp] theorem setTally_store : (s.setTally x v).store = s.store := rfl
@[simp] theorem setTally_agents : (s.setTally x v).agents = s.agents := rfl
@[simp] theorem setTally_ctxs : (s.setTally x v).ctxs = s.ctxs := rfl
@[simp] theorem setTally_pieces : (s.setTally x v).pieces = s.pieces := rfl
@[simp] theorem setTally_nextSq : (s.setTally x v).nextSq = s.nextSq := rfl
@[simp] theorem setTally_bursts : (s.setTally x v).bursts = s.bursts := rfl
@[simp] theorem setTally_exports : (s.setTally x v).exports = s.exports := rfl
@[simp] theorem setTally_rr : (s.setTally x v).rr = s.rr := rfl
@[simp] theorem setTally_axiLast : (s.setTally x v).axiLast = s.axiLast := rfl
@[simp] theorem setTally_aborts : (s.setTally x v).aborts = s.aborts := rfl
@[simp] theorem setTally_farHold : (s.setTally x v).farHold = s.farHold := rfl
@[simp] theorem setTally_pmaps : (s.setTally x v).pmaps = s.pmaps := rfl
@[simp] theorem setTally_pmapOp : (s.setTally x v).pmapOp = s.pmapOp := rfl
@[simp] theorem setTally_pmapHeld : (s.setTally x v).pmapHeld = s.pmapHeld := rfl
@[simp] theorem setTally_escq : (s.setTally x v).escq = s.escq := rfl
@[simp] theorem setTally_nextEsc : (s.setTally x v).nextEsc = s.nextEsc := rfl
@[simp] theorem setTally_metas : (s.setTally x v).metas = s.metas := rfl
@[simp] theorem setTally_tallyMem : (s.setTally x v).tallyMem = s.tallyMem := rfl
@[simp] theorem setTally_tallyOut : (s.setTally x v).tallyOut = s.tallyOut := rfl
@[simp] theorem setTally_bells : (s.setTally x v).bells = s.bells := rfl
@[simp] theorem setTally_bellOps : (s.setTally x v).bellOps = s.bellOps := rfl
@[simp] theorem setTally_tkHeld : (s.setTally x v).tkHeld = s.tkHeld := rfl
@[simp] theorem setTally_sbox : (s.setTally x v).sbox = s.sbox := rfl
@[simp] theorem setTally_sboxWait : (s.setTally x v).sboxWait = s.sboxWait := rfl
@[simp] theorem setTally_sboxAns : (s.setTally x v).sboxAns = s.sboxAns := rfl
@[simp] theorem setTally_sboxBusy : (s.setTally x v).sboxBusy = s.sboxBusy := rfl
@[simp] theorem setTally_reapSet : (s.setTally x v).reapSet = s.reapSet := rfl
@[simp] theorem setTally_reapEnter : (s.setTally x v).reapEnter = s.reapEnter := rfl
@[simp] theorem setTally_reapAt : (s.setTally x v).reapAt = s.reapAt := rfl
@[simp] theorem setTally_reapMark : (s.setTally x v).reapMark = s.reapMark := rfl
@[simp] theorem setTally_reapSince : (s.setTally x v).reapSince = s.reapSince := rfl
@[simp] theorem setTally_reapEnd : (s.setTally x v).reapEnd = s.reapEnd := rfl
@[simp] theorem setTally_reapMarked : (s.setTally x v).reapMarked = s.reapMarked := rfl
@[simp] theorem setTally_wipeEnd : (s.setTally x v).wipeEnd = s.wipeEnd := rfl
@[simp] theorem setTally_lcKnown : (s.setTally x v).lcKnown = s.lcKnown := rfl
@[simp] theorem setTally_fus : (s.setTally x v).fus = s.fus := rfl
@[simp] theorem setTally_safe : (s.setTally x v).safe = s.safe := rfl
@[simp] theorem setTally_safeAt : (s.setTally x v).safeAt = s.safeAt := rfl
@[simp] theorem setTally_errPulse : (s.setTally x v).errPulse = s.errPulse := rfl
@[simp] theorem setTally_errWant : (s.setTally x v).errWant = s.errWant := rfl
@[simp] theorem setTally_intPend : (s.setTally x v).intPend = s.intPend := rfl
@[simp] theorem setTally_intLine : (s.setTally x v).intLine = s.intLine := rfl
@[simp] theorem setTally_intPulse : (s.setTally x v).intPulse = s.intPulse := rfl
@[simp] theorem setTally_intOwner : (s.setTally x v).intOwner = s.intOwner := rfl
@[simp] theorem setTally_intSel : (s.setTally x v).intSel = s.intSel := rfl
@[simp] theorem setTally_asleep : (s.setTally x v).asleep = s.asleep := rfl
@[simp] theorem setTally_caps : (s.setTally x v).caps = s.caps := rfl
@[simp] theorem setTally_captures : (s.setTally x v).captures = s.captures := rfl
@[simp] theorem setTally_ledgerCaps : (s.setTally x v).ledgerCaps = s.ledgerCaps := rfl
@[simp] theorem setTally_answers : (s.setTally x v).answers = s.answers := rfl
@[simp] theorem setTally_parked : (s.setTally x v).parked = s.parked := rfl
@[simp] theorem setTally_gate : (s.setTally x v).gate = s.gate := rfl
@[simp] theorem setTally_turn : (s.setTally x v).turn = s.turn := rfl
@[simp] theorem setTally_loader : (s.setTally x v).loader = s.loader := rfl
@[simp] theorem setTally_sealed_ : (s.setTally x v).sealed_ = s.sealed_ := rfl
@[simp] theorem setTally_sealWant : (s.setTally x v).sealWant = s.sealWant := rfl
@[simp] theorem setTally_domains : (s.setTally x v).domains = s.domains := rfl
@[simp] theorem setTally_free : (s.setTally x v).free = s.free := rfl
end

section
variable (x p : Nat) (v : MetaBuf)
@[simp] theorem setMetaBuf_pending : (s.setMetaBuf x p v).pending = s.pending := rfl
@[simp] theorem setMetaBuf_clk : (s.setMetaBuf x p v).clk = s.clk := rfl
@[simp] theorem setMetaBuf_run : (s.setMetaBuf x p v).run = s.run := rfl
@[simp] theorem setMetaBuf_late : (s.setMetaBuf x p v).late = s.late := rfl
@[simp] theorem setMetaBuf_heldFrom : (s.setMetaBuf x p v).heldFrom = s.heldFrom := rfl
@[simp] theorem setMetaBuf_heldTo : (s.setMetaBuf x p v).heldTo = s.heldTo := rfl
@[simp] theorem setMetaBuf_skipNext : (s.setMetaBuf x p v).skipNext = s.skipNext := rfl
@[simp] theorem setMetaBuf_levelNow : (s.setMetaBuf x p v).levelNow = s.levelNow := rfl
@[simp] theorem setMetaBuf_levelNext : (s.setMetaBuf x p v).levelNext = s.levelNext := rfl
@[simp] theorem setMetaBuf_dwell : (s.setMetaBuf x p v).dwell = s.dwell := rfl
@[simp] theorem setMetaBuf_life : (s.setMetaBuf x p v).life = s.life := rfl
@[simp] theorem setMetaBuf_railsLost : (s.setMetaBuf x p v).railsLost = s.railsLost := rfl
@[simp] theorem setMetaBuf_wake : (s.setMetaBuf x p v).wake = s.wake := rfl
@[simp] theorem setMetaBuf_warmNext : (s.setMetaBuf x p v).warmNext = s.warmNext := rfl
@[simp] theorem setMetaBuf_regs : (s.setMetaBuf x p v).regs = s.regs := rfl
@[simp] theorem setMetaBuf_regsA : (s.setMetaBuf x p v).regsA = s.regsA := rfl
@[simp] theorem setMetaBuf_chainRegs : (s.setMetaBuf x p v).chainRegs = s.chainRegs := rfl
@[simp] theorem setMetaBuf_regsB1 : (s.setMetaBuf x p v).regsB1 = s.regsB1 := rfl
@[simp] theorem setMetaBuf_regsB2 : (s.setMetaBuf x p v).regsB2 = s.regsB2 := rfl
@[simp] theorem setMetaBuf_regsM1 : (s.setMetaBuf x p v).regsM1 = s.regsM1 := rfl
@[simp] theorem setMetaBuf_regsM2 : (s.setMetaBuf x p v).regsM2 = s.regsM2 := rfl
@[simp] theorem setMetaBuf_regsM3 : (s.setMetaBuf x p v).regsM3 = s.regsM3 := rfl
@[simp] theorem setMetaBuf_mem : (s.setMetaBuf x p v).mem = s.mem := rfl
@[simp] theorem setMetaBuf_ups : (s.setMetaBuf x p v).ups = s.ups := rfl
@[simp] theorem setMetaBuf_upsOther : (s.setMetaBuf x p v).upsOther = s.upsOther := rfl
@[simp] theorem setMetaBuf_tiles : (s.setMetaBuf x p v).tiles = s.tiles := rfl
@[simp] theorem setMetaBuf_spares : (s.setMetaBuf x p v).spares = s.spares := rfl
@[simp] theorem setMetaBuf_cols : (s.setMetaBuf x p v).cols = s.cols := rfl
@[simp] theorem setMetaBuf_wheelPos : (s.setMetaBuf x p v).wheelPos = s.wheelPos := rfl
@[simp] theorem setMetaBuf_turns : (s.setMetaBuf x p v).turns = s.turns := rfl
@[simp] theorem setMetaBuf_wheelSet : (s.setMetaBuf x p v).wheelSet = s.wheelSet := rfl
@[simp] theorem setMetaBuf_wheelPend : (s.setMetaBuf x p v).wheelPend = s.wheelPend := rfl
@[simp] theorem setMetaBuf_wheelReq : (s.setMetaBuf x p v).wheelReq = s.wheelReq := rfl
@[simp] theorem setMetaBuf_wheels : (s.setMetaBuf x p v).wheels = s.wheels := rfl
@[simp] theorem setMetaBuf_lfsrPrev : (s.setMetaBuf x p v).lfsrPrev = s.lfsrPrev := rfl
@[simp] theorem setMetaBuf_queues : (s.setMetaBuf x p v).queues = s.queues := rfl
@[simp] theorem setMetaBuf_lots : (s.setMetaBuf x p v).lots = s.lots := rfl
@[simp] theorem setMetaBuf_starving : (s.setMetaBuf x p v).starving = s.starving := rfl
@[simp] theorem setMetaBuf_rdLanes : (s.setMetaBuf x p v).rdLanes = s.rdLanes := rfl
@[simp] theorem setMetaBuf_wrLanes : (s.setMetaBuf x p v).wrLanes = s.wrLanes := rfl
@[simp] theorem setMetaBuf_slotRd : (s.setMetaBuf x p v).slotRd = s.slotRd := rfl
@[simp] theorem setMetaBuf_slotWr : (s.setMetaBuf x p v).slotWr = s.slotWr := rfl
@[simp] theorem setMetaBuf_slotRdOut : (s.setMetaBuf x p v).slotRdOut = s.slotRdOut := rfl
@[simp] theorem setMetaBuf_slotWrOut : (s.setMetaBuf x p v).slotWrOut = s.slotWrOut := rfl
@[simp] theorem setMetaBuf_scalars : (s.setMetaBuf x p v).scalars = s.scalars := rfl
@[simp] theorem setMetaBuf_nextScalar : (s.setMetaBuf x p v).nextScalar = s.nextScalar := rfl
@[simp] theorem setMetaBuf_scalarOut : (s.setMetaBuf x p v).scalarOut = s.scalarOut := rfl
@[simp] theorem setMetaBuf_rsts : (s.setMetaBuf x p v).rsts = s.rsts := rfl
@[simp] theorem setMetaBuf_links : (s.setMetaBuf x p v).links = s.links := rfl
@[simp] theorem setMetaBuf_wins : (s.setMetaBuf x p v).wins = s.wins := rfl
@[simp] theorem setMetaBuf_decay : (s.setMetaBuf x p v).decay = s.decay := rfl
@[simp] theorem setMetaBuf_sats : (s.setMetaBuf x p v).sats = s.sats := rfl
@[simp] theorem setMetaBuf_satMem : (s.setMetaBuf x p v).satMem = s.satMem := rfl
@[simp] theorem setMetaBuf_satOut : (s.setMetaBuf x p v).satOut = s.satOut := rfl
@[simp] theorem setMetaBuf_hops : (s.setMetaBuf x p v).hops = s.hops := rfl
@[simp] theorem setMetaBuf_caravans : (s.setMetaBuf x p v).caravans = s.caravans := rfl
@[simp] theorem setMetaBuf_store : (s.setMetaBuf x p v).store = s.store := rfl
@[simp] theorem setMetaBuf_agents : (s.setMetaBuf x p v).agents = s.agents := rfl
@[simp] theorem setMetaBuf_ctxs : (s.setMetaBuf x p v).ctxs = s.ctxs := rfl
@[simp] theorem setMetaBuf_pieces : (s.setMetaBuf x p v).pieces = s.pieces := rfl
@[simp] theorem setMetaBuf_nextSq : (s.setMetaBuf x p v).nextSq = s.nextSq := rfl
@[simp] theorem setMetaBuf_bursts : (s.setMetaBuf x p v).bursts = s.bursts := rfl
@[simp] theorem setMetaBuf_exports : (s.setMetaBuf x p v).exports = s.exports := rfl
@[simp] theorem setMetaBuf_rr : (s.setMetaBuf x p v).rr = s.rr := rfl
@[simp] theorem setMetaBuf_axiLast : (s.setMetaBuf x p v).axiLast = s.axiLast := rfl
@[simp] theorem setMetaBuf_aborts : (s.setMetaBuf x p v).aborts = s.aborts := rfl
@[simp] theorem setMetaBuf_farHold : (s.setMetaBuf x p v).farHold = s.farHold := rfl
@[simp] theorem setMetaBuf_pmaps : (s.setMetaBuf x p v).pmaps = s.pmaps := rfl
@[simp] theorem setMetaBuf_pmapOp : (s.setMetaBuf x p v).pmapOp = s.pmapOp := rfl
@[simp] theorem setMetaBuf_pmapHeld : (s.setMetaBuf x p v).pmapHeld = s.pmapHeld := rfl
@[simp] theorem setMetaBuf_escq : (s.setMetaBuf x p v).escq = s.escq := rfl
@[simp] theorem setMetaBuf_nextEsc : (s.setMetaBuf x p v).nextEsc = s.nextEsc := rfl
@[simp] theorem setMetaBuf_tallies : (s.setMetaBuf x p v).tallies = s.tallies := rfl
@[simp] theorem setMetaBuf_tallyMem : (s.setMetaBuf x p v).tallyMem = s.tallyMem := rfl
@[simp] theorem setMetaBuf_tallyOut : (s.setMetaBuf x p v).tallyOut = s.tallyOut := rfl
@[simp] theorem setMetaBuf_bells : (s.setMetaBuf x p v).bells = s.bells := rfl
@[simp] theorem setMetaBuf_bellOps : (s.setMetaBuf x p v).bellOps = s.bellOps := rfl
@[simp] theorem setMetaBuf_tkHeld : (s.setMetaBuf x p v).tkHeld = s.tkHeld := rfl
@[simp] theorem setMetaBuf_sbox : (s.setMetaBuf x p v).sbox = s.sbox := rfl
@[simp] theorem setMetaBuf_sboxWait : (s.setMetaBuf x p v).sboxWait = s.sboxWait := rfl
@[simp] theorem setMetaBuf_sboxAns : (s.setMetaBuf x p v).sboxAns = s.sboxAns := rfl
@[simp] theorem setMetaBuf_sboxBusy : (s.setMetaBuf x p v).sboxBusy = s.sboxBusy := rfl
@[simp] theorem setMetaBuf_reapSet : (s.setMetaBuf x p v).reapSet = s.reapSet := rfl
@[simp] theorem setMetaBuf_reapEnter : (s.setMetaBuf x p v).reapEnter = s.reapEnter := rfl
@[simp] theorem setMetaBuf_reapAt : (s.setMetaBuf x p v).reapAt = s.reapAt := rfl
@[simp] theorem setMetaBuf_reapMark : (s.setMetaBuf x p v).reapMark = s.reapMark := rfl
@[simp] theorem setMetaBuf_reapSince : (s.setMetaBuf x p v).reapSince = s.reapSince := rfl
@[simp] theorem setMetaBuf_reapEnd : (s.setMetaBuf x p v).reapEnd = s.reapEnd := rfl
@[simp] theorem setMetaBuf_reapMarked : (s.setMetaBuf x p v).reapMarked = s.reapMarked := rfl
@[simp] theorem setMetaBuf_wipeEnd : (s.setMetaBuf x p v).wipeEnd = s.wipeEnd := rfl
@[simp] theorem setMetaBuf_lcKnown : (s.setMetaBuf x p v).lcKnown = s.lcKnown := rfl
@[simp] theorem setMetaBuf_fus : (s.setMetaBuf x p v).fus = s.fus := rfl
@[simp] theorem setMetaBuf_safe : (s.setMetaBuf x p v).safe = s.safe := rfl
@[simp] theorem setMetaBuf_safeAt : (s.setMetaBuf x p v).safeAt = s.safeAt := rfl
@[simp] theorem setMetaBuf_errPulse : (s.setMetaBuf x p v).errPulse = s.errPulse := rfl
@[simp] theorem setMetaBuf_errWant : (s.setMetaBuf x p v).errWant = s.errWant := rfl
@[simp] theorem setMetaBuf_intPend : (s.setMetaBuf x p v).intPend = s.intPend := rfl
@[simp] theorem setMetaBuf_intLine : (s.setMetaBuf x p v).intLine = s.intLine := rfl
@[simp] theorem setMetaBuf_intPulse : (s.setMetaBuf x p v).intPulse = s.intPulse := rfl
@[simp] theorem setMetaBuf_intOwner : (s.setMetaBuf x p v).intOwner = s.intOwner := rfl
@[simp] theorem setMetaBuf_intSel : (s.setMetaBuf x p v).intSel = s.intSel := rfl
@[simp] theorem setMetaBuf_asleep : (s.setMetaBuf x p v).asleep = s.asleep := rfl
@[simp] theorem setMetaBuf_caps : (s.setMetaBuf x p v).caps = s.caps := rfl
@[simp] theorem setMetaBuf_captures : (s.setMetaBuf x p v).captures = s.captures := rfl
@[simp] theorem setMetaBuf_ledgerCaps : (s.setMetaBuf x p v).ledgerCaps = s.ledgerCaps := rfl
@[simp] theorem setMetaBuf_answers : (s.setMetaBuf x p v).answers = s.answers := rfl
@[simp] theorem setMetaBuf_parked : (s.setMetaBuf x p v).parked = s.parked := rfl
@[simp] theorem setMetaBuf_gate : (s.setMetaBuf x p v).gate = s.gate := rfl
@[simp] theorem setMetaBuf_turn : (s.setMetaBuf x p v).turn = s.turn := rfl
@[simp] theorem setMetaBuf_loader : (s.setMetaBuf x p v).loader = s.loader := rfl
@[simp] theorem setMetaBuf_sealed_ : (s.setMetaBuf x p v).sealed_ = s.sealed_ := rfl
@[simp] theorem setMetaBuf_sealWant : (s.setMetaBuf x p v).sealWant = s.sealWant := rfl
@[simp] theorem setMetaBuf_domains : (s.setMetaBuf x p v).domains = s.domains := rfl
@[simp] theorem setMetaBuf_free : (s.setMetaBuf x p v).free = s.free := rfl
end

section
variable (x : Nat) (v : List EscRec)
@[simp] theorem setEscs_pending : (s.setEscs x v).pending = s.pending := rfl
@[simp] theorem setEscs_clk : (s.setEscs x v).clk = s.clk := rfl
@[simp] theorem setEscs_run : (s.setEscs x v).run = s.run := rfl
@[simp] theorem setEscs_late : (s.setEscs x v).late = s.late := rfl
@[simp] theorem setEscs_heldFrom : (s.setEscs x v).heldFrom = s.heldFrom := rfl
@[simp] theorem setEscs_heldTo : (s.setEscs x v).heldTo = s.heldTo := rfl
@[simp] theorem setEscs_skipNext : (s.setEscs x v).skipNext = s.skipNext := rfl
@[simp] theorem setEscs_levelNow : (s.setEscs x v).levelNow = s.levelNow := rfl
@[simp] theorem setEscs_levelNext : (s.setEscs x v).levelNext = s.levelNext := rfl
@[simp] theorem setEscs_dwell : (s.setEscs x v).dwell = s.dwell := rfl
@[simp] theorem setEscs_life : (s.setEscs x v).life = s.life := rfl
@[simp] theorem setEscs_railsLost : (s.setEscs x v).railsLost = s.railsLost := rfl
@[simp] theorem setEscs_wake : (s.setEscs x v).wake = s.wake := rfl
@[simp] theorem setEscs_warmNext : (s.setEscs x v).warmNext = s.warmNext := rfl
@[simp] theorem setEscs_regs : (s.setEscs x v).regs = s.regs := rfl
@[simp] theorem setEscs_regsA : (s.setEscs x v).regsA = s.regsA := rfl
@[simp] theorem setEscs_chainRegs : (s.setEscs x v).chainRegs = s.chainRegs := rfl
@[simp] theorem setEscs_regsB1 : (s.setEscs x v).regsB1 = s.regsB1 := rfl
@[simp] theorem setEscs_regsB2 : (s.setEscs x v).regsB2 = s.regsB2 := rfl
@[simp] theorem setEscs_regsM1 : (s.setEscs x v).regsM1 = s.regsM1 := rfl
@[simp] theorem setEscs_regsM2 : (s.setEscs x v).regsM2 = s.regsM2 := rfl
@[simp] theorem setEscs_regsM3 : (s.setEscs x v).regsM3 = s.regsM3 := rfl
@[simp] theorem setEscs_mem : (s.setEscs x v).mem = s.mem := rfl
@[simp] theorem setEscs_ups : (s.setEscs x v).ups = s.ups := rfl
@[simp] theorem setEscs_upsOther : (s.setEscs x v).upsOther = s.upsOther := rfl
@[simp] theorem setEscs_tiles : (s.setEscs x v).tiles = s.tiles := rfl
@[simp] theorem setEscs_spares : (s.setEscs x v).spares = s.spares := rfl
@[simp] theorem setEscs_cols : (s.setEscs x v).cols = s.cols := rfl
@[simp] theorem setEscs_wheelPos : (s.setEscs x v).wheelPos = s.wheelPos := rfl
@[simp] theorem setEscs_turns : (s.setEscs x v).turns = s.turns := rfl
@[simp] theorem setEscs_wheelSet : (s.setEscs x v).wheelSet = s.wheelSet := rfl
@[simp] theorem setEscs_wheelPend : (s.setEscs x v).wheelPend = s.wheelPend := rfl
@[simp] theorem setEscs_wheelReq : (s.setEscs x v).wheelReq = s.wheelReq := rfl
@[simp] theorem setEscs_wheels : (s.setEscs x v).wheels = s.wheels := rfl
@[simp] theorem setEscs_lfsrPrev : (s.setEscs x v).lfsrPrev = s.lfsrPrev := rfl
@[simp] theorem setEscs_queues : (s.setEscs x v).queues = s.queues := rfl
@[simp] theorem setEscs_lots : (s.setEscs x v).lots = s.lots := rfl
@[simp] theorem setEscs_starving : (s.setEscs x v).starving = s.starving := rfl
@[simp] theorem setEscs_rdLanes : (s.setEscs x v).rdLanes = s.rdLanes := rfl
@[simp] theorem setEscs_wrLanes : (s.setEscs x v).wrLanes = s.wrLanes := rfl
@[simp] theorem setEscs_slotRd : (s.setEscs x v).slotRd = s.slotRd := rfl
@[simp] theorem setEscs_slotWr : (s.setEscs x v).slotWr = s.slotWr := rfl
@[simp] theorem setEscs_slotRdOut : (s.setEscs x v).slotRdOut = s.slotRdOut := rfl
@[simp] theorem setEscs_slotWrOut : (s.setEscs x v).slotWrOut = s.slotWrOut := rfl
@[simp] theorem setEscs_scalars : (s.setEscs x v).scalars = s.scalars := rfl
@[simp] theorem setEscs_nextScalar : (s.setEscs x v).nextScalar = s.nextScalar := rfl
@[simp] theorem setEscs_scalarOut : (s.setEscs x v).scalarOut = s.scalarOut := rfl
@[simp] theorem setEscs_rsts : (s.setEscs x v).rsts = s.rsts := rfl
@[simp] theorem setEscs_links : (s.setEscs x v).links = s.links := rfl
@[simp] theorem setEscs_wins : (s.setEscs x v).wins = s.wins := rfl
@[simp] theorem setEscs_decay : (s.setEscs x v).decay = s.decay := rfl
@[simp] theorem setEscs_sats : (s.setEscs x v).sats = s.sats := rfl
@[simp] theorem setEscs_satMem : (s.setEscs x v).satMem = s.satMem := rfl
@[simp] theorem setEscs_satOut : (s.setEscs x v).satOut = s.satOut := rfl
@[simp] theorem setEscs_hops : (s.setEscs x v).hops = s.hops := rfl
@[simp] theorem setEscs_caravans : (s.setEscs x v).caravans = s.caravans := rfl
@[simp] theorem setEscs_store : (s.setEscs x v).store = s.store := rfl
@[simp] theorem setEscs_agents : (s.setEscs x v).agents = s.agents := rfl
@[simp] theorem setEscs_ctxs : (s.setEscs x v).ctxs = s.ctxs := rfl
@[simp] theorem setEscs_pieces : (s.setEscs x v).pieces = s.pieces := rfl
@[simp] theorem setEscs_nextSq : (s.setEscs x v).nextSq = s.nextSq := rfl
@[simp] theorem setEscs_bursts : (s.setEscs x v).bursts = s.bursts := rfl
@[simp] theorem setEscs_exports : (s.setEscs x v).exports = s.exports := rfl
@[simp] theorem setEscs_rr : (s.setEscs x v).rr = s.rr := rfl
@[simp] theorem setEscs_axiLast : (s.setEscs x v).axiLast = s.axiLast := rfl
@[simp] theorem setEscs_aborts : (s.setEscs x v).aborts = s.aborts := rfl
@[simp] theorem setEscs_farHold : (s.setEscs x v).farHold = s.farHold := rfl
@[simp] theorem setEscs_pmaps : (s.setEscs x v).pmaps = s.pmaps := rfl
@[simp] theorem setEscs_pmapOp : (s.setEscs x v).pmapOp = s.pmapOp := rfl
@[simp] theorem setEscs_pmapHeld : (s.setEscs x v).pmapHeld = s.pmapHeld := rfl
@[simp] theorem setEscs_nextEsc : (s.setEscs x v).nextEsc = s.nextEsc := rfl
@[simp] theorem setEscs_metas : (s.setEscs x v).metas = s.metas := rfl
@[simp] theorem setEscs_tallies : (s.setEscs x v).tallies = s.tallies := rfl
@[simp] theorem setEscs_tallyMem : (s.setEscs x v).tallyMem = s.tallyMem := rfl
@[simp] theorem setEscs_tallyOut : (s.setEscs x v).tallyOut = s.tallyOut := rfl
@[simp] theorem setEscs_bells : (s.setEscs x v).bells = s.bells := rfl
@[simp] theorem setEscs_bellOps : (s.setEscs x v).bellOps = s.bellOps := rfl
@[simp] theorem setEscs_tkHeld : (s.setEscs x v).tkHeld = s.tkHeld := rfl
@[simp] theorem setEscs_sbox : (s.setEscs x v).sbox = s.sbox := rfl
@[simp] theorem setEscs_sboxWait : (s.setEscs x v).sboxWait = s.sboxWait := rfl
@[simp] theorem setEscs_sboxAns : (s.setEscs x v).sboxAns = s.sboxAns := rfl
@[simp] theorem setEscs_sboxBusy : (s.setEscs x v).sboxBusy = s.sboxBusy := rfl
@[simp] theorem setEscs_reapSet : (s.setEscs x v).reapSet = s.reapSet := rfl
@[simp] theorem setEscs_reapEnter : (s.setEscs x v).reapEnter = s.reapEnter := rfl
@[simp] theorem setEscs_reapAt : (s.setEscs x v).reapAt = s.reapAt := rfl
@[simp] theorem setEscs_reapMark : (s.setEscs x v).reapMark = s.reapMark := rfl
@[simp] theorem setEscs_reapSince : (s.setEscs x v).reapSince = s.reapSince := rfl
@[simp] theorem setEscs_reapEnd : (s.setEscs x v).reapEnd = s.reapEnd := rfl
@[simp] theorem setEscs_reapMarked : (s.setEscs x v).reapMarked = s.reapMarked := rfl
@[simp] theorem setEscs_wipeEnd : (s.setEscs x v).wipeEnd = s.wipeEnd := rfl
@[simp] theorem setEscs_lcKnown : (s.setEscs x v).lcKnown = s.lcKnown := rfl
@[simp] theorem setEscs_fus : (s.setEscs x v).fus = s.fus := rfl
@[simp] theorem setEscs_safe : (s.setEscs x v).safe = s.safe := rfl
@[simp] theorem setEscs_safeAt : (s.setEscs x v).safeAt = s.safeAt := rfl
@[simp] theorem setEscs_errPulse : (s.setEscs x v).errPulse = s.errPulse := rfl
@[simp] theorem setEscs_errWant : (s.setEscs x v).errWant = s.errWant := rfl
@[simp] theorem setEscs_intPend : (s.setEscs x v).intPend = s.intPend := rfl
@[simp] theorem setEscs_intLine : (s.setEscs x v).intLine = s.intLine := rfl
@[simp] theorem setEscs_intPulse : (s.setEscs x v).intPulse = s.intPulse := rfl
@[simp] theorem setEscs_intOwner : (s.setEscs x v).intOwner = s.intOwner := rfl
@[simp] theorem setEscs_intSel : (s.setEscs x v).intSel = s.intSel := rfl
@[simp] theorem setEscs_asleep : (s.setEscs x v).asleep = s.asleep := rfl
@[simp] theorem setEscs_caps : (s.setEscs x v).caps = s.caps := rfl
@[simp] theorem setEscs_captures : (s.setEscs x v).captures = s.captures := rfl
@[simp] theorem setEscs_ledgerCaps : (s.setEscs x v).ledgerCaps = s.ledgerCaps := rfl
@[simp] theorem setEscs_answers : (s.setEscs x v).answers = s.answers := rfl
@[simp] theorem setEscs_parked : (s.setEscs x v).parked = s.parked := rfl
@[simp] theorem setEscs_gate : (s.setEscs x v).gate = s.gate := rfl
@[simp] theorem setEscs_turn : (s.setEscs x v).turn = s.turn := rfl
@[simp] theorem setEscs_loader : (s.setEscs x v).loader = s.loader := rfl
@[simp] theorem setEscs_sealed_ : (s.setEscs x v).sealed_ = s.sealed_ := rfl
@[simp] theorem setEscs_sealWant : (s.setEscs x v).sealWant = s.sealWant := rfl
@[simp] theorem setEscs_domains : (s.setEscs x v).domains = s.domains := rfl
@[simp] theorem setEscs_free : (s.setEscs x v).free = s.free := rfl
end

section
variable (c t b e : Nat) (v : SpareRow)
@[simp] theorem setSpareRow_pending : (setSpareRow s c t b e v).pending = s.pending := rfl
@[simp] theorem setSpareRow_clk : (setSpareRow s c t b e v).clk = s.clk := rfl
@[simp] theorem setSpareRow_run : (setSpareRow s c t b e v).run = s.run := rfl
@[simp] theorem setSpareRow_late : (setSpareRow s c t b e v).late = s.late := rfl
@[simp] theorem setSpareRow_heldFrom : (setSpareRow s c t b e v).heldFrom = s.heldFrom := rfl
@[simp] theorem setSpareRow_heldTo : (setSpareRow s c t b e v).heldTo = s.heldTo := rfl
@[simp] theorem setSpareRow_skipNext : (setSpareRow s c t b e v).skipNext = s.skipNext := rfl
@[simp] theorem setSpareRow_levelNow : (setSpareRow s c t b e v).levelNow = s.levelNow := rfl
@[simp] theorem setSpareRow_levelNext : (setSpareRow s c t b e v).levelNext = s.levelNext := rfl
@[simp] theorem setSpareRow_dwell : (setSpareRow s c t b e v).dwell = s.dwell := rfl
@[simp] theorem setSpareRow_life : (setSpareRow s c t b e v).life = s.life := rfl
@[simp] theorem setSpareRow_railsLost : (setSpareRow s c t b e v).railsLost = s.railsLost := rfl
@[simp] theorem setSpareRow_wake : (setSpareRow s c t b e v).wake = s.wake := rfl
@[simp] theorem setSpareRow_warmNext : (setSpareRow s c t b e v).warmNext = s.warmNext := rfl
@[simp] theorem setSpareRow_regs : (setSpareRow s c t b e v).regs = s.regs := rfl
@[simp] theorem setSpareRow_regsA : (setSpareRow s c t b e v).regsA = s.regsA := rfl
@[simp] theorem setSpareRow_chainRegs : (setSpareRow s c t b e v).chainRegs = s.chainRegs := rfl
@[simp] theorem setSpareRow_regsB1 : (setSpareRow s c t b e v).regsB1 = s.regsB1 := rfl
@[simp] theorem setSpareRow_regsB2 : (setSpareRow s c t b e v).regsB2 = s.regsB2 := rfl
@[simp] theorem setSpareRow_regsM1 : (setSpareRow s c t b e v).regsM1 = s.regsM1 := rfl
@[simp] theorem setSpareRow_regsM2 : (setSpareRow s c t b e v).regsM2 = s.regsM2 := rfl
@[simp] theorem setSpareRow_regsM3 : (setSpareRow s c t b e v).regsM3 = s.regsM3 := rfl
@[simp] theorem setSpareRow_mem : (setSpareRow s c t b e v).mem = s.mem := rfl
@[simp] theorem setSpareRow_ups : (setSpareRow s c t b e v).ups = s.ups := rfl
@[simp] theorem setSpareRow_upsOther : (setSpareRow s c t b e v).upsOther = s.upsOther := rfl
@[simp] theorem setSpareRow_tiles : (setSpareRow s c t b e v).tiles = s.tiles := rfl
@[simp] theorem setSpareRow_cols : (setSpareRow s c t b e v).cols = s.cols := rfl
@[simp] theorem setSpareRow_wheelPos : (setSpareRow s c t b e v).wheelPos = s.wheelPos := rfl
@[simp] theorem setSpareRow_turns : (setSpareRow s c t b e v).turns = s.turns := rfl
@[simp] theorem setSpareRow_wheelSet : (setSpareRow s c t b e v).wheelSet = s.wheelSet := rfl
@[simp] theorem setSpareRow_wheelPend : (setSpareRow s c t b e v).wheelPend = s.wheelPend := rfl
@[simp] theorem setSpareRow_wheelReq : (setSpareRow s c t b e v).wheelReq = s.wheelReq := rfl
@[simp] theorem setSpareRow_wheels : (setSpareRow s c t b e v).wheels = s.wheels := rfl
@[simp] theorem setSpareRow_lfsrPrev : (setSpareRow s c t b e v).lfsrPrev = s.lfsrPrev := rfl
@[simp] theorem setSpareRow_queues : (setSpareRow s c t b e v).queues = s.queues := rfl
@[simp] theorem setSpareRow_lots : (setSpareRow s c t b e v).lots = s.lots := rfl
@[simp] theorem setSpareRow_starving : (setSpareRow s c t b e v).starving = s.starving := rfl
@[simp] theorem setSpareRow_rdLanes : (setSpareRow s c t b e v).rdLanes = s.rdLanes := rfl
@[simp] theorem setSpareRow_wrLanes : (setSpareRow s c t b e v).wrLanes = s.wrLanes := rfl
@[simp] theorem setSpareRow_slotRd : (setSpareRow s c t b e v).slotRd = s.slotRd := rfl
@[simp] theorem setSpareRow_slotWr : (setSpareRow s c t b e v).slotWr = s.slotWr := rfl
@[simp] theorem setSpareRow_slotRdOut : (setSpareRow s c t b e v).slotRdOut = s.slotRdOut := rfl
@[simp] theorem setSpareRow_slotWrOut : (setSpareRow s c t b e v).slotWrOut = s.slotWrOut := rfl
@[simp] theorem setSpareRow_scalars : (setSpareRow s c t b e v).scalars = s.scalars := rfl
@[simp] theorem setSpareRow_nextScalar : (setSpareRow s c t b e v).nextScalar = s.nextScalar := rfl
@[simp] theorem setSpareRow_scalarOut : (setSpareRow s c t b e v).scalarOut = s.scalarOut := rfl
@[simp] theorem setSpareRow_rsts : (setSpareRow s c t b e v).rsts = s.rsts := rfl
@[simp] theorem setSpareRow_links : (setSpareRow s c t b e v).links = s.links := rfl
@[simp] theorem setSpareRow_wins : (setSpareRow s c t b e v).wins = s.wins := rfl
@[simp] theorem setSpareRow_decay : (setSpareRow s c t b e v).decay = s.decay := rfl
@[simp] theorem setSpareRow_sats : (setSpareRow s c t b e v).sats = s.sats := rfl
@[simp] theorem setSpareRow_satMem : (setSpareRow s c t b e v).satMem = s.satMem := rfl
@[simp] theorem setSpareRow_satOut : (setSpareRow s c t b e v).satOut = s.satOut := rfl
@[simp] theorem setSpareRow_hops : (setSpareRow s c t b e v).hops = s.hops := rfl
@[simp] theorem setSpareRow_caravans : (setSpareRow s c t b e v).caravans = s.caravans := rfl
@[simp] theorem setSpareRow_store : (setSpareRow s c t b e v).store = s.store := rfl
@[simp] theorem setSpareRow_agents : (setSpareRow s c t b e v).agents = s.agents := rfl
@[simp] theorem setSpareRow_ctxs : (setSpareRow s c t b e v).ctxs = s.ctxs := rfl
@[simp] theorem setSpareRow_pieces : (setSpareRow s c t b e v).pieces = s.pieces := rfl
@[simp] theorem setSpareRow_nextSq : (setSpareRow s c t b e v).nextSq = s.nextSq := rfl
@[simp] theorem setSpareRow_bursts : (setSpareRow s c t b e v).bursts = s.bursts := rfl
@[simp] theorem setSpareRow_exports : (setSpareRow s c t b e v).exports = s.exports := rfl
@[simp] theorem setSpareRow_rr : (setSpareRow s c t b e v).rr = s.rr := rfl
@[simp] theorem setSpareRow_axiLast : (setSpareRow s c t b e v).axiLast = s.axiLast := rfl
@[simp] theorem setSpareRow_aborts : (setSpareRow s c t b e v).aborts = s.aborts := rfl
@[simp] theorem setSpareRow_farHold : (setSpareRow s c t b e v).farHold = s.farHold := rfl
@[simp] theorem setSpareRow_pmaps : (setSpareRow s c t b e v).pmaps = s.pmaps := rfl
@[simp] theorem setSpareRow_pmapOp : (setSpareRow s c t b e v).pmapOp = s.pmapOp := rfl
@[simp] theorem setSpareRow_pmapHeld : (setSpareRow s c t b e v).pmapHeld = s.pmapHeld := rfl
@[simp] theorem setSpareRow_escq : (setSpareRow s c t b e v).escq = s.escq := rfl
@[simp] theorem setSpareRow_nextEsc : (setSpareRow s c t b e v).nextEsc = s.nextEsc := rfl
@[simp] theorem setSpareRow_metas : (setSpareRow s c t b e v).metas = s.metas := rfl
@[simp] theorem setSpareRow_tallies : (setSpareRow s c t b e v).tallies = s.tallies := rfl
@[simp] theorem setSpareRow_tallyMem : (setSpareRow s c t b e v).tallyMem = s.tallyMem := rfl
@[simp] theorem setSpareRow_tallyOut : (setSpareRow s c t b e v).tallyOut = s.tallyOut := rfl
@[simp] theorem setSpareRow_bells : (setSpareRow s c t b e v).bells = s.bells := rfl
@[simp] theorem setSpareRow_bellOps : (setSpareRow s c t b e v).bellOps = s.bellOps := rfl
@[simp] theorem setSpareRow_tkHeld : (setSpareRow s c t b e v).tkHeld = s.tkHeld := rfl
@[simp] theorem setSpareRow_sbox : (setSpareRow s c t b e v).sbox = s.sbox := rfl
@[simp] theorem setSpareRow_sboxWait : (setSpareRow s c t b e v).sboxWait = s.sboxWait := rfl
@[simp] theorem setSpareRow_sboxAns : (setSpareRow s c t b e v).sboxAns = s.sboxAns := rfl
@[simp] theorem setSpareRow_sboxBusy : (setSpareRow s c t b e v).sboxBusy = s.sboxBusy := rfl
@[simp] theorem setSpareRow_reapSet : (setSpareRow s c t b e v).reapSet = s.reapSet := rfl
@[simp] theorem setSpareRow_reapEnter : (setSpareRow s c t b e v).reapEnter = s.reapEnter := rfl
@[simp] theorem setSpareRow_reapAt : (setSpareRow s c t b e v).reapAt = s.reapAt := rfl
@[simp] theorem setSpareRow_reapMark : (setSpareRow s c t b e v).reapMark = s.reapMark := rfl
@[simp] theorem setSpareRow_reapSince : (setSpareRow s c t b e v).reapSince = s.reapSince := rfl
@[simp] theorem setSpareRow_reapEnd : (setSpareRow s c t b e v).reapEnd = s.reapEnd := rfl
@[simp] theorem setSpareRow_reapMarked : (setSpareRow s c t b e v).reapMarked = s.reapMarked := rfl
@[simp] theorem setSpareRow_wipeEnd : (setSpareRow s c t b e v).wipeEnd = s.wipeEnd := rfl
@[simp] theorem setSpareRow_lcKnown : (setSpareRow s c t b e v).lcKnown = s.lcKnown := rfl
@[simp] theorem setSpareRow_fus : (setSpareRow s c t b e v).fus = s.fus := rfl
@[simp] theorem setSpareRow_safe : (setSpareRow s c t b e v).safe = s.safe := rfl
@[simp] theorem setSpareRow_safeAt : (setSpareRow s c t b e v).safeAt = s.safeAt := rfl
@[simp] theorem setSpareRow_errPulse : (setSpareRow s c t b e v).errPulse = s.errPulse := rfl
@[simp] theorem setSpareRow_errWant : (setSpareRow s c t b e v).errWant = s.errWant := rfl
@[simp] theorem setSpareRow_intPend : (setSpareRow s c t b e v).intPend = s.intPend := rfl
@[simp] theorem setSpareRow_intLine : (setSpareRow s c t b e v).intLine = s.intLine := rfl
@[simp] theorem setSpareRow_intPulse : (setSpareRow s c t b e v).intPulse = s.intPulse := rfl
@[simp] theorem setSpareRow_intOwner : (setSpareRow s c t b e v).intOwner = s.intOwner := rfl
@[simp] theorem setSpareRow_intSel : (setSpareRow s c t b e v).intSel = s.intSel := rfl
@[simp] theorem setSpareRow_asleep : (setSpareRow s c t b e v).asleep = s.asleep := rfl
@[simp] theorem setSpareRow_caps : (setSpareRow s c t b e v).caps = s.caps := rfl
@[simp] theorem setSpareRow_captures : (setSpareRow s c t b e v).captures = s.captures := rfl
@[simp] theorem setSpareRow_ledgerCaps : (setSpareRow s c t b e v).ledgerCaps = s.ledgerCaps := rfl
@[simp] theorem setSpareRow_answers : (setSpareRow s c t b e v).answers = s.answers := rfl
@[simp] theorem setSpareRow_parked : (setSpareRow s c t b e v).parked = s.parked := rfl
@[simp] theorem setSpareRow_gate : (setSpareRow s c t b e v).gate = s.gate := rfl
@[simp] theorem setSpareRow_turn : (setSpareRow s c t b e v).turn = s.turn := rfl
@[simp] theorem setSpareRow_loader : (setSpareRow s c t b e v).loader = s.loader := rfl
@[simp] theorem setSpareRow_sealed_ : (setSpareRow s c t b e v).sealed_ = s.sealed_ := rfl
@[simp] theorem setSpareRow_sealWant : (setSpareRow s c t b e v).sealWant = s.sealWant := rfl
@[simp] theorem setSpareRow_domains : (setSpareRow s c t b e v).domains = s.domains := rfl
@[simp] theorem setSpareRow_free : (setSpareRow s c t b e v).free = s.free := rfl
end

section
variable (i : Nat)
@[simp] theorem genBump_pending : (genBump s i).pending = s.pending := rfl
@[simp] theorem genBump_clk : (genBump s i).clk = s.clk := rfl
@[simp] theorem genBump_run : (genBump s i).run = s.run := rfl
@[simp] theorem genBump_late : (genBump s i).late = s.late := rfl
@[simp] theorem genBump_heldFrom : (genBump s i).heldFrom = s.heldFrom := rfl
@[simp] theorem genBump_heldTo : (genBump s i).heldTo = s.heldTo := rfl
@[simp] theorem genBump_skipNext : (genBump s i).skipNext = s.skipNext := rfl
@[simp] theorem genBump_levelNow : (genBump s i).levelNow = s.levelNow := rfl
@[simp] theorem genBump_levelNext : (genBump s i).levelNext = s.levelNext := rfl
@[simp] theorem genBump_dwell : (genBump s i).dwell = s.dwell := rfl
@[simp] theorem genBump_life : (genBump s i).life = s.life := rfl
@[simp] theorem genBump_railsLost : (genBump s i).railsLost = s.railsLost := rfl
@[simp] theorem genBump_wake : (genBump s i).wake = s.wake := rfl
@[simp] theorem genBump_warmNext : (genBump s i).warmNext = s.warmNext := rfl
@[simp] theorem genBump_regs : (genBump s i).regs = s.regs := rfl
@[simp] theorem genBump_regsA : (genBump s i).regsA = s.regsA := rfl
@[simp] theorem genBump_chainRegs : (genBump s i).chainRegs = s.chainRegs := rfl
@[simp] theorem genBump_regsB1 : (genBump s i).regsB1 = s.regsB1 := rfl
@[simp] theorem genBump_regsB2 : (genBump s i).regsB2 = s.regsB2 := rfl
@[simp] theorem genBump_regsM1 : (genBump s i).regsM1 = s.regsM1 := rfl
@[simp] theorem genBump_regsM2 : (genBump s i).regsM2 = s.regsM2 := rfl
@[simp] theorem genBump_regsM3 : (genBump s i).regsM3 = s.regsM3 := rfl
@[simp] theorem genBump_mem : (genBump s i).mem = s.mem := rfl
@[simp] theorem genBump_ups : (genBump s i).ups = s.ups := rfl
@[simp] theorem genBump_upsOther : (genBump s i).upsOther = s.upsOther := rfl
@[simp] theorem genBump_tiles : (genBump s i).tiles = s.tiles := rfl
@[simp] theorem genBump_spares : (genBump s i).spares = s.spares := rfl
@[simp] theorem genBump_cols : (genBump s i).cols = s.cols := rfl
@[simp] theorem genBump_wheelPos : (genBump s i).wheelPos = s.wheelPos := rfl
@[simp] theorem genBump_turns : (genBump s i).turns = s.turns := rfl
@[simp] theorem genBump_wheelSet : (genBump s i).wheelSet = s.wheelSet := rfl
@[simp] theorem genBump_wheelPend : (genBump s i).wheelPend = s.wheelPend := rfl
@[simp] theorem genBump_wheelReq : (genBump s i).wheelReq = s.wheelReq := rfl
@[simp] theorem genBump_wheels : (genBump s i).wheels = s.wheels := rfl
@[simp] theorem genBump_lfsrPrev : (genBump s i).lfsrPrev = s.lfsrPrev := rfl
@[simp] theorem genBump_queues : (genBump s i).queues = s.queues := rfl
@[simp] theorem genBump_lots : (genBump s i).lots = s.lots := rfl
@[simp] theorem genBump_starving : (genBump s i).starving = s.starving := rfl
@[simp] theorem genBump_rdLanes : (genBump s i).rdLanes = s.rdLanes := rfl
@[simp] theorem genBump_wrLanes : (genBump s i).wrLanes = s.wrLanes := rfl
@[simp] theorem genBump_slotRd : (genBump s i).slotRd = s.slotRd := rfl
@[simp] theorem genBump_slotWr : (genBump s i).slotWr = s.slotWr := rfl
@[simp] theorem genBump_slotRdOut : (genBump s i).slotRdOut = s.slotRdOut := rfl
@[simp] theorem genBump_slotWrOut : (genBump s i).slotWrOut = s.slotWrOut := rfl
@[simp] theorem genBump_scalars : (genBump s i).scalars = s.scalars := rfl
@[simp] theorem genBump_nextScalar : (genBump s i).nextScalar = s.nextScalar := rfl
@[simp] theorem genBump_scalarOut : (genBump s i).scalarOut = s.scalarOut := rfl
@[simp] theorem genBump_rsts : (genBump s i).rsts = s.rsts := rfl
@[simp] theorem genBump_links : (genBump s i).links = s.links := rfl
@[simp] theorem genBump_wins : (genBump s i).wins = s.wins := rfl
@[simp] theorem genBump_decay : (genBump s i).decay = s.decay := rfl
@[simp] theorem genBump_sats : (genBump s i).sats = s.sats := rfl
@[simp] theorem genBump_satMem : (genBump s i).satMem = s.satMem := rfl
@[simp] theorem genBump_satOut : (genBump s i).satOut = s.satOut := rfl
@[simp] theorem genBump_hops : (genBump s i).hops = s.hops := rfl
@[simp] theorem genBump_caravans : (genBump s i).caravans = s.caravans := rfl
@[simp] theorem genBump_store : (genBump s i).store = s.store := rfl
@[simp] theorem genBump_agents : (genBump s i).agents = s.agents := rfl
@[simp] theorem genBump_ctxs : (genBump s i).ctxs = s.ctxs := rfl
@[simp] theorem genBump_pieces : (genBump s i).pieces = s.pieces := rfl
@[simp] theorem genBump_nextSq : (genBump s i).nextSq = s.nextSq := rfl
@[simp] theorem genBump_bursts : (genBump s i).bursts = s.bursts := rfl
@[simp] theorem genBump_exports : (genBump s i).exports = s.exports := rfl
@[simp] theorem genBump_rr : (genBump s i).rr = s.rr := rfl
@[simp] theorem genBump_axiLast : (genBump s i).axiLast = s.axiLast := rfl
@[simp] theorem genBump_aborts : (genBump s i).aborts = s.aborts := rfl
@[simp] theorem genBump_farHold : (genBump s i).farHold = s.farHold := rfl
@[simp] theorem genBump_pmaps : (genBump s i).pmaps = s.pmaps := rfl
@[simp] theorem genBump_pmapOp : (genBump s i).pmapOp = s.pmapOp := rfl
@[simp] theorem genBump_pmapHeld : (genBump s i).pmapHeld = s.pmapHeld := rfl
@[simp] theorem genBump_escq : (genBump s i).escq = s.escq := rfl
@[simp] theorem genBump_nextEsc : (genBump s i).nextEsc = s.nextEsc := rfl
@[simp] theorem genBump_metas : (genBump s i).metas = s.metas := rfl
@[simp] theorem genBump_tallies : (genBump s i).tallies = s.tallies := rfl
@[simp] theorem genBump_tallyMem : (genBump s i).tallyMem = s.tallyMem := rfl
@[simp] theorem genBump_tallyOut : (genBump s i).tallyOut = s.tallyOut := rfl
@[simp] theorem genBump_bells : (genBump s i).bells = s.bells := rfl
@[simp] theorem genBump_bellOps : (genBump s i).bellOps = s.bellOps := rfl
@[simp] theorem genBump_tkHeld : (genBump s i).tkHeld = s.tkHeld := rfl
@[simp] theorem genBump_sbox : (genBump s i).sbox = s.sbox := rfl
@[simp] theorem genBump_sboxWait : (genBump s i).sboxWait = s.sboxWait := rfl
@[simp] theorem genBump_sboxAns : (genBump s i).sboxAns = s.sboxAns := rfl
@[simp] theorem genBump_sboxBusy : (genBump s i).sboxBusy = s.sboxBusy := rfl
@[simp] theorem genBump_reapSet : (genBump s i).reapSet = s.reapSet := rfl
@[simp] theorem genBump_reapEnter : (genBump s i).reapEnter = s.reapEnter := rfl
@[simp] theorem genBump_reapAt : (genBump s i).reapAt = s.reapAt := rfl
@[simp] theorem genBump_reapMark : (genBump s i).reapMark = s.reapMark := rfl
@[simp] theorem genBump_reapSince : (genBump s i).reapSince = s.reapSince := rfl
@[simp] theorem genBump_reapEnd : (genBump s i).reapEnd = s.reapEnd := rfl
@[simp] theorem genBump_reapMarked : (genBump s i).reapMarked = s.reapMarked := rfl
@[simp] theorem genBump_wipeEnd : (genBump s i).wipeEnd = s.wipeEnd := rfl
@[simp] theorem genBump_lcKnown : (genBump s i).lcKnown = s.lcKnown := rfl
@[simp] theorem genBump_fus : (genBump s i).fus = s.fus := rfl
@[simp] theorem genBump_safe : (genBump s i).safe = s.safe := rfl
@[simp] theorem genBump_safeAt : (genBump s i).safeAt = s.safeAt := rfl
@[simp] theorem genBump_errPulse : (genBump s i).errPulse = s.errPulse := rfl
@[simp] theorem genBump_errWant : (genBump s i).errWant = s.errWant := rfl
@[simp] theorem genBump_intPend : (genBump s i).intPend = s.intPend := rfl
@[simp] theorem genBump_intLine : (genBump s i).intLine = s.intLine := rfl
@[simp] theorem genBump_intPulse : (genBump s i).intPulse = s.intPulse := rfl
@[simp] theorem genBump_intOwner : (genBump s i).intOwner = s.intOwner := rfl
@[simp] theorem genBump_intSel : (genBump s i).intSel = s.intSel := rfl
@[simp] theorem genBump_asleep : (genBump s i).asleep = s.asleep := rfl
@[simp] theorem genBump_captures : (genBump s i).captures = s.captures := rfl
@[simp] theorem genBump_ledgerCaps : (genBump s i).ledgerCaps = s.ledgerCaps := rfl
@[simp] theorem genBump_answers : (genBump s i).answers = s.answers := rfl
@[simp] theorem genBump_parked : (genBump s i).parked = s.parked := rfl
@[simp] theorem genBump_gate : (genBump s i).gate = s.gate := rfl
@[simp] theorem genBump_turn : (genBump s i).turn = s.turn := rfl
@[simp] theorem genBump_loader : (genBump s i).loader = s.loader := rfl
@[simp] theorem genBump_sealed_ : (genBump s i).sealed_ = s.sealed_ := rfl
@[simp] theorem genBump_sealWant : (genBump s i).sealWant = s.sealWant := rfl
@[simp] theorem genBump_domains : (genBump s i).domains = s.domains := rfl
@[simp] theorem genBump_free : (genBump s i).free = s.free := rfl
end

section
variable (i v : Nat)
@[simp] theorem setPtr_pending : (setPtr s i v).pending = s.pending := rfl
@[simp] theorem setPtr_clk : (setPtr s i v).clk = s.clk := rfl
@[simp] theorem setPtr_run : (setPtr s i v).run = s.run := rfl
@[simp] theorem setPtr_late : (setPtr s i v).late = s.late := rfl
@[simp] theorem setPtr_heldFrom : (setPtr s i v).heldFrom = s.heldFrom := rfl
@[simp] theorem setPtr_heldTo : (setPtr s i v).heldTo = s.heldTo := rfl
@[simp] theorem setPtr_skipNext : (setPtr s i v).skipNext = s.skipNext := rfl
@[simp] theorem setPtr_levelNow : (setPtr s i v).levelNow = s.levelNow := rfl
@[simp] theorem setPtr_levelNext : (setPtr s i v).levelNext = s.levelNext := rfl
@[simp] theorem setPtr_dwell : (setPtr s i v).dwell = s.dwell := rfl
@[simp] theorem setPtr_life : (setPtr s i v).life = s.life := rfl
@[simp] theorem setPtr_railsLost : (setPtr s i v).railsLost = s.railsLost := rfl
@[simp] theorem setPtr_wake : (setPtr s i v).wake = s.wake := rfl
@[simp] theorem setPtr_warmNext : (setPtr s i v).warmNext = s.warmNext := rfl
@[simp] theorem setPtr_regs : (setPtr s i v).regs = s.regs := rfl
@[simp] theorem setPtr_regsA : (setPtr s i v).regsA = s.regsA := rfl
@[simp] theorem setPtr_chainRegs : (setPtr s i v).chainRegs = s.chainRegs := rfl
@[simp] theorem setPtr_regsB1 : (setPtr s i v).regsB1 = s.regsB1 := rfl
@[simp] theorem setPtr_regsB2 : (setPtr s i v).regsB2 = s.regsB2 := rfl
@[simp] theorem setPtr_regsM1 : (setPtr s i v).regsM1 = s.regsM1 := rfl
@[simp] theorem setPtr_regsM2 : (setPtr s i v).regsM2 = s.regsM2 := rfl
@[simp] theorem setPtr_regsM3 : (setPtr s i v).regsM3 = s.regsM3 := rfl
@[simp] theorem setPtr_mem : (setPtr s i v).mem = s.mem := rfl
@[simp] theorem setPtr_ups : (setPtr s i v).ups = s.ups := rfl
@[simp] theorem setPtr_upsOther : (setPtr s i v).upsOther = s.upsOther := rfl
@[simp] theorem setPtr_tiles : (setPtr s i v).tiles = s.tiles := rfl
@[simp] theorem setPtr_spares : (setPtr s i v).spares = s.spares := rfl
@[simp] theorem setPtr_cols : (setPtr s i v).cols = s.cols := rfl
@[simp] theorem setPtr_wheelPos : (setPtr s i v).wheelPos = s.wheelPos := rfl
@[simp] theorem setPtr_turns : (setPtr s i v).turns = s.turns := rfl
@[simp] theorem setPtr_wheelSet : (setPtr s i v).wheelSet = s.wheelSet := rfl
@[simp] theorem setPtr_wheelPend : (setPtr s i v).wheelPend = s.wheelPend := rfl
@[simp] theorem setPtr_wheelReq : (setPtr s i v).wheelReq = s.wheelReq := rfl
@[simp] theorem setPtr_wheels : (setPtr s i v).wheels = s.wheels := rfl
@[simp] theorem setPtr_lfsrPrev : (setPtr s i v).lfsrPrev = s.lfsrPrev := rfl
@[simp] theorem setPtr_queues : (setPtr s i v).queues = s.queues := rfl
@[simp] theorem setPtr_lots : (setPtr s i v).lots = s.lots := rfl
@[simp] theorem setPtr_starving : (setPtr s i v).starving = s.starving := rfl
@[simp] theorem setPtr_rdLanes : (setPtr s i v).rdLanes = s.rdLanes := rfl
@[simp] theorem setPtr_wrLanes : (setPtr s i v).wrLanes = s.wrLanes := rfl
@[simp] theorem setPtr_slotRd : (setPtr s i v).slotRd = s.slotRd := rfl
@[simp] theorem setPtr_slotWr : (setPtr s i v).slotWr = s.slotWr := rfl
@[simp] theorem setPtr_slotRdOut : (setPtr s i v).slotRdOut = s.slotRdOut := rfl
@[simp] theorem setPtr_slotWrOut : (setPtr s i v).slotWrOut = s.slotWrOut := rfl
@[simp] theorem setPtr_scalars : (setPtr s i v).scalars = s.scalars := rfl
@[simp] theorem setPtr_nextScalar : (setPtr s i v).nextScalar = s.nextScalar := rfl
@[simp] theorem setPtr_scalarOut : (setPtr s i v).scalarOut = s.scalarOut := rfl
@[simp] theorem setPtr_rsts : (setPtr s i v).rsts = s.rsts := rfl
@[simp] theorem setPtr_links : (setPtr s i v).links = s.links := rfl
@[simp] theorem setPtr_wins : (setPtr s i v).wins = s.wins := rfl
@[simp] theorem setPtr_decay : (setPtr s i v).decay = s.decay := rfl
@[simp] theorem setPtr_sats : (setPtr s i v).sats = s.sats := rfl
@[simp] theorem setPtr_satMem : (setPtr s i v).satMem = s.satMem := rfl
@[simp] theorem setPtr_satOut : (setPtr s i v).satOut = s.satOut := rfl
@[simp] theorem setPtr_hops : (setPtr s i v).hops = s.hops := rfl
@[simp] theorem setPtr_caravans : (setPtr s i v).caravans = s.caravans := rfl
@[simp] theorem setPtr_store : (setPtr s i v).store = s.store := rfl
@[simp] theorem setPtr_agents : (setPtr s i v).agents = s.agents := rfl
@[simp] theorem setPtr_ctxs : (setPtr s i v).ctxs = s.ctxs := rfl
@[simp] theorem setPtr_pieces : (setPtr s i v).pieces = s.pieces := rfl
@[simp] theorem setPtr_nextSq : (setPtr s i v).nextSq = s.nextSq := rfl
@[simp] theorem setPtr_bursts : (setPtr s i v).bursts = s.bursts := rfl
@[simp] theorem setPtr_exports : (setPtr s i v).exports = s.exports := rfl
@[simp] theorem setPtr_axiLast : (setPtr s i v).axiLast = s.axiLast := rfl
@[simp] theorem setPtr_aborts : (setPtr s i v).aborts = s.aborts := rfl
@[simp] theorem setPtr_farHold : (setPtr s i v).farHold = s.farHold := rfl
@[simp] theorem setPtr_pmaps : (setPtr s i v).pmaps = s.pmaps := rfl
@[simp] theorem setPtr_pmapOp : (setPtr s i v).pmapOp = s.pmapOp := rfl
@[simp] theorem setPtr_pmapHeld : (setPtr s i v).pmapHeld = s.pmapHeld := rfl
@[simp] theorem setPtr_escq : (setPtr s i v).escq = s.escq := rfl
@[simp] theorem setPtr_nextEsc : (setPtr s i v).nextEsc = s.nextEsc := rfl
@[simp] theorem setPtr_metas : (setPtr s i v).metas = s.metas := rfl
@[simp] theorem setPtr_tallies : (setPtr s i v).tallies = s.tallies := rfl
@[simp] theorem setPtr_tallyMem : (setPtr s i v).tallyMem = s.tallyMem := rfl
@[simp] theorem setPtr_tallyOut : (setPtr s i v).tallyOut = s.tallyOut := rfl
@[simp] theorem setPtr_bells : (setPtr s i v).bells = s.bells := rfl
@[simp] theorem setPtr_bellOps : (setPtr s i v).bellOps = s.bellOps := rfl
@[simp] theorem setPtr_tkHeld : (setPtr s i v).tkHeld = s.tkHeld := rfl
@[simp] theorem setPtr_sbox : (setPtr s i v).sbox = s.sbox := rfl
@[simp] theorem setPtr_sboxWait : (setPtr s i v).sboxWait = s.sboxWait := rfl
@[simp] theorem setPtr_sboxAns : (setPtr s i v).sboxAns = s.sboxAns := rfl
@[simp] theorem setPtr_sboxBusy : (setPtr s i v).sboxBusy = s.sboxBusy := rfl
@[simp] theorem setPtr_reapSet : (setPtr s i v).reapSet = s.reapSet := rfl
@[simp] theorem setPtr_reapEnter : (setPtr s i v).reapEnter = s.reapEnter := rfl
@[simp] theorem setPtr_reapAt : (setPtr s i v).reapAt = s.reapAt := rfl
@[simp] theorem setPtr_reapMark : (setPtr s i v).reapMark = s.reapMark := rfl
@[simp] theorem setPtr_reapSince : (setPtr s i v).reapSince = s.reapSince := rfl
@[simp] theorem setPtr_reapEnd : (setPtr s i v).reapEnd = s.reapEnd := rfl
@[simp] theorem setPtr_reapMarked : (setPtr s i v).reapMarked = s.reapMarked := rfl
@[simp] theorem setPtr_wipeEnd : (setPtr s i v).wipeEnd = s.wipeEnd := rfl
@[simp] theorem setPtr_lcKnown : (setPtr s i v).lcKnown = s.lcKnown := rfl
@[simp] theorem setPtr_fus : (setPtr s i v).fus = s.fus := rfl
@[simp] theorem setPtr_safe : (setPtr s i v).safe = s.safe := rfl
@[simp] theorem setPtr_safeAt : (setPtr s i v).safeAt = s.safeAt := rfl
@[simp] theorem setPtr_errPulse : (setPtr s i v).errPulse = s.errPulse := rfl
@[simp] theorem setPtr_errWant : (setPtr s i v).errWant = s.errWant := rfl
@[simp] theorem setPtr_intPend : (setPtr s i v).intPend = s.intPend := rfl
@[simp] theorem setPtr_intLine : (setPtr s i v).intLine = s.intLine := rfl
@[simp] theorem setPtr_intPulse : (setPtr s i v).intPulse = s.intPulse := rfl
@[simp] theorem setPtr_intOwner : (setPtr s i v).intOwner = s.intOwner := rfl
@[simp] theorem setPtr_intSel : (setPtr s i v).intSel = s.intSel := rfl
@[simp] theorem setPtr_asleep : (setPtr s i v).asleep = s.asleep := rfl
@[simp] theorem setPtr_caps : (setPtr s i v).caps = s.caps := rfl
@[simp] theorem setPtr_captures : (setPtr s i v).captures = s.captures := rfl
@[simp] theorem setPtr_ledgerCaps : (setPtr s i v).ledgerCaps = s.ledgerCaps := rfl
@[simp] theorem setPtr_answers : (setPtr s i v).answers = s.answers := rfl
@[simp] theorem setPtr_parked : (setPtr s i v).parked = s.parked := rfl
@[simp] theorem setPtr_gate : (setPtr s i v).gate = s.gate := rfl
@[simp] theorem setPtr_turn : (setPtr s i v).turn = s.turn := rfl
@[simp] theorem setPtr_loader : (setPtr s i v).loader = s.loader := rfl
@[simp] theorem setPtr_sealed_ : (setPtr s i v).sealed_ = s.sealed_ := rfl
@[simp] theorem setPtr_sealWant : (setPtr s i v).sealWant = s.sealWant := rfl
@[simp] theorem setPtr_domains : (setPtr s i v).domains = s.domains := rfl
@[simp] theorem setPtr_free : (setPtr s i v).free = s.free := rfl
end

section
variable (i : Nat)
@[simp] theorem setLast_pending : (setLast s i).pending = s.pending := rfl
@[simp] theorem setLast_clk : (setLast s i).clk = s.clk := rfl
@[simp] theorem setLast_run : (setLast s i).run = s.run := rfl
@[simp] theorem setLast_late : (setLast s i).late = s.late := rfl
@[simp] theorem setLast_heldFrom : (setLast s i).heldFrom = s.heldFrom := rfl
@[simp] theorem setLast_heldTo : (setLast s i).heldTo = s.heldTo := rfl
@[simp] theorem setLast_skipNext : (setLast s i).skipNext = s.skipNext := rfl
@[simp] theorem setLast_levelNow : (setLast s i).levelNow = s.levelNow := rfl
@[simp] theorem setLast_levelNext : (setLast s i).levelNext = s.levelNext := rfl
@[simp] theorem setLast_dwell : (setLast s i).dwell = s.dwell := rfl
@[simp] theorem setLast_life : (setLast s i).life = s.life := rfl
@[simp] theorem setLast_railsLost : (setLast s i).railsLost = s.railsLost := rfl
@[simp] theorem setLast_wake : (setLast s i).wake = s.wake := rfl
@[simp] theorem setLast_warmNext : (setLast s i).warmNext = s.warmNext := rfl
@[simp] theorem setLast_regs : (setLast s i).regs = s.regs := rfl
@[simp] theorem setLast_regsA : (setLast s i).regsA = s.regsA := rfl
@[simp] theorem setLast_chainRegs : (setLast s i).chainRegs = s.chainRegs := rfl
@[simp] theorem setLast_regsB1 : (setLast s i).regsB1 = s.regsB1 := rfl
@[simp] theorem setLast_regsB2 : (setLast s i).regsB2 = s.regsB2 := rfl
@[simp] theorem setLast_regsM1 : (setLast s i).regsM1 = s.regsM1 := rfl
@[simp] theorem setLast_regsM2 : (setLast s i).regsM2 = s.regsM2 := rfl
@[simp] theorem setLast_regsM3 : (setLast s i).regsM3 = s.regsM3 := rfl
@[simp] theorem setLast_mem : (setLast s i).mem = s.mem := rfl
@[simp] theorem setLast_ups : (setLast s i).ups = s.ups := rfl
@[simp] theorem setLast_upsOther : (setLast s i).upsOther = s.upsOther := rfl
@[simp] theorem setLast_tiles : (setLast s i).tiles = s.tiles := rfl
@[simp] theorem setLast_spares : (setLast s i).spares = s.spares := rfl
@[simp] theorem setLast_cols : (setLast s i).cols = s.cols := rfl
@[simp] theorem setLast_wheelPos : (setLast s i).wheelPos = s.wheelPos := rfl
@[simp] theorem setLast_turns : (setLast s i).turns = s.turns := rfl
@[simp] theorem setLast_wheelSet : (setLast s i).wheelSet = s.wheelSet := rfl
@[simp] theorem setLast_wheelPend : (setLast s i).wheelPend = s.wheelPend := rfl
@[simp] theorem setLast_wheelReq : (setLast s i).wheelReq = s.wheelReq := rfl
@[simp] theorem setLast_wheels : (setLast s i).wheels = s.wheels := rfl
@[simp] theorem setLast_lfsrPrev : (setLast s i).lfsrPrev = s.lfsrPrev := rfl
@[simp] theorem setLast_queues : (setLast s i).queues = s.queues := rfl
@[simp] theorem setLast_lots : (setLast s i).lots = s.lots := rfl
@[simp] theorem setLast_starving : (setLast s i).starving = s.starving := rfl
@[simp] theorem setLast_rdLanes : (setLast s i).rdLanes = s.rdLanes := rfl
@[simp] theorem setLast_wrLanes : (setLast s i).wrLanes = s.wrLanes := rfl
@[simp] theorem setLast_slotRd : (setLast s i).slotRd = s.slotRd := rfl
@[simp] theorem setLast_slotWr : (setLast s i).slotWr = s.slotWr := rfl
@[simp] theorem setLast_slotRdOut : (setLast s i).slotRdOut = s.slotRdOut := rfl
@[simp] theorem setLast_slotWrOut : (setLast s i).slotWrOut = s.slotWrOut := rfl
@[simp] theorem setLast_scalars : (setLast s i).scalars = s.scalars := rfl
@[simp] theorem setLast_nextScalar : (setLast s i).nextScalar = s.nextScalar := rfl
@[simp] theorem setLast_scalarOut : (setLast s i).scalarOut = s.scalarOut := rfl
@[simp] theorem setLast_rsts : (setLast s i).rsts = s.rsts := rfl
@[simp] theorem setLast_links : (setLast s i).links = s.links := rfl
@[simp] theorem setLast_wins : (setLast s i).wins = s.wins := rfl
@[simp] theorem setLast_decay : (setLast s i).decay = s.decay := rfl
@[simp] theorem setLast_sats : (setLast s i).sats = s.sats := rfl
@[simp] theorem setLast_satMem : (setLast s i).satMem = s.satMem := rfl
@[simp] theorem setLast_satOut : (setLast s i).satOut = s.satOut := rfl
@[simp] theorem setLast_hops : (setLast s i).hops = s.hops := rfl
@[simp] theorem setLast_caravans : (setLast s i).caravans = s.caravans := rfl
@[simp] theorem setLast_store : (setLast s i).store = s.store := rfl
@[simp] theorem setLast_agents : (setLast s i).agents = s.agents := rfl
@[simp] theorem setLast_ctxs : (setLast s i).ctxs = s.ctxs := rfl
@[simp] theorem setLast_pieces : (setLast s i).pieces = s.pieces := rfl
@[simp] theorem setLast_nextSq : (setLast s i).nextSq = s.nextSq := rfl
@[simp] theorem setLast_bursts : (setLast s i).bursts = s.bursts := rfl
@[simp] theorem setLast_exports : (setLast s i).exports = s.exports := rfl
@[simp] theorem setLast_rr : (setLast s i).rr = s.rr := rfl
@[simp] theorem setLast_aborts : (setLast s i).aborts = s.aborts := rfl
@[simp] theorem setLast_farHold : (setLast s i).farHold = s.farHold := rfl
@[simp] theorem setLast_pmaps : (setLast s i).pmaps = s.pmaps := rfl
@[simp] theorem setLast_pmapOp : (setLast s i).pmapOp = s.pmapOp := rfl
@[simp] theorem setLast_pmapHeld : (setLast s i).pmapHeld = s.pmapHeld := rfl
@[simp] theorem setLast_escq : (setLast s i).escq = s.escq := rfl
@[simp] theorem setLast_nextEsc : (setLast s i).nextEsc = s.nextEsc := rfl
@[simp] theorem setLast_metas : (setLast s i).metas = s.metas := rfl
@[simp] theorem setLast_tallies : (setLast s i).tallies = s.tallies := rfl
@[simp] theorem setLast_tallyMem : (setLast s i).tallyMem = s.tallyMem := rfl
@[simp] theorem setLast_tallyOut : (setLast s i).tallyOut = s.tallyOut := rfl
@[simp] theorem setLast_bells : (setLast s i).bells = s.bells := rfl
@[simp] theorem setLast_bellOps : (setLast s i).bellOps = s.bellOps := rfl
@[simp] theorem setLast_tkHeld : (setLast s i).tkHeld = s.tkHeld := rfl
@[simp] theorem setLast_sbox : (setLast s i).sbox = s.sbox := rfl
@[simp] theorem setLast_sboxWait : (setLast s i).sboxWait = s.sboxWait := rfl
@[simp] theorem setLast_sboxAns : (setLast s i).sboxAns = s.sboxAns := rfl
@[simp] theorem setLast_sboxBusy : (setLast s i).sboxBusy = s.sboxBusy := rfl
@[simp] theorem setLast_reapSet : (setLast s i).reapSet = s.reapSet := rfl
@[simp] theorem setLast_reapEnter : (setLast s i).reapEnter = s.reapEnter := rfl
@[simp] theorem setLast_reapAt : (setLast s i).reapAt = s.reapAt := rfl
@[simp] theorem setLast_reapMark : (setLast s i).reapMark = s.reapMark := rfl
@[simp] theorem setLast_reapSince : (setLast s i).reapSince = s.reapSince := rfl
@[simp] theorem setLast_reapEnd : (setLast s i).reapEnd = s.reapEnd := rfl
@[simp] theorem setLast_reapMarked : (setLast s i).reapMarked = s.reapMarked := rfl
@[simp] theorem setLast_wipeEnd : (setLast s i).wipeEnd = s.wipeEnd := rfl
@[simp] theorem setLast_lcKnown : (setLast s i).lcKnown = s.lcKnown := rfl
@[simp] theorem setLast_fus : (setLast s i).fus = s.fus := rfl
@[simp] theorem setLast_safe : (setLast s i).safe = s.safe := rfl
@[simp] theorem setLast_safeAt : (setLast s i).safeAt = s.safeAt := rfl
@[simp] theorem setLast_errPulse : (setLast s i).errPulse = s.errPulse := rfl
@[simp] theorem setLast_errWant : (setLast s i).errWant = s.errWant := rfl
@[simp] theorem setLast_intPend : (setLast s i).intPend = s.intPend := rfl
@[simp] theorem setLast_intLine : (setLast s i).intLine = s.intLine := rfl
@[simp] theorem setLast_intPulse : (setLast s i).intPulse = s.intPulse := rfl
@[simp] theorem setLast_intOwner : (setLast s i).intOwner = s.intOwner := rfl
@[simp] theorem setLast_intSel : (setLast s i).intSel = s.intSel := rfl
@[simp] theorem setLast_asleep : (setLast s i).asleep = s.asleep := rfl
@[simp] theorem setLast_caps : (setLast s i).caps = s.caps := rfl
@[simp] theorem setLast_captures : (setLast s i).captures = s.captures := rfl
@[simp] theorem setLast_ledgerCaps : (setLast s i).ledgerCaps = s.ledgerCaps := rfl
@[simp] theorem setLast_answers : (setLast s i).answers = s.answers := rfl
@[simp] theorem setLast_parked : (setLast s i).parked = s.parked := rfl
@[simp] theorem setLast_gate : (setLast s i).gate = s.gate := rfl
@[simp] theorem setLast_turn : (setLast s i).turn = s.turn := rfl
@[simp] theorem setLast_loader : (setLast s i).loader = s.loader := rfl
@[simp] theorem setLast_sealed_ : (setLast s i).sealed_ = s.sealed_ := rfl
@[simp] theorem setLast_sealWant : (setLast s i).sealWant = s.sealWant := rfl
@[simp] theorem setLast_domains : (setLast s i).domains = s.domains := rfl
@[simp] theorem setLast_free : (setLast s i).free = s.free := rfl
end

section
variable (n : Nat)
@[simp] theorem pulse_pending : (pulse s n).pending = s.pending := rfl
@[simp] theorem pulse_clk : (pulse s n).clk = s.clk := rfl
@[simp] theorem pulse_run : (pulse s n).run = s.run := rfl
@[simp] theorem pulse_late : (pulse s n).late = s.late := rfl
@[simp] theorem pulse_heldFrom : (pulse s n).heldFrom = s.heldFrom := rfl
@[simp] theorem pulse_heldTo : (pulse s n).heldTo = s.heldTo := rfl
@[simp] theorem pulse_skipNext : (pulse s n).skipNext = s.skipNext := rfl
@[simp] theorem pulse_levelNow : (pulse s n).levelNow = s.levelNow := rfl
@[simp] theorem pulse_levelNext : (pulse s n).levelNext = s.levelNext := rfl
@[simp] theorem pulse_dwell : (pulse s n).dwell = s.dwell := rfl
@[simp] theorem pulse_life : (pulse s n).life = s.life := rfl
@[simp] theorem pulse_railsLost : (pulse s n).railsLost = s.railsLost := rfl
@[simp] theorem pulse_wake : (pulse s n).wake = s.wake := rfl
@[simp] theorem pulse_warmNext : (pulse s n).warmNext = s.warmNext := rfl
@[simp] theorem pulse_regs : (pulse s n).regs = s.regs := rfl
@[simp] theorem pulse_regsA : (pulse s n).regsA = s.regsA := rfl
@[simp] theorem pulse_chainRegs : (pulse s n).chainRegs = s.chainRegs := rfl
@[simp] theorem pulse_regsB1 : (pulse s n).regsB1 = s.regsB1 := rfl
@[simp] theorem pulse_regsB2 : (pulse s n).regsB2 = s.regsB2 := rfl
@[simp] theorem pulse_regsM1 : (pulse s n).regsM1 = s.regsM1 := rfl
@[simp] theorem pulse_regsM2 : (pulse s n).regsM2 = s.regsM2 := rfl
@[simp] theorem pulse_regsM3 : (pulse s n).regsM3 = s.regsM3 := rfl
@[simp] theorem pulse_mem : (pulse s n).mem = s.mem := rfl
@[simp] theorem pulse_ups : (pulse s n).ups = s.ups := rfl
@[simp] theorem pulse_upsOther : (pulse s n).upsOther = s.upsOther := rfl
@[simp] theorem pulse_tiles : (pulse s n).tiles = s.tiles := rfl
@[simp] theorem pulse_spares : (pulse s n).spares = s.spares := rfl
@[simp] theorem pulse_cols : (pulse s n).cols = s.cols := rfl
@[simp] theorem pulse_wheelPos : (pulse s n).wheelPos = s.wheelPos := rfl
@[simp] theorem pulse_turns : (pulse s n).turns = s.turns := rfl
@[simp] theorem pulse_wheelSet : (pulse s n).wheelSet = s.wheelSet := rfl
@[simp] theorem pulse_wheelPend : (pulse s n).wheelPend = s.wheelPend := rfl
@[simp] theorem pulse_wheelReq : (pulse s n).wheelReq = s.wheelReq := rfl
@[simp] theorem pulse_wheels : (pulse s n).wheels = s.wheels := rfl
@[simp] theorem pulse_lfsrPrev : (pulse s n).lfsrPrev = s.lfsrPrev := rfl
@[simp] theorem pulse_queues : (pulse s n).queues = s.queues := rfl
@[simp] theorem pulse_lots : (pulse s n).lots = s.lots := rfl
@[simp] theorem pulse_starving : (pulse s n).starving = s.starving := rfl
@[simp] theorem pulse_rdLanes : (pulse s n).rdLanes = s.rdLanes := rfl
@[simp] theorem pulse_wrLanes : (pulse s n).wrLanes = s.wrLanes := rfl
@[simp] theorem pulse_slotRd : (pulse s n).slotRd = s.slotRd := rfl
@[simp] theorem pulse_slotWr : (pulse s n).slotWr = s.slotWr := rfl
@[simp] theorem pulse_slotRdOut : (pulse s n).slotRdOut = s.slotRdOut := rfl
@[simp] theorem pulse_slotWrOut : (pulse s n).slotWrOut = s.slotWrOut := rfl
@[simp] theorem pulse_scalars : (pulse s n).scalars = s.scalars := rfl
@[simp] theorem pulse_nextScalar : (pulse s n).nextScalar = s.nextScalar := rfl
@[simp] theorem pulse_scalarOut : (pulse s n).scalarOut = s.scalarOut := rfl
@[simp] theorem pulse_rsts : (pulse s n).rsts = s.rsts := rfl
@[simp] theorem pulse_links : (pulse s n).links = s.links := rfl
@[simp] theorem pulse_wins : (pulse s n).wins = s.wins := rfl
@[simp] theorem pulse_decay : (pulse s n).decay = s.decay := rfl
@[simp] theorem pulse_sats : (pulse s n).sats = s.sats := rfl
@[simp] theorem pulse_satMem : (pulse s n).satMem = s.satMem := rfl
@[simp] theorem pulse_satOut : (pulse s n).satOut = s.satOut := rfl
@[simp] theorem pulse_hops : (pulse s n).hops = s.hops := rfl
@[simp] theorem pulse_caravans : (pulse s n).caravans = s.caravans := rfl
@[simp] theorem pulse_store : (pulse s n).store = s.store := rfl
@[simp] theorem pulse_agents : (pulse s n).agents = s.agents := rfl
@[simp] theorem pulse_ctxs : (pulse s n).ctxs = s.ctxs := rfl
@[simp] theorem pulse_pieces : (pulse s n).pieces = s.pieces := rfl
@[simp] theorem pulse_nextSq : (pulse s n).nextSq = s.nextSq := rfl
@[simp] theorem pulse_bursts : (pulse s n).bursts = s.bursts := rfl
@[simp] theorem pulse_exports : (pulse s n).exports = s.exports := rfl
@[simp] theorem pulse_rr : (pulse s n).rr = s.rr := rfl
@[simp] theorem pulse_axiLast : (pulse s n).axiLast = s.axiLast := rfl
@[simp] theorem pulse_aborts : (pulse s n).aborts = s.aborts := rfl
@[simp] theorem pulse_farHold : (pulse s n).farHold = s.farHold := rfl
@[simp] theorem pulse_pmaps : (pulse s n).pmaps = s.pmaps := rfl
@[simp] theorem pulse_pmapOp : (pulse s n).pmapOp = s.pmapOp := rfl
@[simp] theorem pulse_pmapHeld : (pulse s n).pmapHeld = s.pmapHeld := rfl
@[simp] theorem pulse_escq : (pulse s n).escq = s.escq := rfl
@[simp] theorem pulse_nextEsc : (pulse s n).nextEsc = s.nextEsc := rfl
@[simp] theorem pulse_metas : (pulse s n).metas = s.metas := rfl
@[simp] theorem pulse_tallies : (pulse s n).tallies = s.tallies := rfl
@[simp] theorem pulse_tallyMem : (pulse s n).tallyMem = s.tallyMem := rfl
@[simp] theorem pulse_tallyOut : (pulse s n).tallyOut = s.tallyOut := rfl
@[simp] theorem pulse_bells : (pulse s n).bells = s.bells := rfl
@[simp] theorem pulse_bellOps : (pulse s n).bellOps = s.bellOps := rfl
@[simp] theorem pulse_tkHeld : (pulse s n).tkHeld = s.tkHeld := rfl
@[simp] theorem pulse_sbox : (pulse s n).sbox = s.sbox := rfl
@[simp] theorem pulse_sboxWait : (pulse s n).sboxWait = s.sboxWait := rfl
@[simp] theorem pulse_sboxAns : (pulse s n).sboxAns = s.sboxAns := rfl
@[simp] theorem pulse_sboxBusy : (pulse s n).sboxBusy = s.sboxBusy := rfl
@[simp] theorem pulse_reapSet : (pulse s n).reapSet = s.reapSet := rfl
@[simp] theorem pulse_reapEnter : (pulse s n).reapEnter = s.reapEnter := rfl
@[simp] theorem pulse_reapAt : (pulse s n).reapAt = s.reapAt := rfl
@[simp] theorem pulse_reapMark : (pulse s n).reapMark = s.reapMark := rfl
@[simp] theorem pulse_reapSince : (pulse s n).reapSince = s.reapSince := rfl
@[simp] theorem pulse_reapEnd : (pulse s n).reapEnd = s.reapEnd := rfl
@[simp] theorem pulse_reapMarked : (pulse s n).reapMarked = s.reapMarked := rfl
@[simp] theorem pulse_wipeEnd : (pulse s n).wipeEnd = s.wipeEnd := rfl
@[simp] theorem pulse_lcKnown : (pulse s n).lcKnown = s.lcKnown := rfl
@[simp] theorem pulse_fus : (pulse s n).fus = s.fus := rfl
@[simp] theorem pulse_safe : (pulse s n).safe = s.safe := rfl
@[simp] theorem pulse_safeAt : (pulse s n).safeAt = s.safeAt := rfl
@[simp] theorem pulse_errPulse : (pulse s n).errPulse = s.errPulse := rfl
@[simp] theorem pulse_errWant : (pulse s n).errWant = s.errWant := rfl
@[simp] theorem pulse_intPend : (pulse s n).intPend = s.intPend := rfl
@[simp] theorem pulse_intLine : (pulse s n).intLine = s.intLine := rfl
@[simp] theorem pulse_intOwner : (pulse s n).intOwner = s.intOwner := rfl
@[simp] theorem pulse_intSel : (pulse s n).intSel = s.intSel := rfl
@[simp] theorem pulse_asleep : (pulse s n).asleep = s.asleep := rfl
@[simp] theorem pulse_caps : (pulse s n).caps = s.caps := rfl
@[simp] theorem pulse_captures : (pulse s n).captures = s.captures := rfl
@[simp] theorem pulse_ledgerCaps : (pulse s n).ledgerCaps = s.ledgerCaps := rfl
@[simp] theorem pulse_answers : (pulse s n).answers = s.answers := rfl
@[simp] theorem pulse_parked : (pulse s n).parked = s.parked := rfl
@[simp] theorem pulse_gate : (pulse s n).gate = s.gate := rfl
@[simp] theorem pulse_turn : (pulse s n).turn = s.turn := rfl
@[simp] theorem pulse_loader : (pulse s n).loader = s.loader := rfl
@[simp] theorem pulse_sealed_ : (pulse s n).sealed_ = s.sealed_ := rfl
@[simp] theorem pulse_sealWant : (pulse s n).sealWant = s.sealWant := rfl
@[simp] theorem pulse_domains : (pulse s n).domains = s.domains := rfl
@[simp] theorem pulse_free : (pulse s n).free = s.free := rfl
end

section
variable (p : Nat) (d : Coded)
@[simp] theorem writePhys_pending : (writePhys s p d).pending = s.pending := rfl
@[simp] theorem writePhys_clk : (writePhys s p d).clk = s.clk := rfl
@[simp] theorem writePhys_run : (writePhys s p d).run = s.run := rfl
@[simp] theorem writePhys_late : (writePhys s p d).late = s.late := rfl
@[simp] theorem writePhys_heldFrom : (writePhys s p d).heldFrom = s.heldFrom := rfl
@[simp] theorem writePhys_heldTo : (writePhys s p d).heldTo = s.heldTo := rfl
@[simp] theorem writePhys_skipNext : (writePhys s p d).skipNext = s.skipNext := rfl
@[simp] theorem writePhys_levelNow : (writePhys s p d).levelNow = s.levelNow := rfl
@[simp] theorem writePhys_levelNext : (writePhys s p d).levelNext = s.levelNext := rfl
@[simp] theorem writePhys_dwell : (writePhys s p d).dwell = s.dwell := rfl
@[simp] theorem writePhys_life : (writePhys s p d).life = s.life := rfl
@[simp] theorem writePhys_railsLost : (writePhys s p d).railsLost = s.railsLost := rfl
@[simp] theorem writePhys_wake : (writePhys s p d).wake = s.wake := rfl
@[simp] theorem writePhys_warmNext : (writePhys s p d).warmNext = s.warmNext := rfl
@[simp] theorem writePhys_regs : (writePhys s p d).regs = s.regs := rfl
@[simp] theorem writePhys_regsA : (writePhys s p d).regsA = s.regsA := rfl
@[simp] theorem writePhys_chainRegs : (writePhys s p d).chainRegs = s.chainRegs := rfl
@[simp] theorem writePhys_regsB1 : (writePhys s p d).regsB1 = s.regsB1 := rfl
@[simp] theorem writePhys_regsB2 : (writePhys s p d).regsB2 = s.regsB2 := rfl
@[simp] theorem writePhys_regsM1 : (writePhys s p d).regsM1 = s.regsM1 := rfl
@[simp] theorem writePhys_regsM2 : (writePhys s p d).regsM2 = s.regsM2 := rfl
@[simp] theorem writePhys_regsM3 : (writePhys s p d).regsM3 = s.regsM3 := rfl
@[simp] theorem writePhys_upsOther : (writePhys s p d).upsOther = s.upsOther := rfl
@[simp] theorem writePhys_tiles : (writePhys s p d).tiles = s.tiles := rfl
@[simp] theorem writePhys_spares : (writePhys s p d).spares = s.spares := rfl
@[simp] theorem writePhys_cols : (writePhys s p d).cols = s.cols := rfl
@[simp] theorem writePhys_wheelPos : (writePhys s p d).wheelPos = s.wheelPos := rfl
@[simp] theorem writePhys_turns : (writePhys s p d).turns = s.turns := rfl
@[simp] theorem writePhys_wheelSet : (writePhys s p d).wheelSet = s.wheelSet := rfl
@[simp] theorem writePhys_wheelPend : (writePhys s p d).wheelPend = s.wheelPend := rfl
@[simp] theorem writePhys_wheelReq : (writePhys s p d).wheelReq = s.wheelReq := rfl
@[simp] theorem writePhys_wheels : (writePhys s p d).wheels = s.wheels := rfl
@[simp] theorem writePhys_lfsrPrev : (writePhys s p d).lfsrPrev = s.lfsrPrev := rfl
@[simp] theorem writePhys_queues : (writePhys s p d).queues = s.queues := rfl
@[simp] theorem writePhys_lots : (writePhys s p d).lots = s.lots := rfl
@[simp] theorem writePhys_starving : (writePhys s p d).starving = s.starving := rfl
@[simp] theorem writePhys_rdLanes : (writePhys s p d).rdLanes = s.rdLanes := rfl
@[simp] theorem writePhys_wrLanes : (writePhys s p d).wrLanes = s.wrLanes := rfl
@[simp] theorem writePhys_slotRd : (writePhys s p d).slotRd = s.slotRd := rfl
@[simp] theorem writePhys_slotWr : (writePhys s p d).slotWr = s.slotWr := rfl
@[simp] theorem writePhys_slotRdOut : (writePhys s p d).slotRdOut = s.slotRdOut := rfl
@[simp] theorem writePhys_slotWrOut : (writePhys s p d).slotWrOut = s.slotWrOut := rfl
@[simp] theorem writePhys_scalars : (writePhys s p d).scalars = s.scalars := rfl
@[simp] theorem writePhys_nextScalar : (writePhys s p d).nextScalar = s.nextScalar := rfl
@[simp] theorem writePhys_scalarOut : (writePhys s p d).scalarOut = s.scalarOut := rfl
@[simp] theorem writePhys_rsts : (writePhys s p d).rsts = s.rsts := rfl
@[simp] theorem writePhys_links : (writePhys s p d).links = s.links := rfl
@[simp] theorem writePhys_wins : (writePhys s p d).wins = s.wins := rfl
@[simp] theorem writePhys_decay : (writePhys s p d).decay = s.decay := rfl
@[simp] theorem writePhys_sats : (writePhys s p d).sats = s.sats := rfl
@[simp] theorem writePhys_satMem : (writePhys s p d).satMem = s.satMem := rfl
@[simp] theorem writePhys_satOut : (writePhys s p d).satOut = s.satOut := rfl
@[simp] theorem writePhys_hops : (writePhys s p d).hops = s.hops := rfl
@[simp] theorem writePhys_caravans : (writePhys s p d).caravans = s.caravans := rfl
@[simp] theorem writePhys_store : (writePhys s p d).store = s.store := rfl
@[simp] theorem writePhys_agents : (writePhys s p d).agents = s.agents := rfl
@[simp] theorem writePhys_ctxs : (writePhys s p d).ctxs = s.ctxs := rfl
@[simp] theorem writePhys_pieces : (writePhys s p d).pieces = s.pieces := rfl
@[simp] theorem writePhys_nextSq : (writePhys s p d).nextSq = s.nextSq := rfl
@[simp] theorem writePhys_bursts : (writePhys s p d).bursts = s.bursts := rfl
@[simp] theorem writePhys_exports : (writePhys s p d).exports = s.exports := rfl
@[simp] theorem writePhys_rr : (writePhys s p d).rr = s.rr := rfl
@[simp] theorem writePhys_axiLast : (writePhys s p d).axiLast = s.axiLast := rfl
@[simp] theorem writePhys_aborts : (writePhys s p d).aborts = s.aborts := rfl
@[simp] theorem writePhys_farHold : (writePhys s p d).farHold = s.farHold := rfl
@[simp] theorem writePhys_pmaps : (writePhys s p d).pmaps = s.pmaps := rfl
@[simp] theorem writePhys_pmapOp : (writePhys s p d).pmapOp = s.pmapOp := rfl
@[simp] theorem writePhys_pmapHeld : (writePhys s p d).pmapHeld = s.pmapHeld := rfl
@[simp] theorem writePhys_escq : (writePhys s p d).escq = s.escq := rfl
@[simp] theorem writePhys_nextEsc : (writePhys s p d).nextEsc = s.nextEsc := rfl
@[simp] theorem writePhys_metas : (writePhys s p d).metas = s.metas := rfl
@[simp] theorem writePhys_tallies : (writePhys s p d).tallies = s.tallies := rfl
@[simp] theorem writePhys_tallyMem : (writePhys s p d).tallyMem = s.tallyMem := rfl
@[simp] theorem writePhys_tallyOut : (writePhys s p d).tallyOut = s.tallyOut := rfl
@[simp] theorem writePhys_bells : (writePhys s p d).bells = s.bells := rfl
@[simp] theorem writePhys_bellOps : (writePhys s p d).bellOps = s.bellOps := rfl
@[simp] theorem writePhys_tkHeld : (writePhys s p d).tkHeld = s.tkHeld := rfl
@[simp] theorem writePhys_sbox : (writePhys s p d).sbox = s.sbox := rfl
@[simp] theorem writePhys_sboxWait : (writePhys s p d).sboxWait = s.sboxWait := rfl
@[simp] theorem writePhys_sboxAns : (writePhys s p d).sboxAns = s.sboxAns := rfl
@[simp] theorem writePhys_sboxBusy : (writePhys s p d).sboxBusy = s.sboxBusy := rfl
@[simp] theorem writePhys_reapSet : (writePhys s p d).reapSet = s.reapSet := rfl
@[simp] theorem writePhys_reapEnter : (writePhys s p d).reapEnter = s.reapEnter := rfl
@[simp] theorem writePhys_reapAt : (writePhys s p d).reapAt = s.reapAt := rfl
@[simp] theorem writePhys_reapMark : (writePhys s p d).reapMark = s.reapMark := rfl
@[simp] theorem writePhys_reapSince : (writePhys s p d).reapSince = s.reapSince := rfl
@[simp] theorem writePhys_reapEnd : (writePhys s p d).reapEnd = s.reapEnd := rfl
@[simp] theorem writePhys_reapMarked : (writePhys s p d).reapMarked = s.reapMarked := rfl
@[simp] theorem writePhys_wipeEnd : (writePhys s p d).wipeEnd = s.wipeEnd := rfl
@[simp] theorem writePhys_lcKnown : (writePhys s p d).lcKnown = s.lcKnown := rfl
@[simp] theorem writePhys_fus : (writePhys s p d).fus = s.fus := rfl
@[simp] theorem writePhys_safe : (writePhys s p d).safe = s.safe := rfl
@[simp] theorem writePhys_safeAt : (writePhys s p d).safeAt = s.safeAt := rfl
@[simp] theorem writePhys_errPulse : (writePhys s p d).errPulse = s.errPulse := rfl
@[simp] theorem writePhys_errWant : (writePhys s p d).errWant = s.errWant := rfl
@[simp] theorem writePhys_intPend : (writePhys s p d).intPend = s.intPend := rfl
@[simp] theorem writePhys_intLine : (writePhys s p d).intLine = s.intLine := rfl
@[simp] theorem writePhys_intPulse : (writePhys s p d).intPulse = s.intPulse := rfl
@[simp] theorem writePhys_intOwner : (writePhys s p d).intOwner = s.intOwner := rfl
@[simp] theorem writePhys_intSel : (writePhys s p d).intSel = s.intSel := rfl
@[simp] theorem writePhys_asleep : (writePhys s p d).asleep = s.asleep := rfl
@[simp] theorem writePhys_caps : (writePhys s p d).caps = s.caps := rfl
@[simp] theorem writePhys_captures : (writePhys s p d).captures = s.captures := rfl
@[simp] theorem writePhys_ledgerCaps : (writePhys s p d).ledgerCaps = s.ledgerCaps := rfl
@[simp] theorem writePhys_answers : (writePhys s p d).answers = s.answers := rfl
@[simp] theorem writePhys_parked : (writePhys s p d).parked = s.parked := rfl
@[simp] theorem writePhys_gate : (writePhys s p d).gate = s.gate := rfl
@[simp] theorem writePhys_turn : (writePhys s p d).turn = s.turn := rfl
@[simp] theorem writePhys_loader : (writePhys s p d).loader = s.loader := rfl
@[simp] theorem writePhys_sealed_ : (writePhys s p d).sealed_ = s.sealed_ := rfl
@[simp] theorem writePhys_sealWant : (writePhys s p d).sealWant = s.sealWant := rfl
@[simp] theorem writePhys_domains : (writePhys s p d).domains = s.domains := rfl
@[simp] theorem writePhys_free : (writePhys s p d).free = s.free := rfl
end

/-! ### What an update's own table reads -/

theorem tile_setTile (c t c2 t2 : Nat) (v : Tile) : (s.setTile c t v).tile c2 t2 = if c * 4 + t = c2 * 4 + t2 then v else s.tile c2 t2 :=
  Tab.get_set _ _ _ _ _
@[simp] theorem tile_setTile_same (c t : Nat) (v : Tile) : (s.setTile c t v).tile c t = v := Tab.get_set_same _ _ _ _

theorem col_setCol (c d : Nat) (v : Col) : (s.setCol c v).col d = if c = d then v else s.col d :=
  Tab.get_set _ _ _ _ _
@[simp] theorem col_setCol_same (c : Nat) (v : Col) : (s.setCol c v).col c = v := Tab.get_set_same _ _ _ _

theorem lot_setLot (k j : Nat) (v : Lot) : (s.setLot k v).lot j = if k = j then v else s.lot j :=
  Tab.get_set _ _ _ _ _
@[simp] theorem lot_setLot_same (k : Nat) (v : Lot) : (s.setLot k v).lot k = v := Tab.get_set_same _ _ _ _

theorem queue_setQueue (k j : Nat) (v : LotQueue) : (s.setQueue k v).queue j = if k = j then v else s.queue j :=
  Tab.get_set _ _ _ _ _
@[simp] theorem queue_setQueue_same (k : Nat) (v : LotQueue) : (s.setQueue k v).queue k = v := Tab.get_set_same _ _ _ _

theorem rdDir_setRdDir (x y : Nat) (v : SlotDir) : (s.setRdDir x v).rdDir y = if x = y then v else s.rdDir y :=
  Tab.get_set _ _ _ _ _
@[simp] theorem rdDir_setRdDir_same (x : Nat) (v : SlotDir) : (s.setRdDir x v).rdDir x = v := Tab.get_set_same _ _ _ _

theorem wrDir_setWrDir (x y : Nat) (v : SlotDir) : (s.setWrDir x v).wrDir y = if x = y then v else s.wrDir y :=
  Tab.get_set _ _ _ _ _
@[simp] theorem wrDir_setWrDir_same (x : Nat) (v : SlotDir) : (s.setWrDir x v).wrDir x = v := Tab.get_set_same _ _ _ _

theorem scalar_setScalar (g k : Nat) (v : List Scalar) : (s.setScalar g v).scalar k = if g = k then v else s.scalar k :=
  Tab.get_set _ _ _ _ _
@[simp] theorem scalar_setScalar_same (g : Nat) (v : List Scalar) : (s.setScalar g v).scalar g = v := Tab.get_set_same _ _ _ _

theorem rst_setRst (m n : Nat) (v : Rst) : (s.setRst m v).rst n = if m = n then v else s.rst n :=
  Tab.get_set _ _ _ _ _
@[simp] theorem rst_setRst_same (m : Nat) (v : Rst) : (s.setRst m v).rst m = v := Tab.get_set_same _ _ _ _

theorem sat_setSat (x y : Nat) (v : Sat) : (s.setSat x v).sat y = if x = y then v else s.sat y :=
  Tab.get_set _ _ _ _ _
@[simp] theorem sat_setSat_same (x : Nat) (v : Sat) : (s.setSat x v).sat x = v := Tab.get_set_same _ _ _ _

theorem agent_setAgent (a b : Nat) (v : Agent) : (s.setAgent a v).agent b = if a = b then v else s.agent b :=
  Tab.get_set _ _ _ _ _
@[simp] theorem agent_setAgent_same (a : Nat) (v : Agent) : (s.setAgent a v).agent a = v := Tab.get_set_same _ _ _ _

theorem ctx_setCtx (a k b j : Nat) (v : Ctx) : (s.setCtx a k v).ctx b j = if a * 2 + k = b * 2 + j then v else s.ctx b j :=
  Tab.get_set _ _ _ _ _
@[simp] theorem ctx_setCtx_same (a k : Nat) (v : Ctx) : (s.setCtx a k v).ctx a k = v := Tab.get_set_same _ _ _ _

theorem bell_setBell (b c : Nat) (v : Bell) : (s.setBell b v).bell c = if b = c then v else s.bell c :=
  Tab.get_set _ _ _ _ _
@[simp] theorem bell_setBell_same (b : Nat) (v : Bell) : (s.setBell b v).bell b = v := Tab.get_set_same _ _ _ _

theorem fu_setFu (n m : Nat) (v : Fu) : (s.setFu n v).fu m = if n = m then v else s.fu m :=
  Tab.get_set _ _ _ _ _
@[simp] theorem fu_setFu_same (n : Nat) (v : Fu) : (s.setFu n v).fu n = v := Tab.get_set_same _ _ _ _

theorem win_setWin (w u : Nat) (v : WinX) : (s.setWin w v).win u = if w = u then v else s.win u :=
  Tab.get_set _ _ _ _ _
@[simp] theorem win_setWin_same (w : Nat) (v : WinX) : (s.setWin w v).win w = v := Tab.get_set_same _ _ _ _

theorem link_setLink (l m : Nat) (v : Link) : (s.setLink l v).link m = if l = m then v else s.link m :=
  Tab.get_set _ _ _ _ _
@[simp] theorem link_setLink_same (l : Nat) (v : Link) : (s.setLink l v).link l = v := Tab.get_set_same _ _ _ _

theorem tally_setTally (x y : Nat) (v : Tally) : (s.setTally x v).tally y = if x = y then v else s.tally y :=
  Tab.get_set _ _ _ _ _
@[simp] theorem tally_setTally_same (x : Nat) (v : Tally) : (s.setTally x v).tally x = v := Tab.get_set_same _ _ _ _

theorem metaBuf_setMetaBuf (x p y q : Nat) (v : MetaBuf) : (s.setMetaBuf x p v).metaBuf y q = if x * 8 + p = y * 8 + q then v else s.metaBuf y q :=
  Tab.get_set _ _ _ _ _
@[simp] theorem metaBuf_setMetaBuf_same (x p : Nat) (v : MetaBuf) : (s.setMetaBuf x p v).metaBuf x p = v := Tab.get_set_same _ _ _ _

theorem escs_setEscs (x y : Nat) (v : List EscRec) : (s.setEscs x v).escs y = if x = y then v else s.escs y :=
  Tab.get_set _ _ _ _ _
@[simp] theorem escs_setEscs_same (x : Nat) (v : List EscRec) : (s.setEscs x v).escs x = v := Tab.get_set_same _ _ _ _

end Sys2Proof.Machine
end

