-- ==== Sys2Proof/Laws/Regs.lean ====
section
/-! SUPPORT. The register file: what a register reads after a write of one, and what is kept. -/

namespace Sys2Proof.Machine

theorem RegId.num_inj {a b : RegId} (h : a.num = b.num) : a = b := by
  have := congrArg RegId.ofNat h
  simpa [RegId.num, RegId.ofNat_ctorIdx] using this

/-- Two registers share a key only if they are one register. -/
theorem RegId.key_inj {a b : RegId} {i j : Nat} (hi : i < 1048576) (hj : j < 1048576) (h : a.key i = b.key j) :
    a = b ∧ i = j := by
  unfold RegId.key at h
  exact ⟨RegId.num_inj (by omega), by omega⟩

theorem RegId.key_ne {a b : RegId} {i j : Nat} (hi : i < 1048576) (hj : j < 1048576) (h : a ≠ b ∨ i ≠ j) :
    a.key i ≠ b.key j := fun e => by
  obtain ⟨h1, h2⟩ := RegId.key_inj hi hj e
  exact h.elim (· h1) (· h2)

@[simp] theorem rg_setRg_same (s : State) (id : RegId) (i : Nat) (v : Word) : rg (setRg s id i v) id i = v :=
  Tab.get_set_same _ _ _ _

theorem rg_setRg_other (s : State) {a b : RegId} {i j : Nat} (v : Word) (h : a.key i ≠ b.key j) :
    rg (setRg s a i v) b j = rg s b j :=
  Tab.get_set_ne (fun _ => a.reset i) (fun _ => b.reset j) s.regs v h

@[simp] theorem rg_setRf_same (s : State) (id : RegId) (i hi lo v : Nat) :
    rg (setRf s id i hi lo v) id i = setFld (rg s id i) hi lo v := rg_setRg_same _ _ _ _

@[simp] theorem rg_bump_same (s : State) (id : RegId) (i hi lo n : Nat) :
    rg (bump s id i hi lo n) id i = bumpFld (rg s id i) hi lo n := rg_setRg_same _ _ _ _

theorem rg_setRf_other (s : State) {a b : RegId} {i j : Nat} (hi lo v : Nat) (h : a.key i ≠ b.key j) :
    rg (setRf s a i hi lo v) b j = rg s b j := rg_setRg_other s _ h

theorem rg_bump_other (s : State) {a b : RegId} {i j : Nat} (hi lo n : Nat) (h : a.key i ≠ b.key j) :
    rg (bump s a i hi lo n) b j = rg s b j := rg_setRg_other s _ h

/-- A state that differs only outside the register file reads the same registers. -/
theorem rg_congr {s t : State} (h : t.regs = s.regs) (id : RegId) (i : Nat) : rg t id i = rg s id i := by
  simp [rg, h]

theorem RegsKept.of_regs {s t : State} (l : List (RegId × Nat)) (h : t.regs = s.regs) : RegsKept l s t :=
  fun id i _ _ => rg_congr h id i

theorem RegsKept.refl (l : List (RegId × Nat)) (s : State) : RegsKept l s s := .of_regs l rfl

theorem RegsKept.trans {l m : List (RegId × Nat)} {s t u : State} (h1 : RegsKept l s t) (h2 : RegsKept m t u) :
    RegsKept (l ++ m) s u := fun id i hi h =>
  (h2 id i hi fun e he => h e (List.mem_append_right _ he)).trans (h1 id i hi fun e he => h e (List.mem_append_left _ he))

theorem RegsKept.mono {l m : List (RegId × Nat)} {s t : State} (h : RegsKept l s t) (hs : ∀ e ∈ l, e ∈ m) :
    RegsKept m s t := fun id i hi hn => h id i hi fun e he => hn e (hs e he)

theorem RegsKept.setRg (s : State) (id : RegId) (i : Nat) (v : Word) : RegsKept [(id, i)] s (setRg s id i v) :=
  fun _ _ _ h => rg_setRg_other s v (h (id, i) (by simp))

theorem RegsKept.setRf (s : State) (id : RegId) (i hi lo v : Nat) : RegsKept [(id, i)] s (setRf s id i hi lo v) :=
  RegsKept.setRg s id i _

theorem RegsKept.bump (s : State) (id : RegId) (i hi lo n : Nat) : RegsKept [(id, i)] s (bump s id i hi lo n) :=
  RegsKept.setRg s id i _

/-! ### Fields -/

theorem testBit_setFld (w : Word) (hi lo v i : Nat) (hi32 : i < 32) :
    (setFld w hi lo v).getLsbD i =
      if lo ≤ i ∧ i < hi + 1 then v.testBit (i - lo) else w.getLsbD i := by
  unfold setFld
  simp only [BitVec.getLsbD_or, BitVec.getLsbD_and, BitVec.getLsbD_not, BitVec.getLsbD_ofNat, hi32, decide_true,
    Bool.true_and, Nat.testBit_shiftLeft, Nat.testBit_two_pow_sub_one, Nat.testBit_mod_two_pow]
  by_cases h1 : lo ≤ i <;> by_cases h2 : i < hi + 1
  · have : i - lo < hi + 1 - lo := by omega
    simp [h1, h2, this]
  · have : ¬ i - lo < hi + 1 - lo := by omega
    simp [h1, h2, this]
  · simp [h1]
  · simp [h1]

/-- A bit outside the field stays. -/
theorem bitOf_setFld_other (w : Word) (hi lo v i : Nat) (h : i < lo ∨ hi < i) : bitOf (setFld w hi lo v) i = bitOf w i := by
  unfold bitOf
  by_cases h32 : i < 32
  · rw [testBit_setFld w hi lo v i h32, if_neg (by omega)]
  · rw [BitVec.getLsbD_of_ge _ _ (by omega), BitVec.getLsbD_of_ge _ _ (by omega)]

theorem bitOf_setBit_same (w : Word) (i : Nat) (b : Bool) (h : i < 32) : bitOf (setBit w i b) i = b := by
  unfold bitOf setBit
  rw [testBit_setFld w i i _ i h, if_pos (by omega)]
  cases b <;> simp

theorem bitOf_setBit_other (w : Word) (i j : Nat) (b : Bool) (h : i ≠ j) : bitOf (setBit w i b) j = bitOf w j :=
  bitOf_setFld_other w i i _ j (by omega)

theorem fld_testBit (w : Word) (hi lo k : Nat) :
    (fld w hi lo).testBit k = (decide (k < hi + 1 - lo) && w.getLsbD (lo + k)) := by
  simp [fld, Nat.testBit_mod_two_pow, Nat.testBit_shiftRight, BitVec.getLsbD]

/-- The field just set reads the value, cut to its width. -/
theorem fld_setFld_same (w : Word) (hi lo v : Nat) (h : hi < 32) (hl : lo ≤ hi) :
    fld (setFld w hi lo v) hi lo = v % 2 ^ (hi + 1 - lo) := by
  apply Nat.eq_of_testBit_eq
  intro k
  rw [fld_testBit, Nat.testBit_mod_two_pow]
  by_cases hk : k < hi + 1 - lo
  · rw [testBit_setFld _ _ _ _ _ (by omega), if_pos (by omega), Nat.add_sub_cancel_left]
  · simp [hk]

/-- A field apart from the one set stays. -/
theorem fld_setFld_other (w : Word) (hi lo v h2 l2 : Nat) (h : h2 < lo ∨ hi < l2) :
    fld (setFld w hi lo v) h2 l2 = fld w h2 l2 := by
  apply Nat.eq_of_testBit_eq
  intro k
  rw [fld_testBit, fld_testBit]
  by_cases hk : k < h2 + 1 - l2
  · have := bitOf_setFld_other w hi lo v (l2 + k) (by omega)
    simp only [bitOf] at this
    rw [this]
  · simp [hk]

theorem fld_lt (w : Word) (hi lo : Nat) : fld w hi lo < 2 ^ (hi + 1 - lo) := Nat.mod_lt _ (Nat.two_pow_pos _)

/-- A saturating count, as the statements read it. -/
theorem fld_bumpFld_same (w : Word) (hi lo n : Nat) (h : hi < 32) (hl : lo ≤ hi) :
    fld (bumpFld w hi lo n) hi lo = min (2 ^ (hi + 1 - lo) - 1) (fld w hi lo + n) := by
  unfold bumpFld
  rw [fld_setFld_same _ _ _ _ h hl]
  have hp := Nat.two_pow_pos (hi + 1 - lo)
  unfold satAdd
  split
  · rw [Nat.mod_eq_of_lt (by omega)]; omega
  · rw [Nat.mod_eq_of_lt (by omega)]; omega

@[simp] theorem rf_setRf_same (s : State) (id : RegId) (i hi lo v : Nat) (h : hi < 32) (hl : lo ≤ hi) :
    rf (setRf s id i hi lo v) id i hi lo = v % 2 ^ (hi + 1 - lo) := by
  simp [rf, fld_setFld_same _ _ _ _ h hl]

theorem rf_bump_same (s : State) (id : RegId) (i hi lo n : Nat) (h : hi < 32) (hl : lo ≤ hi) :
    rf (bump s id i hi lo n) id i hi lo = min (2 ^ (hi + 1 - lo) - 1) (rf s id i hi lo + n) := by
  simp [rf, fld_bumpFld_same _ _ _ _ h hl]

end Sys2Proof.Machine
end

