-- ==== Sys2Proof/Laws/Mem.lean ====
section
/-! SUPPORT. The array: what bytes and rows read after a write, and that every operation on it keeps its canonical form. -/

namespace Sys2Proof.Machine

theorem memByte_memPut (bs : List Byte) : ∀ (m : List Host.Cell) (a b : Nat),
    Tab.get memDefault (memPut m a bs) b =
      if a ≤ b ∧ b < a + bs.length then bs.getD (b - a) 0 else Tab.get memDefault m b := by
  induction bs with
  | nil => intro m a b; rw [if_neg (by simp only [List.length_nil]; omega)]; rfl
  | cons x t ih =>
    intro m a b
    rw [memPut, ih, Tab.get_set]
    simp only [List.length_cons]
    by_cases h : a = b
    · subst h
      rw [if_neg (by omega), if_pos rfl, if_pos (by omega)]
      simp
    · by_cases h2 : a + 1 ≤ b ∧ b < a + 1 + t.length
      · have h4 : b - a = (b - (a + 1)) + 1 := by omega
        rw [if_pos h2, if_pos (by omega), h4]
        simp
      · rw [if_neg h2, if_neg h, if_neg (by omega)]

/-- Storing bytes keeps the canonical form. -/
theorem wf_memPut (bs : List Byte) : ∀ (m : List Host.Cell) (a : Nat), Memory.wf m → Memory.wf (memPut m a bs) := by
  induction bs with
  | nil => intro m a h; exact h
  | cons x t ih => intro m a h; exact ih _ _ (Tab.wf_set _ _ _ _ h)

/-- Writing a row keeps the canonical form. -/
theorem wf_writePhys (s : State) (p : Nat) (d : Coded) (h : Memory.wf s.mem) : Memory.wf (writePhys s p d).mem :=
  wf_memPut _ _ _ h

@[simp] theorem rowBytes_length (r : Row) : (rowBytes r).length = 64 := by simp [rowBytes]

/-- After a row is written its bytes are the row's, and every other byte is as before. -/
theorem memByte_writePhys (s : State) (p : Nat) (d : Coded) (b : Nat) :
    memByte (writePhys s p d) b = if b / 64 = p then rowByte d.data (b % 64) else memByte s b := by
  unfold memByte writePhys
  rw [memByte_memPut]
  by_cases h : b / 64 = p
  · have h1 : p * 64 ≤ b ∧ b < p * 64 + (rowBytes d.data).length := by simp; omega
    have h2 : b - p * 64 = b % 64 := by omega
    have h3 : b % 64 < 64 := by omega
    rw [if_pos h1, if_pos h, h2]
    simp [rowBytes, List.getD_eq_getElem?_getD, h3]
  · have h1 : ¬(p * 64 ≤ b ∧ b < p * 64 + (rowBytes d.data).length) := by simp; omega
    rw [if_neg h1, if_neg h]

/-- The flips of a row's words after they are written, and those of every other word. -/
theorem foldl_ups (f : Nat → BitVec 136) (p j : Nat) (l : List Nat) : ∀ u : Tab (BitVec 136),
    Tab.get (fun _ => (0 : BitVec 136)) (l.foldl (fun u k => Tab.set (fun _ => 0) u (p * 4 + k) (f k)) u) j =
      if p * 4 ≤ j ∧ j - p * 4 ∈ l then f (j - p * 4) else Tab.get (fun _ => 0) u j := by
  induction l with
  | nil => intro u; simp
  | cons a t ih =>
    intro u
    rw [List.foldl_cons, ih, Tab.get_set]
    by_cases h : p * 4 + a = j
    · subst h; simp
    · have : j - p * 4 = a → ¬ p * 4 ≤ j := fun e1 e2 => h (by omega)
      by_cases h2 : p * 4 ≤ j
      · have h3 : j - p * 4 ≠ a := fun e => this e h2
        simp [h, h2, h3]
      · simp [h, h2]

theorem ups_writePhys (s : State) (p : Nat) (d : Coded) (j : Nat) :
    Tab.get (fun _ => (0 : BitVec 136)) (writePhys s p d).ups j =
      if j / 4 = p then Tab.get (fun _ => 0) d.ups (j % 4) else Tab.get (fun _ => 0) s.ups j := by
  unfold writePhys
  rw [foldl_ups fun k => Tab.get (fun _ => 0) d.ups k]
  by_cases h : j / 4 = p
  · have h1 : p * 4 ≤ j := by omega
    have h2 : j - p * 4 = j % 4 := by omega
    have h3 : j % 4 < 4 := by omega
    simp [h, h1, h2, h3]
  · have h1 : ¬(p * 4 ≤ j ∧ j - p * 4 ∈ List.range 4) := by simp only [List.mem_range]; omega
    rw [if_neg h1, if_neg h]

theorem leNat_rowBytes (r : Row) (n : Nat) : ∀ a, leNat ((List.range' a n).map (rowByte r)) =
    (r.toNat >>> (8 * a)) % 2 ^ (8 * n) := by
  induction n with
  | zero => intro a; simp [leNat, Nat.mod_one]
  | succ n ih =>
    intro a
    rw [List.range'_succ, List.map_cons, leNat, ih]
    have h1 : (rowByte r a).toNat = (r.toNat >>> (8 * a)) % 256 := by simp [rowByte]
    have h2 : r.toNat >>> (8 * (a + 1)) = (r.toNat >>> (8 * a)) / 256 := by
      rw [show 8 * (a + 1) = 8 * a + 8 by omega, Nat.shiftRight_add, Nat.shiftRight_eq_div_pow _ 8]
    have h3 : 2 ^ (8 * (n + 1)) = 256 * 2 ^ (8 * n) := by
      rw [show 8 * (n + 1) = 8 + 8 * n by omega, Nat.pow_add]
    rw [h1, h2, h3, Nat.mod_mul]

/-- A granule is the granule of its bytes. -/
@[simp] theorem rowOf_rowBytes (r : Row) : rowOf (rowBytes r) = r := by
  have h : (rowBytes r).take 64 = rowBytes r := List.take_of_length_le (by simp)
  unfold rowOf
  rw [h]
  have := leNat_rowBytes r 64 0
  rw [← List.range_eq_range'] at this
  rw [rowBytes, this]
  apply BitVec.eq_of_toNat_eq
  rw [BitVec.toNat_ofNat, Nat.mul_zero, Nat.shiftRight_zero]
  have := r.isLt
  rw [show 8 * 64 = 512 from rfl, Nat.mod_eq_of_lt this, Nat.mod_eq_of_lt this]

/-- A row just written reads the data written. -/
theorem readPhys_writePhys_data (s : State) (p : Nat) (d : Coded) : (readPhys (writePhys s p d) p).data = d.data := by
  have : (List.range 64).map (fun i => memByte (writePhys s p d) (p * 64 + i)) = rowBytes d.data := by
    unfold rowBytes
    apply List.map_congr_left
    intro i hi
    have hi := List.mem_range.1 hi
    rw [memByte_writePhys, if_pos (by omega)]
    congr 1
    omega
  simp [readPhys, this]

theorem filterMap_ext {α β : Type} {f g : α → Option β} (l : List α) (h : ∀ x ∈ l, f x = g x) :
    l.filterMap f = l.filterMap g := by
  induction l with
  | nil => rfl
  | cons a t ih => simp only [List.filterMap_cons, h a (by simp), ih fun x hx => h x (by simp [hx])]

/-- A row that is not the one written reads as before, flips and data. -/
theorem readPhys_writePhys_other (s : State) {p q : Nat} (d : Coded) (h : q ≠ p) :
    readPhys (writePhys s p d) q = readPhys s q := by
  have h1 : (List.range 64).map (fun i => memByte (writePhys s p d) (q * 64 + i)) =
      (List.range 64).map fun i => memByte s (q * 64 + i) := by
    refine List.map_congr_left fun i hi => ?_
    have hi := List.mem_range.1 hi
    rw [memByte_writePhys, if_neg (by omega)]
  unfold readPhys
  rw [h1]
  congr 1
  refine filterMap_ext _ fun k hk => ?_
  have hk := List.mem_range.1 hk
  have e : (q * 4 + k) / 4 ≠ p := by omega
  simp only [ups_writePhys, e, if_false]

/-- Writing a row into its deferral entry or its bank keeps the canonical form. -/
theorem wf_putGran (s : State) (c : Nat) (a : Acc) (d : Coded) (h : Memory.wf s.mem) : Memory.wf (putGran s c a d).mem := by
  unfold putGran
  split
  · exact h
  · exact wf_writePhys _ _ _ h

/-- Zeroing a tile keeps the canonical form. -/
theorem wf_zeroTile (s : State) (t c : Nat) (h : Memory.wf s.mem) : Memory.wf (zeroTile s t c).mem :=
  Tab.wf_filter _ _ _ h

/-- A zeroed tile reads zeros, every other row as before. -/
theorem memByte_zeroTile (s : State) (t c b : Nat) :
    memByte (zeroTile s t c) b =
      if (tileRows t c).1 * 64 ≤ b ∧ b < (tileRows t c).2 * 64 then 0 else memByte s b := by
  have e : (zeroTile s t c).mem = s.mem.filter fun e => (fun i => decide (i < (tileRows t c).1 * 64 ∨
      (tileRows t c).2 * 64 ≤ i)) e.1 := rfl
  unfold memByte
  rw [e]
  by_cases h : (tileRows t c).1 * 64 ≤ b ∧ b < (tileRows t c).2 * 64
  · rw [if_pos h]
    exact Tab.get_filter_out memDefault (fun i => decide (i < (tileRows t c).1 * 64 ∨ (tileRows t c).2 * 64 ≤ i)) s.mem b
      (decide_eq_false (by omega))
  · rw [if_neg h]
    exact Tab.get_filter memDefault (fun i => decide (i < (tileRows t c).1 * 64 ∨ (tileRows t c).2 * 64 ≤ i)) s.mem b
      (decide_eq_true (by omega))

/-- The array of the state after reset is canonical. -/
theorem wf_reset : Memory.wf State.reset.mem := rfl

end Sys2Proof.Machine
end

