-- ==== Sys2Proof/Laws/Ops.lean ====
section
/-! SUPPORT. The shared operations: when a command answers a next state and what stands in it, what an access does, which
parts of the state an event, a finding, a queue entry or an abort can change. -/

namespace Sys2Proof.Machine

/-! ### Outcomes -/

theorem powered_eq {s : State} (f : State → State) (h : s.railsLost = false) :
    powered s f = .next { f s with pending := s.pending } := by simp [powered, h]

theorem powered_fault {s : State} (f : State → State) (h : s.railsLost = true) : powered s f = .fault .unguaranteed := by
  simp [powered, h]

/-- A command that answers has met rails within tolerance and has left the queue alone. -/
theorem powered_next {s t : State} {f : State → State} (h : powered s f = .next t) :
    s.railsLost = false ∧ t = { f s with pending := s.pending } := by
  unfold powered at h
  split at h
  · cases h
  · rename_i hr
    exact ⟨by simpa using hr, by injection h with h; exact h.symm⟩

theorem steady_eq {s : State} (f : State → State) (h : s.railsLost = false) : steady s f = .next (calm f s) := by
  rw [steady, powered_eq _ h]; rfl

theorem storing_eq {s : State} (f : State → State) (h : s.railsLost = false) : storing s f = .next (timeless f s) := by
  rw [storing, powered_eq _ h]; rfl

theorem steady_next {s t : State} {f : State → State} (h : steady s f = .next t) : s.railsLost = false ∧ t = calm f s :=
  powered_next h

theorem storing_next {s t : State} {f : State → State} (h : storing s f = .next t) :
    s.railsLost = false ∧ t = timeless f s := powered_next h

section
variable (f : State → State) (s : State)
@[simp] theorem timeless_pending : (timeless f s).pending = s.pending := rfl
@[simp] theorem timeless_clk : (timeless f s).clk = s.clk := rfl
@[simp] theorem timeless_run : (timeless f s).run = s.run := rfl
@[simp] theorem timeless_late : (timeless f s).late = s.late := rfl
@[simp] theorem timeless_wheelPos : (timeless f s).wheelPos = s.wheelPos := rfl
@[simp] theorem timeless_turns : (timeless f s).turns = s.turns := rfl
@[simp] theorem timeless_railsLost : (timeless f s).railsLost = s.railsLost := rfl
@[simp] theorem timeless_regs : (timeless f s).regs = (f s).regs := rfl
@[simp] theorem timeless_mem : (timeless f s).mem = (f s).mem := rfl
@[simp] theorem calm_pending : (calm f s).pending = s.pending := rfl
@[simp] theorem calm_clk : (calm f s).clk = s.clk := rfl
@[simp] theorem calm_run : (calm f s).run = s.run := rfl
@[simp] theorem calm_late : (calm f s).late = s.late := rfl
@[simp] theorem calm_wheelPos : (calm f s).wheelPos = s.wheelPos := rfl
@[simp] theorem calm_turns : (calm f s).turns = s.turns := rfl
@[simp] theorem calm_railsLost : (calm f s).railsLost = s.railsLost := rfl
@[simp] theorem calm_mem : (calm f s).mem = s.mem := rfl
@[simp] theorem calm_ups : (calm f s).ups = s.ups := rfl
@[simp] theorem calm_regs : (calm f s).regs = (f s).regs := rfl
@[simp] theorem calm_rg (id : RegId) (i : Nat) : rg (calm f s) id i = rg (f s) id i := rfl
@[simp] theorem calm_rf (id : RegId) (i hi lo : Nat) : rf (calm f s) id i hi lo = rf (f s) id i hi lo := rfl
end

/-- A command of the calm kind leaves every byte of the array. -/
theorem ArrayKept.calm (f : State → State) (s : State) : ArrayKept s (calm f s) := fun _ => rfl

/-! ### What an event can change -/

/-- Events reach the registers, the fault units, the wake note and the safe state's time, nothing else. -/
def EventShape (s t : State) : Prop :=
  ∃ r u w a, t = { s with regs := r, fus := u, wake := w, safeAt := a }

theorem EventShape.refl (s : State) : EventShape s s := ⟨s.regs, s.fus, s.wake, s.safeAt, rfl⟩

theorem EventShape.trans {s t u : State} (h1 : EventShape s t) (h2 : EventShape t u) : EventShape s u := by
  obtain ⟨_, _, _, _, rfl⟩ := h1
  obtain ⟨r, u, w, a, rfl⟩ := h2
  exact ⟨r, u, w, a, rfl⟩

theorem EventShape.setRg (s : State) (id : RegId) (i : Nat) (v : Word) : EventShape s (setRg s id i v) :=
  ⟨_, s.fus, s.wake, s.safeAt, rfl⟩

theorem EventShape.setFu (s : State) (n : Nat) (v : Fu) : EventShape s (s.setFu n v) :=
  ⟨s.regs, _, s.wake, s.safeAt, rfl⟩

theorem EventShape.bump (s : State) (id : RegId) (i hi lo n : Nat) : EventShape s (bump s id i hi lo n) :=
  .setRg _ _ _ _

theorem EventShape.noteNow (s : State) (n b : Nat) : EventShape s (noteNow s n b) := .setFu _ _ _

theorem EventShape.ledgerEnter (s : State) (n : Nat) (info loc det : Word) : EventShape s (ledgerEnter s n info loc det) := by
  have h : EventShape s (if (s.fu n).ledger.length = 8 then Machine.bump s .fuLedgerStat n 31 16 else s) := by
    split
    · exact .bump _ _ _ _ _ _
    · exact .refl s
  unfold Machine.ledgerEnter
  dsimp only
  generalize (if (s.fu n).dataAt = s.clk then (s.fu n).dataN else 0) = k
  split
  · exact h.trans (.setFu _ _ _)
  · split
    · exact .bump _ _ _ _ _ _
    · exact (EventShape.bump _ _ _ _ _ _).trans (.setFu _ _ _)

theorem EventShape.firstOffer (s : State) (n b : Nat) (info loc det : Word) :
    EventShape s (firstOffer s n b info loc det) := by
  unfold Machine.firstOffer
  dsimp only
  split
  · exact .setRg _ _ _ _
  · exact (EventShape.setRg _ _ _ _).trans ((EventShape.setRg _ _ _ _).trans ((EventShape.setRg _ _ _ _).trans
      ((EventShape.setRg _ _ _ _).trans (.setFu _ _ _))))

theorem EventShape.armCurfew (s : State) (n b : Nat) (forced : Bool) : EventShape s (armCurfew s n b forced) := by
  unfold Machine.armCurfew
  split
  · dsimp only
    split <;> exact .setFu _ _ _
  · exact .refl s

theorem EventShape.causeSafe (s : State) (cause unit src : Nat) (forced : Bool) (at_ : Nat) :
    EventShape s (causeSafe s cause unit src forced at_) := by
  unfold Machine.causeSafe
  split
  · exact .refl s
  · exact ⟨_, s.fus, s.wake, _, rfl⟩

/-- An event of a fault unit. -/
theorem EventShape.raise (s : State) (n b loc det : Nat) (task : Option Nat) (forced : Bool) :
    EventShape s (raise s n b loc det task forced) := by
  unfold Machine.raise
  split
  · dsimp only
    have h0 : EventShape s (if s.life = .retained then { s with wake := true } else s) := by
      split
      · exact ⟨s.regs, s.fus, _, s.safeAt, rfl⟩
      · exact .refl s
    refine h0.trans ?_
    generalize (if s.life = .retained then { s with wake := true } else s) = s'
    have h1 : EventShape s' (Machine.noteNow (Machine.bump (Machine.setRg s' .fuStat n (setBit (rg s' .fuStat n) b true)) .fuEvents n
        31 0) n b) := (EventShape.setRg _ _ _ _).trans ((EventShape.bump _ _ _ _ _ _).trans (.noteNow _ _ _))
    have h2 : ∀ x, EventShape x (if dataClass n b = true then
        Machine.ledgerEnter x n (eventInfo b forced task) (BitVec.ofNat 32 loc) (BitVec.ofNat 32 det)
        else Machine.firstOffer x n b (eventInfo b forced task) (BitVec.ofNat 32 loc) (BitVec.ofNat 32 det)) := by
      intro x
      split
      · exact .ledgerEnter _ _ _ _ _
      · exact .firstOffer _ _ _ _ _ _
    have h3 := (h1.trans (h2 _)).trans (EventShape.armCurfew _ n b forced)
    split
    · exact h3.trans (.causeSafe _ _ _ _ _ _)
    · exact h3
  · exact .refl s

/-! ### Which registers an event writes -/

theorem RegsKept.ledgerEnter (s : State) (n : Nat) (info loc det : Word) :
    RegsKept [(.fuLedgerStat, n)] s (ledgerEnter s n info loc det) := by
  have h : RegsKept [(.fuLedgerStat, n)] s
      (if (s.fu n).ledger.length = 8 then Machine.bump s .fuLedgerStat n 31 16 else s) := by
    split
    · exact .bump _ _ _ _ _ _
    · exact .refl _ s
  have h2 : ∀ (x : State) (v : Fu), RegsKept [] x (x.setFu n v) := fun x v => .of_regs [] rfl
  unfold Machine.ledgerEnter
  dsimp only
  generalize (if (s.fu n).dataAt = s.clk then (s.fu n).dataN else 0) = k
  split
  · exact h.trans (h2 _ _)
  · split
    · exact .bump _ _ _ _ _ _
    · exact (RegsKept.bump s .fuLedgerStat n 31 16 1).trans (h2 _ _)

theorem RegsKept.firstOffer (s : State) (n b : Nat) (info loc det : Word) :
    RegsKept [(.fuFirst, n), (.fuFirstLoc, n), (.fuFirstDetail, n), (.fuFirstTime, n)] s (firstOffer s n b info loc det) := by
  have h : ∀ (x : State) (v1 v2 v3 v4 : Word) (u : Fu),
      RegsKept [(.fuFirst, n), (.fuFirstLoc, n), (.fuFirstDetail, n), (.fuFirstTime, n)] x
        ((Machine.setRg (Machine.setRg (Machine.setRg (Machine.setRg x .fuFirst n v1) .fuFirstLoc n v2) .fuFirstDetail n v3)
          .fuFirstTime n v4).setFu n u) := by
    intro x v1 v2 v3 v4 u
    have h1 := RegsKept.setRg x .fuFirst n v1
    have h2 := RegsKept.setRg (Machine.setRg x .fuFirst n v1) .fuFirstLoc n v2
    have h3 := RegsKept.setRg (Machine.setRg (Machine.setRg x .fuFirst n v1) .fuFirstLoc n v2) .fuFirstDetail n v3
    have h4 := RegsKept.setRg (Machine.setRg (Machine.setRg (Machine.setRg x .fuFirst n v1) .fuFirstLoc n v2)
      .fuFirstDetail n v3) .fuFirstTime n v4
    exact ((h1.trans h2).trans h3).trans h4
  unfold Machine.firstOffer
  dsimp only
  split
  · exact (RegsKept.setRg s .fuFirst n _).mono (by simp)
  · exact h s _ _ _ _ _

theorem RegsKept.armCurfew (s : State) (n b : Nat) (forced : Bool) : RegsKept [] s (armCurfew s n b forced) := by
  unfold Machine.armCurfew
  split
  · dsimp only
    split <;> exact .of_regs [] rfl
  · exact .refl [] s

theorem RegsKept.causeSafe (s : State) (cause unit src : Nat) (forced : Bool) (at_ : Nat) :
    RegsKept [(.fuSafeInfo, 0), (.fuSafeTime, 0)] s (causeSafe s cause unit src forced at_) := by
  unfold Machine.causeSafe
  split
  · exact .refl _ s
  · exact ((RegsKept.setRg s .fuSafeInfo 0 _).trans (.setRg _ .fuSafeTime 0 _)).trans (.of_regs [] rfl)

/-- What an event adds to STAT stays through the rest of it: the registers written after STAT are others. -/
theorem raise_parts (s : State) (n b loc det : Nat) (task : Option Nat) (forced : Bool) (h : srcListed n b = true) :
    ∃ x, x.regs = (Machine.setRg s .fuStat n (setBit (rg s .fuStat n) b true)).regs ∧
      RegsKept [(.fuEvents, n), (.fuLedgerStat, n), (.fuFirst, n), (.fuFirstLoc, n), (.fuFirstDetail, n),
        (.fuFirstTime, n), (.fuSafeInfo, 0), (.fuSafeTime, 0)] x (raise s n b loc det task forced) := by
  let s' : State := if s.life = .retained then { s with wake := true } else s
  have hr : s'.regs = s.regs := by simp only [s']; split <;> rfl
  refine ⟨Machine.setRg s' .fuStat n (setBit (rg s' .fuStat n) b true), ?_, ?_⟩
  · simp only [Machine.setRg, hr, rg]
  · unfold Machine.raise
    rw [if_pos h]
    dsimp only
    have h1 : RegsKept [(.fuEvents, n)] (Machine.setRg s' .fuStat n (setBit (rg s' .fuStat n) b true))
        (Machine.noteNow (Machine.bump (Machine.setRg s' .fuStat n (setBit (rg s' .fuStat n) b true)) .fuEvents n 31 0) n b) :=
      (RegsKept.bump _ .fuEvents n 31 0 1).trans (.of_regs [] rfl)
    have h2 : ∀ x, RegsKept [(.fuLedgerStat, n), (.fuFirst, n), (.fuFirstLoc, n), (.fuFirstDetail, n), (.fuFirstTime, n)] x
        (if dataClass n b = true then
          Machine.ledgerEnter x n (eventInfo b forced task) (BitVec.ofNat 32 loc) (BitVec.ofNat 32 det)
        else Machine.firstOffer x n b (eventInfo b forced task) (BitVec.ofNat 32 loc) (BitVec.ofNat 32 det)) := by
      intro x
      split
      · exact (RegsKept.ledgerEnter x n _ _ _).mono (by simp)
      · exact (RegsKept.firstOffer x n b _ _ _).mono (by simp)
    have h3 := (h1.trans (h2 _)).trans (RegsKept.armCurfew _ n b forced)
    split
    · exact (h3.trans (RegsKept.causeSafe _ _ _ _ _ _)).mono (by simp)
    · exact h3.mono (by simp)

/-- A listed source's event sets its STAT bit and no other of the unit. -/
theorem raise_stat (s : State) (n b loc det : Nat) (task : Option Nat) (forced : Bool) (h : srcListed n b = true) :
    rg (raise s n b loc det task forced) .fuStat n = setBit (rg s .fuStat n) b true := by
  obtain ⟨x, hx, hk⟩ := raise_parts s n b loc det task forced h
  have hn : n < 1048576 := by simp [srcListed] at h; omega
  rw [hk .fuStat n hn, rg_congr hx, rg_setRg_same]
  intro e he
  simp only [List.mem_cons, List.not_mem_nil, or_false] at he
  rcases he with rfl | rfl | rfl | rfl | rfl | rfl | rfl | rfl <;>
    exact RegId.key_ne (by first | exact hn | decide) hn (.inl (by dsimp only; decide))

/-- The registers an event can write. -/
theorem RegsKept.raise (s : State) (n b loc det : Nat) (task : Option Nat) (forced : Bool) :
    RegsKept [(.fuStat, n), (.fuEvents, n), (.fuLedgerStat, n), (.fuFirst, n), (.fuFirstLoc, n), (.fuFirstDetail, n),
      (.fuFirstTime, n), (.fuSafeInfo, 0), (.fuSafeTime, 0)] s (raise s n b loc det task forced) := by
  by_cases h : srcListed n b = true
  · obtain ⟨x, hx, hk⟩ := raise_parts s n b loc det task forced h
    have h0 : RegsKept [(.fuStat, n)] s x := fun id i hi hn =>
      (rg_congr hx id i).trans (RegsKept.setRg s .fuStat n _ id i hi hn)
    exact h0.trans hk
  · unfold Machine.raise
    rw [if_neg h]
    exact .refl _ s

/-! ### Findings, judgements -/

/-- What a finding reaches: an event's parts and the columns' own. -/
def FindShape (s t : State) : Prop :=
  ∃ r u w a c, t = { s with regs := r, fus := u, wake := w, safeAt := a, cols := c }

theorem FindShape.refl (s : State) : FindShape s s := ⟨s.regs, s.fus, s.wake, s.safeAt, s.cols, rfl⟩

theorem FindShape.trans {s t u : State} (h1 : FindShape s t) (h2 : FindShape t u) : FindShape s u := by
  obtain ⟨_, _, _, _, _, rfl⟩ := h1
  obtain ⟨r, u, w, a, c, rfl⟩ := h2
  exact ⟨r, u, w, a, c, rfl⟩

theorem EventShape.find {s t : State} (h : EventShape s t) : FindShape s t := by
  obtain ⟨r, u, w, a, rfl⟩ := h
  exact ⟨r, u, w, a, s.cols, rfl⟩

theorem FindShape.setCol (s : State) (c : Nat) (v : Col) : FindShape s (s.setCol c v) :=
  ⟨s.regs, s.fus, s.wake, s.safeAt, _, rfl⟩

theorem FindShape.judge (s : State) (c : Nat) (a : Acc) : FindShape s (judge s c a) := by
  unfold Machine.judge
  split
  · exact .refl s
  · dsimp only
    split
    · exact .setCol _ _ _
    · exact ((EventShape.bump _ _ _ _ _ _).trans (.raise _ _ _ _ _ _ _)).find

theorem FindShape.trackRow (s : State) (c : Nat) (a : Acc) (det : Nat) : FindShape s (trackRow s c a det) := by
  unfold Machine.trackRow
  dsimp only
  split
  · split
    · exact (EventShape.setFu _ _ _).find
    · split
      · exact (((EventShape.setFu _ _ _).trans (.bump _ _ _ _ _ _)).trans (.raise _ _ _ _ _ _ _)).find.trans (.judge _ _ _)
      · exact (EventShape.setFu _ _ _).find
  · split
    · exact (EventShape.setFu _ _ _).find
    · exact ((EventShape.bump _ _ _ _ _ _).trans (.setFu _ _ _)).find

/-- What the error correction of one row found. -/
theorem FindShape.found (s : State) (c : Nat) (a : Acc) (r : RowRead) (f : Finder) (task : Option Nat) :
    FindShape s (found s c a r f task) := by
  unfold Machine.found
  dsimp only
  have h1 : ∀ x, FindShape x (if r.ce = 0 then x else Machine.raise
      (Machine.bump x .colTierCeCnt (c * 4 + a.tier) 31 0 (popBits 4 r.ce)) c 0 (storLoc s c a) (r.ce + 16 * f.code) task) := by
    intro x
    split
    · exact .refl x
    · exact ((EventShape.bump _ _ _ _ _ _).trans (.raise _ _ _ _ _ _ _)).find
  have h2 : ∀ x, FindShape x (if r.ue = 0 then x else Machine.raise
      (Machine.bump x .colTierUeCnt (c * 4 + a.tier) 15 0 (popBits 4 r.ue)) c (if f = .drain then 2 else 1) (storLoc s c a)
      (r.ue + 16 * f.code) task) := by
    intro x
    split
    · exact .refl x
    · exact ((EventShape.bump _ _ _ _ _ _).trans (.raise _ _ _ _ _ _ _)).find
  split
  · exact ((h1 s).trans (h2 _)).trans (.trackRow _ _ _ _)
  · exact (h1 s).trans (h2 _)

theorem FindShape.foundAll (c : Nat) (l : List (Acc × Coded)) (f : Finder) (task : Option Nat) :
    ∀ s : State, FindShape s (foundAll s c l f task) := by
  induction l with
  | nil => exact FindShape.refl
  | cons g t ih =>
    intro s
    have e : Machine.foundAll s c (g :: t) f task =
        Machine.foundAll (Machine.found s c g.1 (readRow g.2) f task) c t f task := List.foldl_cons ..
    rw [e]
    exact (FindShape.found s c g.1 (readRow g.2) f task).trans (ih _)

theorem FindShape.mem {s t : State} (h : FindShape s t) : t.mem = s.mem := by
  obtain ⟨_, _, _, _, _, rfl⟩ := h
  rfl

/-- A draining granule keeps the canonical form of the array. -/
theorem wf_drainGran (s : State) (c : Nat) (g : Acc × Coded) (h : Memory.wf s.mem) : Memory.wf (drainGran s c g).mem := by
  have h1 : Memory.wf (found s c g.1 (readRow g.2) .drain).mem := by
    rw [(FindShape.found s c g.1 (readRow g.2) .drain none).mem]
    exact h
  unfold drainGran
  revert h1
  generalize found s c g.1 (readRow g.2) .drain = s1
  intro h1
  exact wf_writePhys _ _ _ h1

/-! ### Queues -/

/-- An entry enters a queue that has room, at its end, and nothing else changes. -/
theorem enqueue_eq {s : State} {c : Nat} {d : Dir} {r : Nat} (e : QEntry) (h : queueRoom s c d r = true) :
    enqueue s c d r e = some (s.setQueue (queueKey c d r)
      (if (s.queue (queueKey c d r)).entries.isEmpty then ⟨[e], e.at_, false⟩
       else { s.queue (queueKey c d r) with entries := (s.queue (queueKey c d r)).entries ++ [e] })) := by
  have : (s.queue (queueKey c d r)).entries.length < 8 := by simpa [queueRoom] using h
  simp [enqueue, this]

theorem enqueue_none {s : State} {c : Nat} {d : Dir} {r : Nat} (e : QEntry) (h : queueRoom s c d r = false) :
    enqueue s c d r e = none := by
  have : ¬(s.queue (queueKey c d r)).entries.length < 8 := by simpa [queueRoom] using h
  simp [enqueue, this]

/-- The entries of the queue entered. -/
theorem enqueue_entries {s t : State} {c : Nat} {d : Dir} {r : Nat} {e : QEntry} (h : enqueue s c d r e = some t) :
    (t.queue (queueKey c d r)).entries = (s.queue (queueKey c d r)).entries ++ [e] ∧
      ∀ k, k ≠ queueKey c d r → t.queue k = s.queue k := by
  by_cases hr : queueRoom s c d r = true
  · rw [enqueue_eq e hr] at h
    injection h with h
    subst h
    refine ⟨?_, fun k hk => ?_⟩
    · rw [queue_setQueue_same]
      split
      · rename_i he; simp [List.isEmpty_iff.1 he]
      · rfl
    · rw [queue_setQueue, if_neg (Ne.symm hk)]
  · rw [enqueue_none e (by simpa using hr)] at h
    cases h

/-- What the head's leaving of a queue and the filtering of queues can change. -/
def QueueShape (s t : State) : Prop := ∃ r a q, t = { s with regs := r, starving := a, queues := q }

theorem QueueShape.refl (s : State) : QueueShape s s := ⟨s.regs, s.starving, s.queues, rfl⟩

theorem QueueShape.trans {s t u : State} (h1 : QueueShape s t) (h2 : QueueShape t u) : QueueShape s u := by
  obtain ⟨_, _, _, rfl⟩ := h1
  obtain ⟨r, a, q, rfl⟩ := h2
  exact ⟨r, a, q, rfl⟩

theorem QueueShape.headLeft (s : State) (k : Nat) : QueueShape s (headLeft s k) := by
  have h : ∀ hi lo, QueueShape s (if rf s .colLotMaxwait (k / 74) hi lo < headWait s (s.queue k) then
      setRf s .colLotMaxwait (k / 74) hi lo (headWait s (s.queue k)) else s) := by
    intro hi lo
    split
    · exact ⟨_, s.starving, s.queues, rfl⟩
    · exact .refl s
  have h2 : ∀ (x : State) (w : Nat), QueueShape x (if x.starving = some k then
      { setRf x .lotStarveLast 0 31 16 w with starving := none } else x) := by
    intro x w
    split
    · exact ⟨_, none, x.queues, rfl⟩
    · exact .refl x
  unfold Machine.headLeft
  dsimp only
  generalize headWait s (s.queue k) = w at h ⊢
  split
  all_goals exact (h _ _).trans (h2 _ _)

theorem QueueShape.filterQueue (s : State) (k : Nat) (keep : QEntry → Bool) : QueueShape s (filterQueue s k keep) := by
  unfold Machine.filterQueue
  dsimp only
  split
  · exact ⟨s.regs, s.starving, _, rfl⟩
  · exact (QueueShape.headLeft s k).trans ⟨_, _, _, rfl⟩

theorem QueueShape.filterQueues (s : State) (keep : Nat → QEntry → Bool) : QueueShape s (filterQueues s keep) := by
  unfold Machine.filterQueues
  generalize s.queues.map Prod.fst = l
  induction l generalizing s with
  | nil => exact .refl s
  | cons k t ih => exact (QueueShape.filterQueue s k (keep k)).trans (ih _)

/-! ### Coded memories of words -/

theorem popBits_zero (n : Nat) : popBits n 0 = 0 := by
  induction n with
  | zero => rfl
  | succ n ih => simp [popBits, ih]

/-- A word without a flip reads as it is. -/
theorem readWord_clean (d : BitVec 128) : readWord d 0 = ⟨d, false, false⟩ := by
  have : popBits 136 (0 : BitVec 136).toNat = 0 := popBits_zero 136
  unfold readWord
  rw [this]
  rfl

/-- A word written reads the word written, with no error; every other word reads as before. -/
theorem loadWord_storeWord (s : State) (k : Store) (i j : Nat) (v : Word) (hk : k ≠ .bell) (hc : k ≠ .credit) :
    loadWord (storeWord s k i v) k j = if i = j then ⟨v, false, false⟩ else loadWord s k j := by
  have hs : k.site i = k.site j ↔ i = j := by simp only [Store.site]; omega
  have hu : (storeWord s k i v).upsOther = Tab.set (fun _ => 0) s.upsOther (k.site i) 0 := by
    cases k <;> rfl
  have hw : (storeWord s k i v).words k = Tab.set (fun _ => 0) (s.words k) i v := by
    cases k <;> first | rfl | exact absurd rfl hk | exact absurd rfl hc
  have h1 : readWord (v.setWidth 128) 0 = ⟨v.setWidth 128, false, false⟩ := readWord_clean _
  unfold loadWord
  rw [hu, hw, Tab.get_set, Tab.get_set]
  by_cases h : i = j
  · rw [if_pos h, if_pos (hs.2 h), if_pos h, h1]
    simp
  · rw [if_neg h, if_neg (fun e => h (hs.1 e)), if_neg h]

/-! ### Aborts -/

/-- A fault of a run reaches the list of aborts, and the record of an abort that has taken effect. -/
theorem faultTask_shape (s : State) (task agent start off cause detail addr space : Nat) :
    ∃ r l, faultTask s task agent start off cause detail addr space = { s with regs := r, aborts := l } := by
  unfold faultTask
  split
  · rename_i b _
    cases h : b.recNo with
    | none => exact ⟨s.regs, _, rfl⟩
    | some i => exact ⟨_, _, rfl⟩
  · exact ⟨s.regs, _, rfl⟩

/-- The only register a further fault writes is INFO of the task's record. -/
theorem RegsKept.faultTask (s : State) (task agent start off cause detail addr space : Nat) (i : Nat)
    (hi : ∀ b ∈ s.aborts, b.task = task → ∀ j, b.recNo = some j → j = i) :
    RegsKept [(.tabtRecInfo, i)] s (faultTask s task agent start off cause detail addr space) := by
  unfold Machine.faultTask
  split
  · rename_i b hb
    have h1 := List.find?_some hb
    simp only [beq_iff_eq] at h1
    have h2 := hi b (List.mem_of_find?_eq_some hb) h1
    cases h : b.recNo with
    | none => exact .of_regs _ rfl
    | some j =>
      obtain rfl := h2 j h
      exact (RegsKept.setRf s .tabtRecInfo j 2 2 1).trans (.of_regs [] rfl)
  · exact .of_regs _ rfl

/-- After it the task has an abort under way. -/
theorem aborting_faultTask (s : State) (task agent start off cause detail addr space : Nat) :
    aborting (faultTask s task agent start off cause detail addr space) task = true := by
  unfold faultTask
  split
  · rename_i b hb
    have h1 := List.find?_some hb
    have h2 := List.mem_of_find?_eq_some hb
    simp only [beq_iff_eq] at h1
    have h3 : ∀ r, b ∈ ({ s with regs := r } : State).aborts := fun _ => h2
    simp only [aborting, List.any_map, List.any_eq_true, Function.comp]
    cases b.recNo with
    | none => exact ⟨b, h2, by simp only [h1, if_true]; split <;> simp⟩
    | some i => exact ⟨b, h3 _, by simp only [h1, if_true]; split <;> simp⟩
  · simp [aborting]

/-! ### Accesses -/

/-- An answer reaches the list of answers and, on an error to a management processor, MGMT.ERR. -/
theorem answerWith_answers (s : State) (w : Who) (v : Word) (err : Bool) :
    (answerWith s w v err).answers = s.answers ++ [⟨w, v, err, s.clk, 0, false, false⟩] := by
  unfold answerWith
  dsimp only
  split <;> rfl

theorem answerWith_shape (s : State) (w : Who) (v : Word) (err : Bool) :
    ∃ r a, answerWith s w v err = { s with regs := r, answers := a } := by
  unfold answerWith
  dsimp only
  split
  · exact ⟨_, _, rfl⟩
  · exact ⟨s.regs, _, rfl⟩

/-- An answer without an error, or to the Steward, writes no register. -/
theorem answerWith_ok (s : State) (w : Who) (v : Word) (err : Bool) (h : err = false ∨ w.steward = true) :
    answerWith s w v err = { s with answers := s.answers ++ [⟨w, v, err, s.clk, 0, false, false⟩] } := by
  unfold answerWith
  rcases h with h | h <;> simp [h]

/-- An answer at an error counts in MGMT.ERR only. -/
theorem RegsKept.answerWith (s : State) (w : Who) (v : Word) (err : Bool) :
    RegsKept [(.mgmtErr, 0)] s (answerWith s w v err) := by
  unfold Machine.answerWith
  dsimp only
  split
  · exact (RegsKept.bump s .mgmtErr 0 15 0 1).trans (.of_regs [] rfl)
  · exact .of_regs _ rfl

/-- An answer given at acceptance is stamped with the completion edge of its page and its subordinate. -/
theorem timed_answers (off sub : Nat) (write : Bool) (f : State → State) (s : State) :
    (timed off sub write f s).answers = s.answers ++ (f { s with answers := [] }).answers.map fun a =>
      { a with due := s.clk + answerTime off, sub := sub, write := write } := rfl

theorem routed_full {s : State} {w : Who} (h : FullView w) (id : RegId) (i : Nat) (write : Bool) (v : Word) :
    routed s w (some (id, i)) write v = some (id, i) := by
  rcases h with h | ⟨h1, h2, h3⟩
  · simp [routed, h]
  · have : ¬18 ≤ w.proc := by omega
    simp [routed, h2, h3, this]

/-- Which accesses go to the Strongbox past the matrix: the Steward's, of its words. -/
theorem stewardBox_other {w : Who} {id : RegId} {i : Nat} (h : w.steward = false ∨ id ∉ [.sboxData, .sboxSet, .sboxClr]) :
    stewardBox w (some (id, i)) = false := by
  unfold stewardBox
  rcases h with h | h
  · simp [h]
  · simp only [Bool.and_eq_false_iff, decide_eq_false_iff_not]
    exact .inr h

/-- An accepted access in full view of a running block reaches its register. -/
theorem access_running {s : State} {w : Who} (hs : Running s) (hw : FullView w) (hg : Granted s w) (id : RegId) (i off : Nat)
    (write : Bool) (v : Word) (f : RegId → Nat → State → State) (hb : stewardBox w (some (id, i)) = false) :
    access s w (some (id, i)) off write v f = timed off (pageNo off) write (f id i) { s with gate := s.clk + 1 } := by
  have hl := hs.2
  unfold access
  simp only [subOf, routed_full hw, Option.isSome_some, if_true, hl, hg _, hb]
  unfold timed
  simp only [reached, routed_full hw]
  simp [asleepPage]

/-- An accepted access of no register in a running block reaches the default target. -/
theorem access_default {s : State} {w : Who} (hs : Running s) (hg : Granted s w) (off : Nat) (write : Bool) (v : Word)
    (f : RegId → Nat → State → State) :
    access s w none off write v f =
      timed off 128 write (fun s => defaultAnswer s w off write) { s with gate := s.clk + 1 } := by
  have hl := hs.2
  unfold access
  simp only [subOf, routed, Option.isSome_none, hl, hg _, stewardBox]
  unfold timed
  simp [reached, routed, asleepPage]

/-- An access the matrix does not accept changes nothing but the grant. -/
theorem access_waits {s : State} {w : Who} {r : Option (RegId × Nat)} {off : Nat} {write : Bool} {v : Word}
    (f : RegId → Nat → State → State) (h : granted s w (subOf s w r off write v) = false) (hb : stewardBox w r = false) :
    ∃ p g n, access s w r off write v f = { s with parked := p, gate := g, turn := n } := by
  unfold access
  dsimp only
  split
  · exact ⟨s.parked, s.gate, s.turn, rfl⟩
  · rw [h, hb]
    simp only [Bool.not_false, if_true, Bool.false_eq_true, if_false]
    unfold present
    split
    · exact ⟨_, _, _, rfl⟩
    · exact ⟨s.parked, s.gate, s.turn, rfl⟩

/-- A write of a register of a running block, in full view. -/
theorem ctlWrite_running {s : State} {w : Who} (hs : Running s) (hw : FullView w) (hg : Granted s w) {id : RegId} {i : Nat}
    (hi : i < id.size) (v : Word) (hb : w.steward = false ∨ id ∉ [.sboxData, .sboxSet, .sboxClr]) :
    ctlWrite w id i v s =
      timed (id.offset i) (pageNo (id.offset i)) true (writeReg w id i v) { s with gate := s.clk + 1 } := by
  unfold ctlWrite
  rw [regIf, if_pos hi, access_running hs hw hg _ _ _ _ _ _ (stewardBox_other hb)]

/-- A read of a register of a running block, in full view. -/
theorem ctlRead_running {s : State} {w : Who} (hs : Running s) (hw : FullView w) (hg : Granted s w) {id : RegId} {i : Nat}
    (hi : i < id.size) (hb : w.steward = false ∨ id ∉ [.sboxData, .sboxSet, .sboxClr]) :
    ctlRead w id i s = timed (id.offset i) (pageNo (id.offset i)) false (readReg w id i) { s with gate := s.clk + 1 } := by
  unfold ctlRead
  rw [regIf, if_pos hi, access_running hs hw hg _ _ _ _ _ _ (stewardBox_other hb)]

/-- An access of one whole word by address is an access of that word. -/
theorem addrWrite_word (w : Who) (addr : Nat) (v : Word) (s : State) (f : AxiForm) (l : List MgmtBeat)
    (hf : refusedForm f = false) (hl : ((List.range l.length).zip l).map (fun e => beatWrites f addr l.length e.1 e.2) = [[(addr, v)]]) :
    addrWrite w addr f l s = wordWrite w addr v s := by
  unfold addrWrite
  simp only [hl, hf]
  rfl

/-- When the matrix is free of earlier work the parked manager's accesses are accepted at an MCLK edge. -/
theorem granted_of_free {s : State} {w : Who} (h1 : mclkEdge s = true) (h2 : s.gate ≤ s.clk) (h3 : s.parked = w.steward)
    (h4 : s.answers = []) (h5 : s.pmapHeld = []) (h6 : s.tkHeld = []) (h7 : s.bellOps = []) (h8 : s.sboxWait = [])
    (h9 : s.sboxAns = []) : Granted s w := fun sub => by
  simp [granted, idWaits, portFull, openAccesses, boxTaken, h1, h2, h3, h4, h5, h6, h7, h8, h9]

end Sys2Proof.Machine
end

