-- ==== Sys2Proof/Tests/Slice0.lean ====
section
/-! SUPPORT. Tests: ill-formed commands are refused, one small state for each statement with hypotheses that meets all of
them together (clause by clause), and one-step results the spec gives. -/

namespace Sys2Proof.Machine.Tests

-- One theorem at a time: the kernel evaluates each of them in full.
set_option Elab.async false

/-! ### Ill-formed commands -/

/-- A management processor in the privileged view. -/
def mp : Who := ⟨0, true, true, false, false⟩

/-- No processor has this number. -/
def nobody : Who := ⟨32, true, true, false, false⟩

/-- A header of a type, from link 3, for window 5, with sequence number 7. -/
def hdr (ty : Nat) : Header := ⟨ty, 3, 5, 0, 0, 0, 0, 7, 0, 0⟩

def illFormed1 : List Instr :=
  [.lowWordRead nobody ⟨0, plainForm, 1⟩, .lowWordRead mp ⟨2, plainForm, 1⟩, .lowWordRead mp ⟨0x1000000, plainForm, 1⟩,
   .lowWordRead mp ⟨0, plainForm, 0⟩, .lowWordRead mp ⟨0, plainForm, 17⟩, .lowWordRead ⟨0, true, true, true, true⟩ ⟨0, plainForm, 2⟩,
   .lowWordRead mp ⟨0, { plainForm with kind := .wrap }, 3⟩, .registerWrite mp ⟨0x1000000, plainForm⟩ [wordBeat 0 0],
   .registerWrite mp ⟨0, plainForm⟩ [],
   .defaultTarget mp 0x1000000 false, .slotReadRequest 32 [] 0 true, .slotReadRequest 0 [] 8 true,
   .slotReadRequest 16 [⟨true, 0, 1, false, []⟩, ⟨true, 0, 1, false, []⟩] 0 true,
   .slotReadRequest 0 [⟨true, 2 ^ 24, 1, false, []⟩] 0 true, .slotReadRequest 0 [⟨true, 0, 9, false, []⟩] 0 true,
   .slotWriteRequest 0 [⟨true, 0, 0, false, []⟩] 0 false true, .slotWriteRequest 0 [⟨true, 0, 1, false, [0]⟩] 0 false true,
   .slotWriteRequest 0 [] 8 false true, .readDelivery 32, .writeResponse 32, .stripeCommit 64, .deferralDrain 0 4,
   .skipCtrlWrite nobody 0, .wheelSwGo nobody, .confClr mp 69, .confClrAll nobody, .lotteryDraw 64 .rd, .longRoadGrant 64 .wr,
   .openLaneIssue 64 .rd, .starvationFlag 0 .rd 37, .narrowWriteMerge 64, .scalarRequest 16 ⟨false, 0, 8, 0, 0⟩,
   .scalarRequest 0 ⟨false, 0, 3, 0, 0⟩, .scalarRequest 0 ⟨false, 0, 8, 16, 0⟩, .scalarRequest 0 ⟨false, 2 ^ 30, 8, 0, 0⟩,
   .scalarResponse 16, .portDisable mp 0 1, .portEnable mp 0 0, .axiReadData 16 0 .okay [0, 0] true,
   .axiReadData 0 0 .okay [0] true, .axiWriteResponse 0 1024 .okay]

def illFormed2 : List Instr :=
  [.inboundWrite 0 (hdr 2), .inboundWrite 4 (hdr 1), .inboundFlit 0 [0, 0, 0, 0, 0], .malformedHeader 0 (hdr 16), .strayFlit 4,
   .creditReturn 0 65536 0, .outboundPacketSend 4, .ack 0 (hdr 1), .nack 0 (hdr 1), .openReq 0 (hdr 1), .openRsp 0 (hdr 1),
   .closeReq 0 (hdr 1), .closeRsp 0 (hdr 1), .portGroupReset 16, .pgRstCmd mp 16, .porterReset 16, .ppRstCmd mp 16,
   .linkPortReset 4, .lpRstCmd mp 4, .resetComplete (.pg 16), .reclaimTimeout 16, .resetLineRelease (.lk 4),
   .satchelRead 32 [] 0, .satchelRead 16 [(true, 256)] 0, .satchelRead 0 [(true, 1024)] 0, .satchelStallEnd 32,
   .satchelStallLimit 32, .swapCommand 32, .exchange 32, .swapModeWrite mp 32 0, .stallClr mp 0 7, .stallClrAll mp 32,
   .fsLaunch mp 0 16384 0, .fsLaunch mp 0 0 1024, .fillIssue 32, .fillLand 32, .caravanHop 32, .escapeRetry 32]

def illFormed3 : List Instr :=
  [.itineraryFetch 288, .end_ 0 0 0x10000000, .end_ 0 2 0, .setaLo 0 0 0, .setaHi 0 0 0, .setaTop 0 0 0, .adda 0 0 0,
   .moda 0 0 0, .loop 0 0 0, .endl 0 0 0, .test 0 0 0, .move 0 0 0, .pieceGenerate 288 0, .wait 0 0 0, .ring 0 0 0,
   .fence 0 0 0, .fenceComplete 0 2, .swap 0 0 0, .fmt 0 0 0, .taly 0 0 0, .hand 0 0 0, .cpya 0 0 0, .runEnd 288 0,
   .pieceReadHalf 16, .pieceReadComplete 288 0, .pieceWriteHalf 16, .tallyExportRead 31 0, .splitWrite mp 16 0,
   .arm mp 0 16, .crdret mp 0 0 4096, .fchSelWrite nobody 0, .farHoldLimit 64, .taskAbort 1024, .abortDone 1024,
   .softwareAbort mp 1024, .abortRecordClear mp 8]

def illFormed4 : List Instr :=
  [.pmapSwap mp 64, .pmapCopy mp 64, .pmapClear mp 64, .pmapOpReserved mp 64, .inactWrite mp 0 4096 0,
   .epochWaitLimit 288 0, .srSeedWrite mp 32 0, .changerCntClr mp 32, .tallyRecordWrite 32, .tallyRead 16 false 0,
   .tallyRead 0 false 1024, .tallyCntClr mp 32, .bellRing mp 1024 false 0 1, .bellTake mp 0 false 4 1,
   .bellInit mp 0 false 65536, .tkresRead mp 18, .sboxDataWrite mp 16384 0, .sboxSet mp 16384 0, .sboxClr mp 16384 0,
   .acq mp 1024, .rel mp 1024, .break_ mp 1024, .peek mp 1024, .reap mp 32, .mpReset 2, .keyWrite mp 8 0, .keyLock nobody,
   .lcStateChange 16, .windowEntryWrite mp 4096 .cfg 0, .open_ mp 4096, .close mp 4096, .forceClose mp 4096,
   .winOpReserved mp 4096, .openReqRepeat 4096, .openLimit 4096, .ackTimeout 0 0 24, .levelRise 8, .levelDecay 8,
   .rsvWrite mp 8 0, .trackerExpire 64]

def illFormed5 : List Instr :=
  [.force mp 85 0, .fuStatClear mp 85 0, .firstClear mp 85, .firstOvfClear mp 85, .ledgerClr mp 85, .ledgerCaptureRead mp 0 8,
   .curfewExpiry 85, .escalation 85, .quarantineComplete 64, .errHoldWrite nobody true, .quietPeriod 85, .selfPar 85,
   .safeCmd nobody, .claim mp 18, .eoi mp 0 512, .sgi mp 32 0, .sgi mp 0 8, .setpend mp 16 0, .clrpend mp 16 0,
   .srcCfgWrite mp 512 0, .targetSleep 18 true, .load nobody, .partial_ nobody, .cancel nobody, .cfgOpReserved nobody,
   .loadWord nobody 0, .seal nobody, .regionWrite mp 64 0 0, .regionWrite mp 0 7 0, .scrubCtrlWrite mp 64 0,
   .scrubRequest 64, .scrubReadResult 64, .rowRemapRequest mp 0 0 32 0, .rowRemapRequest mp 0 0 0 2048,
   .bankRetirementRequest mp 0 4 0, .remapKindReserved mp 64, .remapStart 64, .copyRowMerged 64, .remapSwitch 64,
   .domainTargetWrite mp 301 0, .domainTransitionDone 301, .retain nobody, .wake nobody, .pwrOpReserved nobody,
   .thermalSample [0], .parityError (.column 64), .parityError (.crossbar 64)]

theorem test_ill_formed_1 : (illFormed1.all fun c => !c.wellFormed) = true := by decide +kernel
theorem test_ill_formed_2 : (illFormed2.all fun c => !c.wellFormed) = true := by decide +kernel
theorem test_ill_formed_3 : (illFormed3.all fun c => !c.wellFormed) = true := by decide +kernel
theorem test_ill_formed_4 : (illFormed4.all fun c => !c.wellFormed) = true := by decide +kernel
theorem test_ill_formed_5 : (illFormed5.all fun c => !c.wellFormed) = true := by decide +kernel

/-- Commands at the top of their ranges are well-formed. -/
theorem test_well_formed : ([.slotReadRequest 31 [⟨true, 2 ^ 24 - 1, 8, true, []⟩] 7 false, .confClr mp 68,
    .starvationFlag 63 .wr 36, .fsLaunch mp 31 16383 1023, .end_ 287 1 0x0FFFFFFF, .regionWrite mp 63 6 0,
    .lowWordRead mp ⟨0xFFFFFC, plainForm, 1⟩, .registerWrite mp ⟨8, { plainForm with wide := true }⟩ [⟨0, 0xFF⟩],
    .loadWord ⟨31, false, false, false, true⟩ 5, .acq mp 1023, .thermalSample []].all Instr.wellFormed) = true := by
  decide +kernel

/-! ### Small states -/

/-- A running block at an MCLK, TCLK and ACLK edge. -/
def up : State := { State.reset with life := .ready, clk := 480000, run := 480000, late := true }

/-- The matrix has nothing under way. -/
def free (s : State) (w : Who) : Bool :=
  mclkEdge s && decide (s.gate ≤ s.clk) && (s.parked == w.steward) && s.answers.isEmpty && s.pmapHeld.isEmpty &&
  s.tkHeld.isEmpty && s.bellOps.isEmpty && s.sboxWait.isEmpty && s.sboxAns.isEmpty

theorem granted_free {s : State} {w : Who} (h : free s w = true) : Granted s w := by
  simp only [free, Bool.and_eq_true, decide_eq_true_eq, beq_iff_eq, List.isEmpty_iff] at h
  obtain ⟨⟨⟨⟨⟨⟨⟨⟨h1, h2⟩, h3⟩, h4⟩, h5⟩, h6⟩, h7⟩, h8⟩, h9⟩ := h
  exact granted_of_free h1 h2 h3 h4 h5 h6 h7 h8 h9

/-- A running block that takes every access of `mp` at this edge. -/
def ready (s : State) : Bool := !s.railsLost && decide (s.life = .ready) && free s mp

theorem ready_meets {s : State} (h : ready s = true) : Running s ∧ FullView mp ∧ Granted s mp := by
  simp only [ready, Bool.and_eq_true, Bool.not_eq_true', decide_eq_true_eq] at h
  exact ⟨⟨h.1.1, h.1.2⟩, by decide, granted_free h.2⟩

/-- Region 0: the whole of P-space from 0, pooled over 64 columns, every class allowed. -/
def pooled (s : State) : State :=
  setRg (setRg (setRg (setRg (setRg s .regionCtrl 0 0x63) .regionRows 0 0x04000000) .regionColmaskLo 0 0xFFFFFFFF)
    .regionColmaskHi 0 0xFFFFFFFF) .regionPerm 0 0xFF

/-! ### Statements on the whole machine -/

/-- A command waits. -/
def asked (c : Instr) : State := { up with pending := [c, .tamper] }

/-- The rails have left tolerance. -/
def lost : State := { up with railsLost := true }

theorem test_meets_StepRunsFrontCommand :
    (asked (.confClr mp 68)).pending = [.confClr mp 68, .tamper] ∧
    (match exec (.confClr mp 68) up with | .next _ => true | _ => false) = true := by decide +kernel

theorem test_meets_IdleStepIsHalfAnEdge :
    State.reset.pending = [] ∧ State.reset.railsLost = false ∧ State.reset.life ≠ .coldHeld ∧ State.reset.late = false ∧
    up.pending = [] ∧ up.railsLost = false ∧ up.life ≠ .coldHeld ∧ up.late = true ∧
    ({ up with life := .coldHeld } : State).life = .coldHeld := by decide +kernel

theorem test_meets_StepKeepsInvariant :
    Memory.wf ({ up with mem := [⟨0, 5⟩] } : State).mem ∧ up.wheelPos < 64 ∧
    (match step { up with mem := [⟨0, 5⟩], pending := [.stripeCommit 0] } with | .next _ => true | _ => false) = true := by decide +kernel

theorem test_meets_CommandsAnswerWithinTolerance :
    up.railsLost = false ∧ lost.railsLost = true ∧ lost.life ≠ .warmHeld ∧ Instr.tamper ≠ .coldReset ∧
    Instr.tamper ≠ .coldResetRelease ∧ Instr.tamper ≠ .railLeavesTolerance := by decide +kernel

/-- A command that neither writes the array nor moves time: the frame statements cover it. -/
theorem test_meets_OnlyWritersChangeTheArray :
    (match exec (.confClr mp 68) up with | .next _ => true | _ => false) = true ∧
    (∀ n, Instr.confClr mp 68 ≠ .stripeCommit n) ∧ (∀ n m, Instr.confClr mp 68 ≠ .deferralDrain n m) ∧
    (∀ d, Instr.confClr mp 68 ≠ .domainTransitionDone d) :=
  ⟨by decide +kernel, fun _ => nofun, fun _ _ => nofun, fun _ => nofun⟩

theorem test_meets_CommandsMoveNoTime :
    (match exec .interruptSelect up with | .next _ => true | _ => false) = true ∧ Instr.interruptSelect ≠ .warmReset := by
  decide +kernel

theorem test_meets_AddressMapIsExact :
    16383 < RegId.sboxData.size ∧ regAt (RegId.sboxData.offset 16383) = some (.sboxData, 16383) := by decide +kernel

/-! ### Statements on register accesses -/

def tstampAddr : Nat := 0x800000 + RegId.fuTstampLo.offset 0

/-- A FIXED burst and an atomic transaction (R168). -/
def noForms : List AxiForm := [{ plainForm with kind := .fixed }, { plainForm with atomic := true }]

theorem test_meets_LowWordReadCaptures :
    ready up = true ∧ Who.at_ mp tstampAddr = mp ∧ regAddr tstampAddr = some (.fuTstampLo, 0) ∧
      RegId.fuTstampLo.high = some .fuTstampHi ∧ refusedForm plainForm = false ∧ plainForm.wide = false ∧
      noForms.all refusedForm = true := by decide +kernel

/-- The Steward, and a running block in which the matrix stands at the Steward. -/
def stw : Who := ⟨0, true, true, true, true⟩
def parkedUp : State := { up with parked := true }

/-- A running block with a load applying: it refuses to start work. -/
def applying0 : State := setRg up .cfgStat 0 0x40

theorem test_meets_WritesAndDefaultTarget :
    (ready up = true ∧ Who.at_ mp (0x800000 + RegId.thmThr.offset 0) = mp ∧ refusedForm plainForm = false ∧ mp.steward = false ∧
      (∀ id ∈ [RegId.lotTicket, .thmThr, .cmUvTask, .cmUvBells], regAddr (0x800000 + id.offset 0) = some (id, 0)) ∧
      regAddr 0x1000000 = none ∧ regAddr 0xAA0040 = none) ∧
    (ready applying0 = true ∧ writeRefused applying0 .fsLaunch = true ∧
      regAddr (0x800000 + RegId.fsLaunch.offset 31) = some (.fsLaunch, 31)) ∧
    (let a := 0x800000 + RegId.lotTicket.offset 0
     a % 8 = 0 ∧ regAddr a = some (.lotTicket, 0) ∧ regAddr (a + 4) = some (.lotTicket, 1)) ∧
    (noForms.all refusedForm = true ∧ (⟨0, 0x1F⟩ : MgmtBeat).strb ∉ [0xFF, 0x0F, 0xF0]) ∧
    (Running parkedUp ∧ free parkedUp stw = true ∧ stw.steward = true ∧
      ∀ id ∈ [RegId.sboxData, .sboxSet, .sboxClr], ∀ i ∈ [0, 4095, 4096, 5119, 5120, 16383],
        regAddr (0x800000 + id.offset i) = some (id, i)) ∧
    (routed up mp (regAddr 0xAA0040) true 0 = none ∧
      (routed up mp (regAddr (0x800000 + RegId.thmThr.offset 0)) true 0).isSome = true) := by decide +kernel

/-! ### Statements on slot ports -/

/-- Matrix port 0 owns column 0's lane at the slots of a half A request at position 0, column 1's at those of a half B. -/
def slots : State :=
  { pooled up with wheels := [(3, 0x10), (5, 0x100000), (64 + 4, 0x10), (64 + 6, 0x100000)] }

/-- A stripe of column 0 on half A, one granule of column 1 on half B. -/
def asks : List Desc := [⟨true, 0, 8, false, List.replicate 8 1⟩, ⟨true, 9, 1, true, List.replicate 8 2⟩]

theorem test_meets_SlotReadTakesLanes :
    Within slots ∧ slotReady slots 0 = true ∧ sampling slots = true ∧
      readFailed slots 0 (openBatch (slots.rdDir 0)) = false ∧ (prof slots 0 0).reserved = false ∧
      (prof slots 0 0).rdMode = 0 ∧
      (∀ e ∈ descChecks slots 0 .rd (prof slots 0 0).packed [] (asks.take 4), e.2.st = 0) := by decide +kernel

theorem test_meets_SlotWriteTakesLanes :
    Within slots ∧ slotReady slots 0 = true ∧ sampling slots = true ∧
      (∀ f ∈ (slots.wrDir 0).failed, f.1 ≠ (openBatch (slots.wrDir 0)).batch) ∧ (slots.wrDir 0).isOpen = false ∧
      (prof slots 0 0).sr = false ∧ writePlan (tallyBatch slots 0).1 0 0 (asks.take 2) ≠ .fail ∧
      (∀ e ∈ descChecks (tallyBatch slots 0).1 0 .wr (prof slots 0 0).packed [] (asks.take 2), e.2.st = 0) := by decide +kernel

/-- A request of port 0 due at this edge, its stripe captured, and a write due. -/
def answering : State :=
  { slots with
    rdLanes := [⟨0, .slot 0 0 0, 0, [⟨0, 0, 0⟩], 479991, 480000, some [fresh 7], [], false⟩]
    slotRd := [(0, ⟨1, false, 1, [⟨0, 1, 479984, 480000, 0, [⟨true, 0, 0, [0], 0, 0⟩], true, none⟩], []⟩)]
    slotWr := [(0, ⟨1, false, 1, [⟨0, 1, 479990, 480000, 0, [⟨true, 0, 0, [0], 0, 0⟩], true, none⟩], []⟩)] }

theorem test_meets_SlotPortsAnswerTheOldestRequest :
    Within answering ∧
      ((answering.rdDir 0).beats.find? (fun b => decide (b.due ≤ answering.run))).isSome = true ∧
      ((answering.wrDir 0).beats.find? (fun b => decide (b.due ≤ answering.run))).isSome = true := by decide +kernel

/-- A response time has come and the delivered status is 0. -/
theorem test_read_delivers : (match exec (.readDelivery 0) answering with
    | .next t => (Tab.get (fun _ => ⟨0, [], [], []⟩) t.slotRdOut 0).st == [0] && (t.rdDir 0).beats.isEmpty
    | _ => false) = true := by decide +kernel

theorem test_meets_PortEnablesAreStored : ready up = true ∧ (15 : Nat) < 16 := by decide +kernel

/-! ### Statements on skips, wheels and conflict counters -/

/-- The throttle level in force asks for a skip at the next ACLK cycle. -/
def hot : State := { up with levelNext := 3 }

/-- An announced skip begins at this edge; another one ends here. -/
def skipping : State := { up with skipNext := some 480000 }
def skippingOn : State := { skipping with heldFrom := 479999, heldTo := 480000 }

theorem test_meets_SkipsAreAnnouncedAndHeld :
    (Within hot ∧ thermalDue hot = true ∧ doneNow hot lastSkip = false ∧ thermalDue (setLast hot lastSkip) = true ∧
      doneNow (setLast hot lastSkip) lastSkip = true) ∧
      (Within skipping ∧ skipping.skipNext = some 480000 ∧ 480000 ≤ skipping.clk ∧ aclkEdge skipping = true) ∧
      (skippingOn.skipNext = some 480000 ∧ skippingOn.heldTo = skippingOn.clk) ∧ ready up = true := by decide +kernel

/-- An exchange asked for before the advance to position 0. -/
def exchanging : State := { up with wheelPend := true, wheelReq := 479000 }

theorem test_meets_WheelSetsExchange :
    ready up = true ∧ ready { up with sealed_ := true } = true ∧
      (Within exchanging ∧ exchanging.wheelPend = true ∧ exchanging.wheelPos = 0 ∧ exchanging.wheelReq < exchanging.run) := by
  decide +kernel

theorem test_meets_ConflictCountersClear :
    ready (setRg up .xbarConfRdLo 68 5) = true ∧ (68 : Nat) < 69 := by decide +kernel

/-! ### Statements on the array -/

/-- A lane of port 0 with two granules of column 0 whose bank stage is this edge. -/
def lane : WrLane := ⟨0, .slot 0 0 0, 0, [⟨0, 0, 5⟩, ⟨0, 1, 5⟩], [fresh 1, fresh 2], 480000, none⟩
def committing : State := { up with wrLanes := [lane] }

/-- The same slot reads another row of bank 0. -/
def meeting : State :=
  { committing with rdLanes := [⟨0, .slot 1 0 0, 1, [⟨0, 0, 6⟩], 480000, 480009, none, [], false⟩] }

/-- A copy of the row of the lane's first granule runs, to spare row 15 of its bank. -/
def copyingRow : State := { committing with cols := [(0, { idleCol with copy := some ⟨false, 0, 0, 5, 15, 1, false, .readQueued⟩ })] }

/-- An entry deferred one edge ago; its banks are free. -/
def entry : DeferEntry := ⟨0, [(⟨0, 0, 5⟩, fresh 1), (⟨0, 31, 2047⟩, fresh 2)], 479999⟩
def draining : State := { up with cols := [(0, { idleCol with defer := [entry] })] }

theorem test_meets_CommitWritesItsRows :
    Within committing ∧ Memory.wf committing.mem ∧
      committing.wrLanes.find? (fun w => decide (w.col = 0 ∧ w.bank ≤ committing.run)) = some lane ∧
      stewardUse lane.use = false ∧ laneVoid committing lane = false ∧
      (committing.rdLanes.any fun l => decide (l.col = lane.col ∧ l.bank = lane.bank) &&
        clashes committing lane.col lane.accs l.accs) = false ∧
      (∀ s ∈ [committing, copyingRow], (∀ g ∈ laneGrans s lane, deferred s lane.col g.1 = none) ∧
        ((laneGrans s lane).map fun g => physOf s lane.col g.1).Nodup) ∧
      copyDest copyingRow lane.col ⟨0, 0, 5⟩ = some ⟨0, 64, 2063⟩ := by decide +kernel

theorem test_meets_DeferralKeepsTheArray :
    Within meeting ∧ meeting.wrLanes.find? (fun w => decide (w.col = 0 ∧ w.bank ≤ meeting.run)) = some lane ∧
      (meeting.rdLanes.any fun l => decide (l.col = lane.col ∧ l.bank = lane.bank) &&
        clashes meeting lane.col lane.accs l.accs) = true ∧
      (meeting.col lane.col).copy = none ∧ (meeting.col lane.col).defer = [] ∧ lane.accs ≠ [] ∧
      lane.use = .slot 0 0 0 := by decide +kernel

theorem test_meets_DrainWritesItsEntry :
    Within draining ∧ Memory.wf draining.mem ∧ drainable draining 0 0 = some entry ∧
      (entry.grans.map fun g => physOf draining 0 g.1).Nodup := by decide +kernel

/-- A commit writes byte 0 of the granule at its physical row; the lane is gone. -/
theorem test_commit_writes : (match exec (.stripeCommit 0) committing with
    | .next t => memByte t (physRow 0 0 0 5 * 64) == 1 && memByte t (physRow 0 0 1 5 * 64) == 2 && t.wrLanes.isEmpty
    | _ => false) = true := by decide +kernel

/-! ### Statements on the lottery -/

/-- Column 63's read lane of the next edge is open (owner code 0) and two porters have entries waiting. -/
def waiting (r : Nat) (at_ : Nat) : Nat × LotQueue :=
  (queueKey 63 .rd r, ⟨[⟨.piece r, [⟨0, 0, 0⟩], [], 0, none, at_, none⟩], at_, false⟩)
def drawing : State :=
  { up with queues := [waiting 0 479000, waiting 36 479001]
            regsB2 := (setRg (setRg up .lotTicket 0 10) .lotTicket 36 1).regs }

/-- Every fourth grant is a long-road grant, and the next is one. -/
def longRoad : State :=
  { drawing with regsB2 := (setRg drawing .lotCtrl 0 4).regs, lots := [(lotKey 63 .rd, ⟨[], some 0, 3⟩)] }

theorem test_meets_DrawsRegisterGrants :
    (Within drawing ∧ drawDue drawing 63 .rd = true ∧ longRoadTurn drawing 63 .rd = false ∧
      candidates drawing 63 .rd = [] ++ (0, 5, 999) :: [(36, 1, 998)] ∧
      fld (Tab.get (fun _ => 1) drawing.lfsrPrev 63) 15 0 * 6 / 65536 < 5) ∧
    (Within longRoad ∧ drawDue longRoad 63 .rd = true ∧ longRoadTurn longRoad 63 .rd = true ∧
      longRoadPick (longRoad.lot (lotKey 63 .rd)).last (candidates longRoad 63 .rd) = some 36) := by decide +kernel

theorem test_meets_WalkPicksATicketHolder :
    65535 < 65536 ∧ 0 < (([(3, 0, 0), (7, 64, 0)] : List (Nat × Nat × Nat)).map fun e => e.2.1).sum := by decide

/-- The granted lane's edge has come; requester 36 has an entry, requester 5 none. -/
def issuing (r : Nat) : State := { drawing with lots := [(lotKey 63 .rd, ⟨[(480000, r)], some r, 1⟩)] }

/-- The same for a write of the Steward's. -/
def issuingWr : State :=
  { up with lots := [(lotKey 0 .wr, ⟨[(480000, 16)], some 16, 1⟩)]
            queues := [(queueKey 0 .wr 16, ⟨[⟨.inbound 0 0, [⟨0, 0, 0⟩], [fresh 3], 0, none, 479000, none⟩], 479000, false⟩)] }

theorem test_meets_GrantsIssueQueueHeads :
    (Within (issuing 36) ∧
      ((issuing 36).lot (lotKey 63 .rd)).grants.find? (fun g => decide (g.1 ≤ (issuing 36).run)) = some (480000, 36) ∧
      (candidate (issuing 36) 63 .rd 36).any (fun e => rowBlocked (issuing 36) 63 .rd 36 e == false) = true ∧
      quarantined (issuing 36) 63 = false ∧ ownerIn (issuing 36) 63 .rd 0 = 0) ∧
    ((issuingWr.lot (lotKey 0 .wr)).grants.find? (fun g => decide (g.1 ≤ issuingWr.run)) = some (480000, 16) ∧
      (candidate issuingWr 0 .wr 16).any (fun e => rowBlocked issuingWr 0 .wr 16 e == false) = true ∧
      quarantined issuingWr 0 = false ∧ ownerIn issuingWr 0 .wr 0 = 0) ∧
    (((issuing 5).lot (lotKey 63 .rd)).grants.find? (fun g => decide (g.1 ≤ (issuing 5).run)) = some (480000, 5) ∧
      candidate (issuing 5) 63 .rd 5 = none) ∧
    ownerIn { issuing 36 with wheels := [(63 * 64, 0x10)] } 63 .rd 0 ≠ 0 := by decide +kernel

/-- The threshold is 999 running edges. -/
def starved : State := setRg drawing .lotStarveThr 0 999

theorem test_meets_StarvationIsFlagged :
    Within starved ∧ starveDue starved (queueKey 63 .rd 0) = true ∧ starveDue starved (queueKey 63 .rd 36) = true := by
  decide +kernel

/-! ### Statements on scalar ports -/

def doubleWord (we : Bool) : ScalarReq := ⟨we, 8, 8, 15, 0x0102030405060708⟩

/-- A narrow write of port 15 whose read half is due in the merge buffer of column 0. -/
def access0 : Scalar := ⟨0, doubleWord true, 0, some 479980, 479980, 0, ⟨0, 0, 0⟩, true, .reading⟩
def halfRead (d : Coded) : RdLane := ⟨0, .scalar 15 0, 47, [⟨0, 0, 0⟩], 479990, 479996, some [d], [], false⟩
def merging (d : Coded) : State :=
  { pooled up with rdLanes := [halfRead d], scalars := [(15, [access0])], nextScalar := 1 }

/-- Word 0 of the row has two flips. -/
def broken : Coded := ⟨9, [(0, 3)]⟩

/-- The response of port 15 is due. -/
def responding : State :=
  { up with scalars := [(15, [{ access0 with stage := .due 479998 0 0 }])], nextScalar := 1 }

theorem test_meets_ScalarRequestsQueueOrRefuse :
    (Within (pooled up) ∧ scalarReady (pooled up) 15 = true ∧ sampling (pooled up) = true ∧ (pooled up).scalar 15 = [] ∧
      (checkNarrow (pooled up) (.scalar 15) true 8 8).st = 0 ∧
      rf (pooled up) .regClassLimit (passClass (fld (rgIn (pooled up).regsA .regPassPg 15) 15 0)) 20 16 = 0 ∧
      queueRoom (pooled up) (checkNarrow (pooled up) (.scalar 15) true 8 8).col .rd (20 + 15) = true) ∧
    (scalarReady (merging (fresh 9)) 15 = true ∧ sampling (merging (fresh 9)) = true ∧
      (∃ x ∈ (merging (fresh 9)).scalar 15, x.req.tag = (doubleWord false).tag)) := by decide +kernel

theorem test_meets_NarrowWritesMerge :
    (Within (merging (fresh 9)) ∧ (merging (fresh 9)).rdLanes.find? (narrowReady (merging (fresh 9)) 0) =
        some (halfRead (fresh 9)) ∧
      ((merging (fresh 9)).scalar 15).find? (fun x => x.id == 0) = some access0 ∧
      queueRoom (merging (fresh 9)) 0 .wr 35 = true ∧ scalarUe access0.req (readRow (fresh 9)) = false ∧
      outCheck (merging (fresh 9)) 0 0 = none) ∧
    (let s := { merging (fresh 9) with domains := [(0, ⟨1, none⟩)] }
     s.rdLanes.find? (narrowReady s 0) = some (halfRead (fresh 9)) ∧ (outCheck s 0 0).isSome = true) ∧
    ((merging broken).rdLanes.find? (narrowReady (merging broken) 0) = some (halfRead broken) ∧
      ((merging broken).scalar 15).find? (fun x => x.id == 0) = some access0 ∧
      scalarUe access0.req (readRow broken) = true) := by decide +kernel

theorem test_meets_ScalarResponsesArePresented :
    Within responding ∧ aclkEdge responding = true ∧
      (scalarDue (scalarSettle responding 15) 15).isSome = true := by decide +kernel

/-- Bytes 8 to 15 of the merged row are the written ones. -/
theorem test_narrow_merge : (narrowMerge (fresh 9) (doubleWord true)).data =
    9 + BitVec.ofNat 512 (0x0102030405060708 * 2 ^ 64) := by decide +kernel

/-! ### Statements on link ports -/

/-- Link port 3 with credits both ways and the fields given. -/
def port (v : Link) : State := { up with links := [(3, v)] }
def credited : Link := { idleLink with owedHdr := 1, owedData := 1, outHdr := 1, outData := 1 }

/-- An inbound WRITE of 9 granules: not yet checked, admitted, refused. -/
def inbound (checked : Bool) (refused : Option Nat) : InPkt :=
  ⟨4, { hdr 1 with len := 9 }, 480003, checked, 2, 0, refused, false, [], 64, [], [], false⟩
def receiving (checked : Bool) (refused : Option Nat) : State := port { credited with inQ := [inbound checked refused] }

theorem test_meets_InboundWritesAreFramed :
    (Within (port credited) ∧ linkUp (port credited) 3 = true ∧ headerOk { hdr 1 with len := 64 } 1 = true ∧
      0 < ((port credited).link 3).owedHdr ∧ (∀ k, k < 4 → creditUe (port credited) (linkCredit 3 k) = false)) ∧
    (∀ c ∈ [(false, none), (true, none), (true, some 2)], let s := receiving c.1 c.2
      Within s ∧ linkUp s 3 = true ∧ owedPkt (s.link 3) = some (inbound c.1 c.2) ∧ 0 < (s.link 3).owedData ∧
        creditUe s (linkCredit 3 3) = false) := by
  decide +kernel

/-- Two bits of every credit counter of link port 3 are flipped: none can be corrected. -/
def creditsBroken : State :=
  { port credited with upsOther := (List.range 4).map fun k => (Store.credit.site (linkCredit 3 k), 3) }

theorem test_meets_FramingFaultsAndCredits :
    (Within (port credited) ∧ linkUp (port credited) 3 = true ∧ 0 < ((port credited).link 3).owedHdr ∧ (hdr 0).type = 0 ∧
      7 < (hdr 8).type ∧ 23 < ({ hdr 1 with link := 24 } : Header).link ∧
      (({ hdr 2 with len := 1 } : Header).type ≠ 1 ∧ ({ hdr 2 with len := 1 } : Header).len ≠ 0)) ∧
    (owedPkt ((port credited).link 3) = none ∧ 0 < ((port credited).link 3).owedData) ∧
    (((port credited).link 3).outHdr + 30 ≤ 31 ∧ 31 < ((port credited).link 3).outHdr + 31 ∧
      ((port credited).link 3).outData + 126 ≤ 127 ∧ 127 < ((port credited).link 3).outData + 127) ∧
    (∀ k, k < 4 → creditUe (port credited) (linkCredit 3 k) = false ∧ creditUe creditsBroken (linkCredit 3 k) = true) ∧
    linkUp creditsBroken 3 = true := by decide +kernel

/-- An answer, and an OPEN_REQ, to send. -/
def reply : OutPkt := ⟨hdr 5, [], false, 0, true, 479000⟩
def opener : OutPkt := ⟨hdr 4, [], false, 0, false, 479000⟩
def sending (o : OutPkt) : State := port { credited with outQ := [o], seq := [(3, 65535)] }

theorem test_meets_PacketHeadersLeave :
    ∀ o ∈ [reply, opener], Within (sending o) ∧ linkUp (sending o) 3 = true ∧ headerNow (sending o) 3 = false ∧
      flitsNow (sending o) 3 = 0 ∧ ((sending o).link 3).outQ = [o] ∧ o.hdrSent = false ∧
      mayStart (sending o) ((sending o).link 3) o = true ∧ creditUe (sending o) (linkCredit 3 0) = false := by decide +kernel

/-- A piece of task 9 in a packet to window 5, sent and not yet answered. -/
def piece (sq : Nat) : Piece :=
  ⟨sq, 32, 0, 9, 0, 0, 0, ⟨0, 0, 0⟩, ⟨4, 0, 5⟩, 0, 0, 8, .complete, .presented, [], false, true, false, 1, 0, 0, 0, true, 0, 0,
   false, 478000, 0⟩
def sentPkt (ty : Nat) : SentPkt := ⟨ty, 3, 7, 5, 9, 32, [1], 479000, false⟩
def sentOut (ty : Nat) : State := { port { credited with sent := [sentPkt ty] } with pieces := [piece 1] }

theorem test_meets_AcksAndNacksEndWrites :
    (Within (sentOut 1) ∧ linkUp (sentOut 1) 3 = true ∧ headerOk (hdr 2) 2 = true ∧ headerOk (hdr 3) 3 = true ∧
      0 < ((sentOut 1).link 3).owedHdr ∧ matched ((sentOut 1).link 3) 1 (hdr 2) = some (sentPkt 1) ∧
      matched ((sentOut 1).link 3) 1 (hdr 3) = some (sentPkt 1) ∧
      (sentPkt 1).sqs.head?.bind (sentOut 1).piece = some (piece 1) ∧ creditUe (sentOut 1) (linkCredit 3 2) = false ∧
      (∀ o ∈ ((sentOut 1).link 3).outQ, o.sqs ≠ (sentPkt 1).sqs)) ∧
    (matched ((port credited).link 3) 1 (hdr 2) = none ∧ creditUe (port credited) (linkCredit 3 2) = false ∧ headerOk (hdr 2) 2 = true ∧ headerOk (hdr 3) 3 = true) := by
  decide +kernel

/-! ### Statements on remote windows -/

/-- Window 5 in a state, sending over link port 3 or receiving into region 0, with 64 pages of size. -/
def window (out : Bool) (st : Nat) (s : State) : State :=
  setRg (setRg (setRg (setRg (setRg s .winCtrl 0 0x01010008) .winCfg 5
    (if out then 0x04000000 else 0)) .winMap 5 (if out then 0xC0 + 0x300 else 0)) .winSize 5 64) .winStat 5
    (BitVec.ofNat 32 (st + 196608 + 786432))

theorem test_meets_WindowsOpenByAgreement :
    (∀ st ∈ [wsClosed, wsOpening], let s := window false st (port credited)
      Within s ∧ linkUp s 3 = true ∧ headerOk (hdr 4) 4 = true ∧ 0 < (s.link 3).owedHdr ∧ creditUe s (linkCredit 3 2) = false) ∧
    (openReason (window false wsOpening (port credited)) (hdr 4) = 0 ∧
      openReason (window false wsClosed (port credited)) (hdr 4) = 9) ∧
    (let s := window true wsOpening (sentOut 4)
     Within s ∧ linkUp s 3 = true ∧ headerOk (hdr 5) 5 = true ∧ 0 < (s.link 3).owedHdr ∧
      matched (s.link 3) 4 (hdr 5) = some (sentPkt 4) ∧ (sentPkt 4).window = 5 ∧ winSending s 5 = true ∧
      winState s 5 = wsOpening ∧ creditUe s (linkCredit 3 2) = false) := by decide +kernel

theorem test_meets_WindowsCloseByAgreement :
    (∀ st ∈ [wsClosed, wsOpening, wsOpen], let s := window false st (port credited)
      Within s ∧ linkUp s 3 = true ∧ headerOk (hdr 6) 6 = true ∧ 0 < (s.link 3).owedHdr ∧ winState s 5 = st ∧
      winSending s 5 = false ∧ admittedOpen s 5 = 0 ∧ creditUe s (linkCredit 3 2) = false) ∧
    (let s := window true wsOpen (port credited)
     winState s 5 = wsOpen ∧ winSending s 5 = true ∧ sentOpen s 5 = 0) ∧
    (∀ out ∈ [true, false], let s := window out wsClosing (sentOut 6)
     Within s ∧ linkUp s 3 = true ∧ headerOk (hdr 7) 7 = true ∧ 0 < (s.link 3).owedHdr ∧ creditUe s (linkCredit 3 2) = false ∧
      matched (s.link 3) 6 (hdr 7) = some (sentPkt 6) ∧ (sentPkt 6).window = 5 ∧ winState s 5 = wsClosing ∧
      winSending s 5 = out ∧ admittedOpen s 5 = 0) := by decide +kernel

/-- Region 0 as a receiving region (kind 4). -/
def landing (s : State) : State := setRg (setRg (pooled s) .regionCtrl 0 0x69) .regionPerm 0 0x1C3

theorem test_meets_WindowCommandsMoveEntries :
    (ready (window false wsClosed up) = true ∧ winState (window false wsClosed up) 4095 = wsClosed) ∧
    (∀ out ∈ [false, true], let s := window out wsClosed (landing up)
      ready s = true ∧ s.safe = false ∧ 5 < winCount s ∧ winState s 5 = wsClosed ∧ openConfigBad s 5 = false ∧
      winSending s 5 = out) ∧
    (∀ out ∈ [false, true], let s := window out wsOpen (landing up)
      ready s = true ∧ s.safe = false ∧ 5 < winCount s ∧ winState s 5 = wsOpen ∧ winSending s 5 = out) := by decide +kernel

/-- The last OPEN_REQ of window 5 went out 1024 TCLK ago and its answer was NOT_READY; it opened a unit of time ago. -/
def opening (no : Bool) : State :=
  { window true wsOpening (port credited) with wins := [(5, ⟨480000 - 12288, 480000 - 12288, no, 0, [], false, false⟩)] }

/-- A WRITE sent one unit of ACK_TMO ago. -/
def late : State := window true wsOpen { sentOut 1 with links := [(3, { credited with
  sent := [{ sentPkt 1 with at_ := 480000 - 12288 }] })] }

theorem test_meets_WindowLimits :
    (let s := opening true
     Within s ∧ winSending s 5 = true ∧ winState s 5 = wsOpening ∧ s.safe = false ∧ (s.win 5).notReady = true ∧
      (s.win 5).reqAt + 1024 * 12 ≤ s.clk ∧
      (∀ l, l < 4 → (∀ p ∈ (s.link l).sent, p.window ≠ 5) ∧ (∀ o ∈ (s.link l).outQ, o.hdr.window ≠ 5))) ∧
    (∀ no ∈ [false, true], let s := opening no
      Within s ∧ winSending s 5 = true ∧ winState s 5 = wsOpening ∧ rf s .winCtrl 0 23 16 ≠ 0 ∧
      (s.win 5).openAt + rf s .winCtrl 0 23 16 * (1024 * 12) ≤ s.clk) ∧
    (Within late ∧ { sentPkt 1 with at_ := 480000 - 12288 } ∈ (late.link 3).sent ∧ rf late .winCtrl 0 31 24 ≠ 0 ∧
      (480000 - 12288) + rf late .winCtrl 0 31 24 * (1024 * 12) ≤ late.clk) := by decide +kernel

/-! ### Statements on resets of masters -/

/-- Master `m` is in the midst of a reset begun 4096 running edges ago. -/
def resetting (m : Nat) (line : Bool) : State :=
  { up with rsts := [(m, ⟨true, line, !line, false, false, false, 475000, 480000 - 4096, 0⟩)] }

/-- Its reset has completed and its line is still low. -/
def waitingLine (m : Nat) : State := { up with rsts := [(m, ⟨false, true, false, true, false, false, 475000, 475000, 0⟩)] }

def burst (write : Bool) : Burst := ⟨15, 0, 0, write, 0, 4, 7, 0, 0, 0, 0, 0, 1, 9, [], []⟩

theorem test_meets_MasterResetsBegin :
    ready up = true ∧ (up.rst (rstPg 15)).active = false ∧ (up.rst (rstPorter 15)).active = false ∧
      (up.rst (rstLink 3)).active = false := by decide +kernel

theorem test_meets_MasterResetsEnd :
    (∀ m ∈ [Master.pg 15, .pt 15, .lk 3], ∀ line ∈ [false, true], let s := resetting (rstOf m) line
      Within s ∧ (s.rst (rstOf m)).active = true ∧ reclaimed s (rstOf m) = true) ∧
    (∀ m ∈ [Master.pg 15, .pt 15, .lk 3], ((resetting (rstOf m) true).rst (rstOf m)).lineLow = true ∧
      ((waitingLine (rstOf m)).rst (rstOf m)).lineLow = true ∧
      ((waitingLine (rstOf m)).rst (rstOf m)).active = false) ∧
    (let s := { resetting (rstPorter 15) true with bursts := [burst false] }
     Within s ∧ (s.rst (rstPorter 15)).active = true ∧ (s.rst (rstPorter 15)).timeout = false ∧
      (s.rst (rstPorter 15)).runAt + 4096 ≤ s.run ∧ burst false ∈ s.bursts ∧ (burst false).porter = 15) := by
  decide +kernel

/-! ### Statements on satchels and caravans -/

/-- Slot 3 of the front half of satchel 31 is filled. -/
def filled (f : Bool) : State := { up with sats := [(31, { emptySat with fill0 := if f then 8 else 0 })] }

/-- A read of slot 3 is held; its stall began 1024 TCLK ago. -/
def held (ready : Option Nat) : SatRead := ⟨[(true, 3)], 0, false, false, 479000, 480000 - 12288, ready⟩
def holding (f : Bool) (s : State) (ready : Option Nat := none) : State :=
  { s with sats := [(31, { emptySat with fill0 := if f then 8 else 0, read := some (held ready) })] }

/-- Profile 0 of port 31 expands a packed format to BF16. Block 0 of output stripe 0 is escaped, and its record has landed in granule 256;
a read of that stripe is held, or about to come. -/
def escaping (r : Option SatRead) : State :=
  { setRg up .chgProfCtrl (31 * 8) 0x28 with
    sats := [(31, { emptySat with fill0 := 3, esc0 := [256], read := r })]
    satMem := [(satKey 31 false 0, fresh 0xFF), (satKey 31 false 8, fresh 0x100B0)] }
def heldEsc : SatRead := ⟨[(true, 0)], 0, false, false, 479000, 480000 - 12288, none⟩

theorem test_meets_SatchelReadsAnswerOrStall :
    (∀ f ∈ [true, false], let s := filled f
      Within s ∧ slotReady s 31 = true ∧ sampling s = true ∧ (s.sat 31).read = none ∧ (s.sat 31).swap = none ∧
      readFilled s 31 (s.sat 31).front (prof s 31 0) [(true, 3)] = f ∧
      escSlots s 31 (s.sat 31).front (prof s 31 0) [(true, 3)] = 0) ∧
    (∀ r ∈ [none, some 480000, some 480002], let s := holding true up r
     Within s ∧ aclkEdge s = true ∧ heldEdge s = false ∧ (s.sat 31).read = some (held r) ∧
      satReadMet s 31 (held none) = true ∧ escSlots s 31 (held r).half (prof s 31 0) (held r).slots = 0) ∧
    (let s := escaping none
     (s.sat 31).read = none ∧ readFilled s 31 false (prof s 31 0) [(true, 0)] = true ∧
      escSlots s 31 false (prof s 31 0) [(true, 0)] = 1) ∧
    (let s := escaping (some heldEsc)
     satReadMet s 31 heldEsc = true ∧ escSlots s 31 false (prof s 31 0) heldEsc.slots = 1) ∧
    (let s := { filled true with sats := [(31, { emptySat with fill0 := 8, swap := some 479998 })] }
     (s.sat 31).read = none ∧ (s.sat 31).swap = some 479998 ∧ 479998 < s.run) ∧
    (let s := holding false up
     aclkEdge s = true ∧ heldEdge s = false ∧ (s.sat 31).read = some (held none) ∧ satReadMet s 31 (held none) = false) ∧
    (let s := holding false (setRg up .satCtrl 31 0x10000)
     Within s ∧ (s.sat 31).read = some (held none) ∧ rf s .satCtrl 31 31 16 ≠ 0 ∧
      rf s .satCtrl 31 31 16 * 1024 * 12 ≤ s.clk - (held none).clkAt) ∧
    rf (setRg up .satCtrl 31 0) .satCtrl 31 31 16 = 0 := by decide +kernel

/-- Engine-led mode in force; a swap pending for `n` running edges. -/
def engineLed (v : Sat) : State := { up with regsA := (setRg up .satCtrl 31 2).regs, sats := [(31, v)] }
def swapped : State := engineLed { emptySat with swap := some 479998, fill1 := 8 }

theorem test_meets_HalvesExchange :
    (Within (engineLed emptySat) ∧ slotReady (engineLed emptySat) 31 = true ∧ sampling (engineLed emptySat) = true ∧
      stalled (engineLed emptySat) 31 = false ∧ swapMode (engineLed emptySat) 31 ≠ 1 ∧
      ((engineLed emptySat).sat 31).swap = none) ∧
    (slotReady swapped 31 = true ∧ stalled swapped 31 = false ∧ swapMode swapped 31 ≠ 1 ∧ (swapped.sat 31).swap ≠ none ∧
      exchangeDue swapped 31 = true) := by decide +kernel

/-- Four launches wait. -/
def crowded : State := { up with agents := [(31, { idleAgent with queue := List.replicate 4 ⟨0, 0, 0, 0, 0, 0⟩ })] }

theorem test_meets_SatchelRegistersAct :
    ready up = true ∧ (chainOf up 31).isSome = false ∧ up.safe = false ∧ bitOf (rg up .cfgStat) 6 = false ∧
      (up.agent 31).queue.length < 4 ∧ ready crowded = true ∧ bitOf (rg crowded .cfgStat) 6 = false ∧
      4 ≤ (crowded.agent 31).queue.length := by decide +kernel

/-- A piece of sequencer 0 waits to fill slot 1023 from column 0, whose lane is port 0's. -/
def fillPiece : Piece := { piece 1 with agent := 0, dst := ⟨3, 8184, 0⟩, srcP := 0, rd := .waiting, queued := true }
def filling : State := { slots with pieces := [fillPiece] }

/-- The fill lands at this edge. -/
def landingFill : Fill := ⟨0, 1, true, 1023, 0, List.range 8, 0, 0, none, 480000⟩
def landingLane : RdLane :=
  ⟨0, .fill 0 0, 0, (List.range 8).map fun j => ⟨0, j, 0⟩, 479991, 479995, some (List.replicate 8 (fresh 5)), [], false⟩
def landed0 : State :=
  { up with sats := [(0, { emptySat with fills := [landingFill] })], rdLanes := [landingLane],
            pieces := [{ fillPiece with rd := .presented }] }

/-- A hop reaches member 5 at this edge. -/
def hop : Hop := ⟨5, 1023, [(8184, fresh 5)], [], 0, 480000⟩
def hopping : State := { up with hops := [hop] }

theorem test_meets_FillsIssueAndLand :
    (Within filling ∧ sampling filling = true ∧ groupUp filling (groupOf 0) = true ∧
      ((filling.rdDir 0).beats.any fun b => decide (b.at_ = filling.run)) = false ∧
      ((fillCands filling 0).head?.any fun c => (candFails filling c).isNone) = true) ∧
    (Within landed0 ∧ heldEdge landed0 = false ∧
      (landed0.sat 0).fills.filter (fun f => decide (f.due ≤ landed0.run)) = [landingFill] ∧
      fillLane landed0 0 landingFill.id = some landingLane ∧ inReset landed0 (rstPg (groupOf 0)) = false ∧
      landingFill.esc = none ∧ (landed0.piece landingFill.sq).isSome = true ∧ laneUe landingLane = false ∧
      landingFill.slot < 1024) ∧
    (Within hopping ∧ heldEdge hopping = false ∧ hop ∈ hopping.hops ∧ hop.slot < 1024 ∧
      480000 ≤ hopping.run ∧ inReset hopping (rstPg (groupOf 5)) = false ∧ (hopping.sat 5).deaf = false) := by
  decide +kernel

/-! ### Statements on itineraries -/

/-- Channel 15 of porter 15 asks for its first fetch; 0x10000000 is SETA AR0, low part 0, and a word of zeros is END. -/
def launch : Launch := ⟨100, 9, 0, 0, 0, 0⟩
def asking : State := { up with agents := [(287, { idleAgent with act := some launch, todo := true, reqAt := some 479990 })] }
def served (words : List Word) : State :=
  { up with agents := [(287, { idleAgent with act := some launch, todo := true, fetch := some ⟨0, launch, 0, [5, 6]⟩ })]
            store := (List.range words.length).zip words |>.map fun e => (102 + e.1, e.2) }

theorem test_meets_FetchesAreGrantedAndServed :
    (Within asking ∧ (asking.agent 287).fetch = none ∧ fetchNext asking 287 = some launch ∧ fetching asking = none ∧
      nextFetcher asking = some 287) ∧
    (let s := served (List.replicate 8 0x10000000)
     Within s ∧ (s.agent 287).fetch = some ⟨0, launch, 0, [5, 6]⟩ ∧ (fetchWords s 8 (100 + 2) [5, 6]).2.2 = .more) ∧
    (fetchWords (served [0x10000000]) 8 (100 + 2) [5, 6]).2 = ([5, 6, 0x10000000, 0], .whole) ∧
    (fetchWords { served [] with upsOther := [(Store.itin.site 102, 3)] } 8 (100 + 2) [5, 6]).2.2 = .ue 2 ∧
    (fetchWords (served []) 8 16384 [5, 6]).2.2 = .length := by decide +kernel

/-- The run of task 9 in context 0 of agent `a` stands before `w`. -/
def before (a : Nat) (w : Word) (c : Ctx) : State :=
  { up with ctxs := [(a * 2, { c with live := true, task := 9, buf := [w] })] }

/-- SETA in its three parts, ADDA, MODA, CPYA, with their fields. -/
def addressWords : List (Word × Nat) :=
  [(0x1007FFFF, 1), (0x10EFFFFF, 1), (0x10F2023F, 1), (0x20FFFFFF, 2), (0x30E00030, 3), (0xF0FC0000, 15)]

theorem test_meets_AddressInstructions :
    (∀ e ∈ addressWords, Within (before 287 e.1 idleCtx) ∧ mayDecode (before 287 e.1 idleCtx) 287 0 e.1 = true ∧
      executes ((before 287 e.1 idleCtx).ctx 287 0) e.1 = true ∧ fld e.1 31 28 = e.2) ∧
    (fld (0x1007FFFF : Word) 20 19 = 0 ∧ fld (0x10EFFFFF : Word) 20 19 = 1 ∧ fld (0x10F2023F : Word) 20 19 = 2 ∧
      fld (0x10F2023F : Word) 6 4 < 6 ∧ fld (0x30E00030 : Word) 20 6 = 0 ∧ fld (0xF0FC0000 : Word) 17 0 = 0) ∧
    (([(0x10F80000, 1), (0x10F0006F, 1), (0x30E00040, 3), (0xF0FC0001, 15)] : List (Word × Nat)).all fun e =>
      mayDecode (before 287 e.1 idleCtx) 287 0 e.1 && executes ((before 287 e.1 idleCtx).ctx 287 0) e.1 &&
      fld e.1 31 28 == e.2) = true ∧
    fld (0x10F80000 : Word) 20 19 = 3 ∧ fld (0x10F0006F : Word) 20 19 = 2 ∧ fld (0x10F0006F : Word) 6 4 = 6 ∧
    fld (0x30E00040 : Word) 20 6 ≠ 0 ∧ fld (0xF0FC0001 : Word) 17 0 ≠ 0 := by
  decide +kernel

/-- The run may decode `w` here, and the predicate of `w` holds or not. -/
def stands (a : Nat) (w : Word) (c : Ctx) (runs : Bool) : Bool :=
  !(before a w c).railsLost && mayDecode (before a w c) a 0 w && executes ((before a w c).ctx a 0) w == runs

/-- Loop 5 open with `rem` turns left. -/
def looping (rem : Nat) : Ctx := { idleCtx with loops := List.replicate 5 freshLoop ++ [⟨true, 7, rem, 0⟩], nest := [5] }

/-- LOOP 5 of 65 536 turns, ENDL 5, TEST of flag 3 against counter 5, and predicated ADDA, WAIT, RING, HAND on flag 0. -/
theorem test_meets_LoopsAndPredicates :
    stands 31 0x40A00000 idleCtx true = true ∧ fld (0x40A00000 : Word) 31 28 = 4 ∧ fld (0x40A00000 : Word) 20 16 = 0 ∧
    fld (0x40A00000 : Word) 23 21 = 5 ∧ (idleCtx.loopC 5).isOpen = false ∧
    stands 31 0x50A00000 (looping 1) true = true ∧ stands 31 0x50A00000 (looping 2) true = true ∧
    fld (0x50A00000 : Word) 31 28 = 5 ∧ fld (0x50A00000 : Word) 20 0 = 0 ∧ fld (0x50A00000 : Word) 23 21 = 5 ∧
    (looping 2).nest.head? = some 5 ∧ ((looping 2).loopC 5).rem = 2 ∧
    (([0x60E80005, 0x60EA0005, 0x60EC0005, 0x60EE0005] : List Word).all fun w => stands 31 w (looping 2) true &&
      fld w 31 28 == 6 && !bitOf w 16 && fld w 21 19 == 5) = true ∧ ((looping 2).loopC 5).isOpen = true ∧
    stands 31 0x60E80005 idleCtx true = true ∧ (idleCtx.loopC 5).isOpen = false ∧
    (([0x58A00000, 0x68E80005] : List Word).all fun w => stands 31 w (looping 2) false) = true ∧
    fld (0x58A00000 : Word) 31 28 = 5 ∧ fld (0x58A00000 : Word) 20 0 = 0 ∧ fld (0x58A00000 : Word) 23 21 = 5 ∧
    fld (0x68E80005 : Word) 31 28 = 6 ∧ bitOf (0x68E80005 : Word) 16 = false ∧ fld (0x68E80005 : Word) 21 19 = 5 ∧
    (([0x28000001, 0x88002001, 0x98002001, 0xE8000000] : List Word).all fun w => stands 31 w idleCtx false) = true ∧
    bellForm 0x88002001 idleCtx = true ∧ bellForm 0x98002001 idleCtx = true ∧ fld (0xE8000000 : Word) 23 0 = 0 := by
  decide +kernel

/-- Register 0 in P-space, register 1 in S-space at granule 0: a MOVE of 9 granules, standing and under way. -/
def moving (h : Hold) : State := before 31 0x70200009 { idleCtx with
  regs := ⟨0, 0, 0, 0, none⟩ :: ⟨0, 3, 0, 0, none⟩ :: List.replicate 6 freshReg, hold := h }

theorem test_meets_MovesGeneratePieces :
    ∀ h ∈ [Hold.none, Hold.move 1 0 9], let s := moving h; let c := s.ctx 31 0
      Within s ∧ decoderFree s 31 = true ∧
      (moveStands s 31 0 0x70200009 = true ∨ (c.live = true ∧ agentUp s 31 = true ∧ c.at_ ≤ s.clk ∧ c.hold = .move 1 0 9)) ∧
      legalMove 31 (c.reg 0).space (c.reg 1).space = true ∧ misplaced (c.reg 0) (c.reg 1) = false ∧
      pieceLen (c.reg 0) (c.reg 1) 9 = 8 ∧ rateLeft s 31 = true ∧ pieceRoom s 31 (c.reg 0) (c.reg 1) = true ∧
      (sideFault s 31 c.task (c.reg 0) 8).isNone = true ∧ (sideFault s 31 c.task (c.reg 1) 8).isNone = true ∧
      pspace (c.reg 0) = some 0 ∧ (pspace (c.reg 1)).isSome = true := by decide +kernel

/-- A piece of the run is still open. -/
def openPiece : Piece := { piece 1 with agent := 31, rd := .waiting, wr := .waiting }

/-- HAND with a run loaded behind it. -/
def handing : State :=
  { up with ctxs := [(62, { idleCtx with live := true, task := 9, buf := [0xE0000000] }),
                     (63, { idleCtx with loaded := true, task := 10 })] }

/-- A fence of both halves, the run's one piece generated after it. -/
def fenced : State := before 31 0xA0000003 { idleCtx with hold := .fence true true 1 }

/-- The run of `before`, with a piece of it open. -/
def open_ (w : Word) : State := { before 31 w idleCtx with pieces := [openPiece], nextSq := 2 }

theorem test_meets_RunsSynchroniseAndEnd :
    (([0x901FFFFF, 0x801FFFFF, 0xA0000003, 0xB0000000, 0xC0000007, 0xD007FFFF, 0xE0000000, 0] : List Word).all fun w =>
      stands 31 w idleCtx true) = true ∧
    bellForm 0x901FFFFF idleCtx = true ∧ bellForm 0x801FFFFF idleCtx = true ∧ isChan 31 = false ∧
    fenceOpen (before 31 0xA0000003 idleCtx) 31 0 true true 0 = false ∧
    fenceOpen (open_ 0xA0000003) 31 0 true true 2 = true ∧ mayDecode (open_ 0xA0000003) 31 0 0xA0000003 = true ∧
    mayDecode handing 31 0 0xE0000000 = true ∧ (handing.ctx 31 0).loaded = false ∧ (handing.ctx 31 1).loaded = true ∧
    abortFired handing (handing.ctx 31 1).task = false ∧
    runPieces (before 31 0 idleCtx) 31 0 = [] ∧ ((before 31 0 idleCtx).ctx 31 0).lostWr = false ∧
    runPieces (open_ 0) 31 0 ≠ [] ∧ mayDecode (open_ 0) 31 0 0 = true ∧
    Within fenced ∧ (fenced.ctx 31 0).live = true ∧ (fenced.ctx 31 0).hold = .fence true true 1 ∧
    fenceOpen fenced 31 0 true true 1 = false ∧ runOver (before 31 0 { idleCtx with ended := true }) 31 0 = true := by
  decide +kernel

/-! ### Statements on porters, far traffic and aborts -/

/-- A piece of channel 15 of porter 15 between two spaces, its halves as given; P-space sides lie at 0 and 512. -/
def hauled (from_ dst : Nat) (rd wr : Half) : Piece :=
  { piece 1 with agent := 287, src := ⟨from_, 0, 5⟩, dst := ⟨dst, 0, 5⟩, srcP := 0, dstP := 512, rd := rd, wr := wr,
                 data := List.replicate 8 3 }
def hauling (q : Piece) : State := { landing up with pieces := [q] }

/-- The same over pooled columns whose region 0 porters may reach; or over none, where no descriptor decodes. -/
def pooledHaul (q : Piece) : State := { pooled up with pieces := [q] }
def lostHaul (q : Piece) : State := { up with pieces := [q] }

/-- Porter 15 owns column 0's read lane and column 1's write lane of the slots its halves would take. -/
def slottedHaul (q : Piece) : State := { pooledHaul q with wheels := [(3, 0x3F), (64 + 4, 0x3F0000)] }

def reads (s : State) (q : Piece) : Bool :=
  !s.railsLost && porterUp s 15 && !doneNow s (lastRead 15) &&
  (robin 16 (ptr s (ptrRead 15)) fun j => (readReady s (chanAgent 15 j)).isSome) == some 15 &&
  readReady s (chanAgent 15 15) == some q
def writes (s : State) (q : Piece) : Bool :=
  !s.railsLost && porterUp s 15 && !doneNow s (lastWrite 15) &&
  (robin 16 (ptr s (ptrWrite 15)) fun j => (writeReady s (chanAgent 15 j)).isSome) == some 15 &&
  writeReady s (chanAgent 15 15) == some q

/-- The lane of a presented read has its data. -/
def arriving : State :=
  { pooledHaul (hauled 0 1 .presented .waiting) with
    rdLanes := [⟨0, .piece 1, 63, (List.range 8).map fun j => ⟨0, j, 0⟩, 479991, 480000, some (List.replicate 8 (fresh 5)), [], false⟩] }

/-- The same for a piece that an abort has discarded; with uncorrectable data; for a fill sequencer's piece. -/
def arrivingDead : State := { arriving with pieces := [{ hauled 0 1 .presented .waiting with dead := true }] }
def arrivingUe : State := { arriving with rdLanes := arriving.rdLanes.map fun l => { l with got := some [⟨5, [(0, 3)]⟩] } }
def arrivingFill : State := { landed0 with pieces := [{ fillPiece with rd := .presented }] }

/-- A tally export of unit 31 waits to be served. -/
def exporting : State :=
  { setRg up .tallyCtrl 31 1 with pieces := [hauled 5 0 .presented .waiting], exports := [⟨31, 1, none, []⟩] }

/-- A burst of porter 15 for piece 1, with `n` beats left. -/
def beats (w : Bool) (n : Nat) : Burst := { burst w with sq := 1, beats := n }
def bursting (w : Bool) (n owed : Nat) : State :=
  { up with pieces := [{ hauled (if w then 0 else 2) (if w then 2 else 0) .presented .presented with owed := owed }]
            bursts := [beats w n] }

/-- Column to column, not yet read and read; from the tally buffer; to window 5. -/
def toRead : Piece := hauled 0 1 .waiting .waiting
def toWrite : Piece := hauled 0 1 .complete .waiting
def tallied : Piece := hauled 5 0 .presented .waiting
def packeted : Piece := hauled 0 4 .waiting .waiting

theorem test_meets_PortersMovePieces_reads :
    reads (hauling (hauled 2 0 .waiting .waiting)) (hauled 2 0 .waiting .waiting) = true ∧
    reads (hauling (hauled 5 0 .waiting .waiting)) (hauled 5 0 .waiting .waiting) = true ∧
    reads (slottedHaul toRead) toRead = true ∧ (readCheck (slottedHaul toRead) toRead).st = 0 ∧
    slottedHalf (slottedHaul toRead) 15 .rd (readCheck (slottedHaul toRead) toRead) = true ∧
    reads (pooledHaul toRead) toRead = true ∧ (readCheck (pooledHaul toRead) toRead).st = 0 ∧
    slottedHalf (pooledHaul toRead) 15 .rd (readCheck (pooledHaul toRead) toRead) = false ∧
    reads (lostHaul toRead) toRead = true ∧ (readCheck (lostHaul toRead) toRead).st ≠ 0 := by decide +kernel

theorem test_meets_PortersMovePieces_data :
    Within arriving ∧ isChan 287 = true ∧ (arriving.piece 1).any (fun q => q.agent == 287 && !q.dead) = true ∧
    (pieceLane arriving 1).any (fun l => !laneUe l) = true ∧
    (arrivingDead.piece 1).any (fun q => q.agent == 287 && q.dead) = true ∧
    (pieceLane arrivingDead 1).any (fun l => !laneUe l) = true ∧ (pieceLane arrivingUe 1).any laneUe = true ∧
    Within arrivingFill ∧ isChan 0 = false ∧ (arrivingFill.piece 1).any (fun q => q.agent == 0 && decide (q.rd = .presented)) = true ∧
    landingLane ∈ arrivingFill.rdLanes ∧ landingLane.use = .fill 0 0 ∧ landingFill ∈ (arrivingFill.sat 0).fills ∧
    landingFill.id = 0 ∧ landingFill.sq = 1 ∧ landingLane.due ≤ arrivingFill.run ∧
    (let s := { exporting with exports := [⟨31, 1, some 480000, [7]⟩] }
     s.piece 1 = some tallied ∧ tallied.agent = 287 ∧ tallied.dead = false ∧ pieceLane s 1 = none ∧
      (s.exports.find? fun e => e.sq == 1) = some ⟨31, 1, some 480000, [7]⟩ ∧ 480000 ≤ s.clk) ∧
    (let s := { exporting with regs := (setRg up .tallyCtrl 31 0).regs }
     (s.exports.find? fun f => f.sq == 1 && f.due.isNone) = some ⟨31, 1, none, []⟩ ∧ bitOf (rg s .tallyCtrl 31) 0 = false) ∧
    Within exporting ∧ exporting.piece 1 = some tallied ∧
    (exporting.exports.find? fun f => f.sq == 1 && f.due.isNone) = some ⟨31, 1, none, []⟩ ∧
    doneNow exporting (lastTallyV 31) = false ∧ doneNow exporting (lastTallyP 31) = false ∧
    bitOf (rg exporting .tallyCtrl 31) 0 = true ∧
    (readTally exporting ((List.range (tallied.cnt * 16)).map fun j =>
      tallyWord 31 (tallied.src.addr * 2 + j / 8) (j % 8))).2.2.1 = 0 ∧
    (([1, 2] : List Nat).all fun n =>
      ((bursting false n 0).bursts.find? fun b => b.porter == 15 && b.id == 0 && !b.write) == some (beats false n) &&
      ((bursting false n 0).piece 1).any (fun q => !q.dead)) = true ∧
    respBad (bursting false 1 0) 15 .okay = false ∧ respBad (bursting false 1 0) 15 .slverr = true ∧
    (([1, 2] : List Nat).all fun o =>
      ((bursting true 1 o).bursts.find? fun b => b.porter == 15 && b.id == 0 && b.write) == some (beats true 1) &&
      ((bursting true 1 o).piece 1).any (fun q => q.owed == o && q.left == 0)) = true := by decide +kernel

/-- An atomic piece to far memory with no element sent, and with its first two sent; a packet whose source no descriptor reaches. -/
def atomic (sent : Bool) : Piece :=
  { hauled 0 2 .complete (if sent then .presented else .waiting) with atop := 1, left := if sent then 126 else 0, owed := if sent then 2 else 0 }
def gathered (s : State) : State := (List.range 16).foldl (fun s j => gather s (chanAgent 15 j)) s

theorem test_meets_PortersMovePieces_atomics :
    (∀ b ∈ [false, true], writes (gathered (hauling (atomic b))) (atomic b) = true ∧ (atomic b).dst.space = 2 ∧ (atomic b).atop ≠ 0) ∧
    porterOn (hauling (atomic true)) 15 = true := by decide +kernel

theorem test_meets_PortersMovePieces_writes :
    writes (hauling (hauled 0 2 .complete .waiting)) (hauled 0 2 .complete .waiting) = true ∧
    (hauled 0 2 .complete .waiting).atop = 0 ∧
    writes (slottedHaul toWrite) toWrite = true ∧ (writeCheck (slottedHaul toWrite) toWrite).st = 0 ∧
    slottedHalf (slottedHaul toWrite) 15 .wr (writeCheck (slottedHaul toWrite) toWrite) = true ∧
    writes (pooledHaul toWrite) toWrite = true ∧ (writeCheck (pooledHaul toWrite) toWrite).st = 0 ∧
    slottedHalf (pooledHaul toWrite) 15 .wr (writeCheck (pooledHaul toWrite) toWrite) = false ∧
    writes (pooledHaul packeted) packeted = true ∧ packetOf (pooledHaul packeted) packeted = some [packeted] ∧
    packeted.src.space ≠ 5 ∧
    (checkWide (pooledHaul packeted) (.linkRead (passPriv packeted.pass)) false false packeted.srcP packeted.cnt).st = 0 ∧
    writes (lostHaul packeted) packeted = true ∧ packetOf (lostHaul packeted) packeted = some [packeted] ∧
    (checkWide (lostHaul packeted) (.linkRead (passPriv packeted.pass)) false false packeted.srcP packeted.cnt).st ≠ 0 ∧
    writes (lostHaul toWrite) toWrite = true ∧ (writeCheck (lostHaul toWrite) toWrite).st ≠ 0 ∧
    (∀ s ∈ [hauling (hauled 0 2 .complete .waiting), slottedHaul toWrite, pooledHaul toWrite, pooledHaul packeted, lostHaul packeted],
      porterOn s 15 = true ∧ gathered s = s) := by
  decide +kernel

/-- Channel 15 of porter 15 with a run, and with its shadow full. -/
def armed (full : Bool) : State :=
  { up with agents := [(287, { idleAgent with act := some launch, todo := true, queue := if full then [launch] else [] })] }
def badArm : State := setRg up .porterChDesc0 255 0x00040000

/-- Far channel 63 has been held for longer than the limit of one unit. -/
def farLong : State := { setRg up .fchHoldLim 0 1 with farHold := [(63, ⟨467711, false, none⟩)] }

/-- The credit counter of channel 15 of porter 15 has two bits flipped. -/
def creditLost : State := { up with upsOther := [(Store.credit.site (agentLoc 287), 3)] }

theorem test_meets_ChannelRegistersAct :
    ready up = true ∧ up.safe = false ∧ bitOf (rg up .cfgStat) 6 = false ∧
    (ready badArm = true ∧ bitOf (rg badArm .cfgStat) 6 = false ∧ 4 ≤ fld (rg badArm .porterChDesc0 255) 18 16) ∧
    (fld (rg up .porterChDesc0 255) 18 16 < 4 ∧ bitOf (rg up .porterChDesc0 255) 22 = false ∧ (up.agent 287).act = none ∧
      liveCtxs up 287 = []) ∧
    (∀ f ∈ [false, true], ready (armed f) = true ∧ bitOf (rg (armed f) .cfgStat) 6 = false ∧
      ((armed f).agent 287).act ≠ none ∧ ((armed f).agent 287).queue.isEmpty = !f ∧ anyChanBusy (armed f) = true) ∧
    (anyChanBusy up = false ∧ fld (0x00040408 : Word) 4 0 + fld (0x00040408 : Word) 12 8 + fld (0x00040408 : Word) 20 16 = 16) ∧
    (ready creditLost = true ∧ creditUe creditLost (agentLoc (chanAgent 15 15)) = true ∧
      creditUe up (agentLoc (chanAgent 15 15)) = false) ∧
    (Within farLong ∧ farHeld farLong 63 = true ∧ rf farLong .fchHoldLim 0 15 0 ≠ 0 ∧ rf farLong .fchHoldLim 0 15 0 * 1024 * 12 < farLong.clk - 467711) := by
  decide +kernel

/-- The abort of task 9, detected two edges ago; with every record taken; over. -/
def abort9 : Abort := ⟨9, 479998, 0, 0x11, 0, 511, 0, 0, 0, 0, false, false, none, [], [], []⟩
def abortDue : State := { before 31 0 idleCtx with aborts := [abort9], pieces := [openPiece] }
def recordsFull : State := (List.range 8).foldl (fun s i => setRg s .tabtRecInfo i 1) abortDue
def abortEnd : State :=
  { setRg up .tabtRecInfo 7 1 with
    aborts := [{ abort9 with fired := true, recNo := some 7, chans := [(287, 5)] }]
    bells := [(2047, ⟨1, 31, 0, some 9, true⟩)] }

theorem test_meets_TasksAbort :
    (ready (before 31 0 idleCtx) = true ∧ (before 31 0 idleCtx).safe = false ∧ aborting (before 31 0 idleCtx) 9 = false ∧
      ((busyAgents (before 31 0 idleCtx)).any fun a => agentHas (before 31 0 idleCtx) a 9) = true) ∧
    (ready abortDue = true ∧ abortDue.safe = false ∧ aborting abortDue 9 = true) ∧
    (Within abortDue ∧ (abortDue.aborts.find? fun b => b.task == 9 && !b.fired) = some abort9 ∧
      abort9.at_ + 2 ≤ abortDue.clk ∧ abort9.cause < 256 ∧
      ((List.range 8).find? fun i => !bitOf (rg abortDue .tabtRecInfo i) 0) = some 0) ∧
    ((recordsFull.aborts.find? fun b => b.task == 9 && !b.fired) = some abort9 ∧
      ((List.range 8).find? fun i => !bitOf (rg recordsFull .tabtRecInfo i) 0) = none) ∧
    (Within abortEnd ∧ (abortEnd.aborts.find? fun b => b.task == 9).any (fun b => abortOver abortEnd b && b.recNo == some 7) = true ∧
      abortEnd.safe = false) ∧
    (ready (setRg up .tabtRecInfo 7 3) = true ∧ bitOf (rg (setRg up .tabtRecInfo 7 3) .tabtRecInfo 7) 1 = true ∧
      bitOf (rg up .tabtRecInfo 7) 1 = false) := by decide +kernel

/-! ### Statements on page maps, Changers and Tally -/

/-- A context has slot 63's inactive bank pinned; a CLEAR of slot 63 runs; a COPY of it ends at this edge. -/
def pinned : State := { up with ctxs := [(0, { idleCtx with live := true, pins := [(63, 1)] })] }
def clearing : State := { up with pmapOp := some ⟨false, 63, 480400, true⟩ }
def ending (copy : Bool) (last : Bool := true) : State :=
  { up with pmapOp := some ⟨copy, 63, 480000, last⟩, pmaps := [(pmapIx 63 0 4095, 0x80000007), (pmapIx 63 1 0, 0x80000001)] }

/-- A run has waited for slot 63's epoch for one unit of the limit. -/
def epochLate : State :=
  { setRg up .pmapCtrl 0 1 with ctxs := [(575, { idleCtx with live := true, ewait := some (63, 467712, false) })] }

theorem test_meets_PageMapsChange :
    ready up = true ∧ up.safe = false ∧ pinsOld up 63 = 0 ∧ pmapBusy up 63 = false ∧ up.pmapOp = none ∧
    ready pinned = true ∧ pinned.safe = false ∧ pinsOld pinned 63 ≠ 0 ∧ pmapBusy pinned 63 = false ∧
    ready clearing = true ∧ pinsOld clearing 63 = 0 ∧ pmapBusy clearing 63 = true ∧ clearing.pmapOp ≠ none ∧
    (([false, true] : List Bool).all fun c => ([false, true] : List Bool).all fun l =>
      (ending c l).pmapOp == some ⟨c, 63, 480000, l⟩ && (ending c l).pmapHeld.isEmpty && decide (Within (ending c l))) = true ∧
    (loadWord (ending true) .pmap (pmapIx 63 (activeBank (ending true) 63) 4095)).ue = false ∧
    Within epochLate ∧ (epochLate.ctx 287 1).ewait = some (63, 467712, false) ∧ rf epochLate .pmapCtrl 0 15 0 = 1 ∧
    1 * 1024 * 12 ≤ epochLate.clk - 467712 := by decide +kernel

/-- A record of 3 words waits for this edge; the buffer of unit 31 holds a word. -/
def recording : State :=
  { up with tallies := [(31, { freshTally with pend := [⟨some 480000, 1023, [1, 2, 3]⟩] })], tallyMem := [(tallyWord 31 0 0, 5)] }

theorem test_meets_ChangerAndTallyCommands :
    ready up = true ∧ Within recording ∧
    ((recording.tally 31).pend.filter fun p => p.due.any fun d => decide (d ≤ recording.run)).getLast? =
      some ⟨some 480000, 1023, [1, 2, 3]⟩ ∧
    slotReady recording 31 = true ∧ sampling recording = true ∧
    (readTally recording ((List.range 128).map fun j => tallyWord 31 (0 + j / 8) (j % 8))).2 = (0, 0, 0) := by decide +kernel

/-! ### Statements on bells -/

/-- A processor in its own view. -/
def core0 : Who := ⟨0, true, true, false, false⟩

/-- Port group 0 has a write under way. -/
def writing : State := { up with slotWr := [(0, ⟨1, false, 1, [⟨0, 1, 479990, 480000, 0, [], true, none⟩], []⟩)] }

/-- Bell 2047 holds `c` tokens and one operation on it completes at this edge. -/
def opDue (kind : BellKind) (n : Nat) : BellOp :=
  ⟨kind, 2047, 288, 0, n, if kind = .wait then some (31, 1) else none, none, some 480000, [], some core0⟩
def belled (c : Nat) (o : BellOp) : State := { up with bells := [(2047, ⟨c, 31, 3, some 9, true⟩)], bellOps := [o] }

def completes (c : Nat) (o : BellOp) : Bool :=
  !(belled c o).railsLost && !(belled c o).safe && !(bellCount (belled c o) 2047).ue &&
  ((belled c o).bellOps.filter fun o => o.due.any fun d => decide (d ≤ (belled c o).clk)) == [o] &&
  (bellCount (belled c o) 2047).data.toNat % 65536 == c

theorem test_meets_BellsCountTokens :
    ready up = true ∧ ready writing = true ∧ (openWrites writing 0).isEmpty = false ∧ whoNum mp = 0 ∧
    (([⟨.ring, 2047, 288, 0, 1, none, none, none, [], none⟩, ⟨.ring, 2047, 288, 0, 1, none, none, some 480008, [], none⟩] :
      List BellOp).any fun o => decide (o.kind = .take ∧ o.orig = 288 + 17)) = false ∧
    (([(65534, opDue .ring 1), (65535, opDue .ring 1), (5, opDue .take 5), (4, opDue .take 5), (5, opDue .wait 5),
      (5, opDue .init 65535)] : List (Nat × BellOp)).all fun e => completes e.1 e.2) = true := by decide +kernel

/-! ### Statements on the Strongbox -/

/-- The port is at work; another access stands there; lock 1023 is free, held by processor 0 (origin 288), held by another. -/
def busyBox : State := { up with sboxBusy := 480004 }
def sharedBox : State := { up with sboxWait := [⟨mp, .read, 16383, 480000⟩] }
def locked (w : Word) : State := { up with sbox := [(4096 + 1023, w)] }

def alone (s : State) (k : Nat := 5119) : Bool :=
  sboxOpen s && sboxFree s ⟨mp, .read, k, s.clk⟩ && !reaperFirst s s.clk && !s.sboxWait.any (sboxStands s)

/-- An answer falls due. -/
def answeringBox : State := { up with sboxAns := [⟨mp, 7, false, 480000, false⟩] }

theorem test_meets_StrongboxAccesses :
    ready up = true ∧ (([0, 5119, 5120, 16383] : List Nat).all fun k => alone up k) = true ∧ (loadWord up .sbox 16383).ue = false ∧
    ready busyBox = true ∧ sboxOpen busyBox = false ∧ alone sharedBox = false ∧ free { sharedBox with sboxWait := [] } mp = true ∧
    mp.steward = false ∧ mp.proc = 0 ∧ Running parkedUp ∧ stw.steward = true ∧
    (([0x00050000, 0x00050320, 0x00050321] : List Word).all fun w => ready (locked w) && alone (locked w) &&
      !(loadWord (locked w) .sbox 5119).ue) = true ∧
    (ready { locked 0x00050321 with reapSet := 2 } = true ∧ alone { locked 0x00050321 with reapSet := 2 } = true ∧ ownerReaped { up with reapSet := 2 } 0x00050321 = true ∧
      ownerReaped up 0x00050321 = false) ∧
    lockHeld 0x00050000 = false ∧ (lockHeld 0x00050320 = true ∧ lockOwner 0x00050320 = 288) ∧
    (lockHeld 0x00050321 = true ∧ lockOwner 0x00050321 ≠ 288) ∧
    Within answeringBox ∧ (answeringBox.sboxAns.find? fun a => decide (a.due ≤ answeringBox.clk)) =
      some ⟨mp, 7, false, 480000, false⟩ := by decide +kernel

/-- The Strongbox port is free and the reaper stands before lock 1023, held by a processor of the set; before its mark; at
the end of its sweep. -/
def reaping : State := { up with reapSet := 1, reapAt := some 1023, sbox := [(4096 + 1023, 0x00050320)] }
def marking : State := { reaping with reapAt := some 1024, reapMark := some 1023 }
def swept : State := { up with reapSet := 1, reapAt := some 1024, reapEnd := some 480000 }

/-- Tamper is high; the key is locked; a wipe is over. -/
def tampered : State := setRg up .sboxSec 0 0x4
def keyLocked : State := setRg up .sboxSec 0 0x1
def wiped : State := { up with wipeEnd := some (480000, true), sbox := [(0, 5), (4095, 6), (4096, 7)] }

theorem test_meets_StrongboxReapsAndWipes :
    ready up = true ∧ mp.proc = 0 ∧ (17 : Nat) ≠ mp.proc ∧ mclkEdge up = true ∧ mclkEdge { up with clk := 480001 } = false ∧
    Within reaping ∧ reaping.reapEnd = none ∧ reaping.reapMark = none ∧ reaping.reapAt = some 1023 ∧
    reaperTurn reaping = true ∧
    marking.reapMark = some 1023 ∧ reaperTurn marking = true ∧ (loadWord marking .sbox 5119).ue = false ∧
    lockHeld (loadWord marking .sbox 5119).data = true ∧ ownerReaped marking (loadWord marking .sbox 5119).data = true ∧
    swept.reapEnd = some 480000 ∧ swept.reapMark = none ∧
    keyOpen up = true ∧ alone up 7 = true ∧ alone busyBox 7 = false ∧ Running parkedUp ∧ free parkedUp stw = true ∧
    ready keyLocked = true ∧ keyOpen keyLocked = false ∧ alone keyLocked 7 = true ∧ Within tampered ∧ bitOf (rg tampered .sboxSec) 2 = true ∧
    up.lcKnown = false ∧ ({ up with lcKnown := true } : State).lcKnown = true ∧ rf up .sboxSec 0 19 16 ≠ 15 ∧
    Within wiped ∧ wiped.wipeEnd = some (480000, true) := by decide +kernel

/-! ### Statements on faults and regulation -/

/-- Column 63 has a tracked row whose window is over; class 7 has an old transaction against its target; class 6 has stood
below its level for a DECAY. -/
def tracking : State := (setRg up .fuWin 63 1).setFu 63 { freshFu with track := [⟨5, 1, 0⟩] }
def pressed : State :=
  { setRg (setRg up .regClassTarget 7 1) .regCtrl 0 1 with
    scalars := [(0, [⟨0, doubleWord false, 7 * 8192, some 12, 12, 0, ⟨0, 0, 0⟩, false, .buffered⟩])] }
def decaying : State := { setRg up .regMult 0 0x3000 with decay := [(6, 255)] }

/-- A read stripe of port 0 is in column 63's return path. -/
def returnLane : RdLane := ⟨63, .slot 0 0 0, 0, [⟨0, 0, 0⟩], 479994, 480003, some [fresh 7], [], false⟩
def returning : State := { up with rdLanes := [returnLane] }

theorem test_meets_FaultUnitsRecordAndClear :
    ready up = true ∧ (up.fu 84).nowAt ≠ up.clk ∧ up.safe = false ∧ up.safeAt = none ∧ tracking.clk % 12 = 0 ∧
    levelOf pressed 7 < computedLevel pressed 7 (pressure pressed 7) ∧ pressed.clk % 12 = 0 ∧ Within pressed ∧
    0 < levelOf decaying 6 ∧ decayEdges decaying ≤ decayCount decaying 6 ∧
    Within returning ∧ returnLane ∈ returning.rdLanes ∧ inReturn returning 63 returnLane = true := by decide +kernel

/-- Unit `n` has been in fault since its curfew began, with an escalating bit, or the bit cleared since. -/
def inFault (n : Nat) (stat ctrl : Word) : State :=
  (setRg (setRg (setRg (setRg up .fuStat n stat) .fuEsc n 1) .fuCtrl n ctrl) .fuCurfew n 1).setFu n
    { freshFu with curfew := some (39999, 0, false, 479988) }

/-- The outcome of an escalation is due; a quarantine has only to settle; a quiet period is over. -/
def outcomeDue (n before : Nat) : State := up.setFu n { freshFu with esc := true, outcome := some (40000, before, 0, false) }
def settling : State := up.setFu 63 { freshFu with quar := true }
def quiet : State := (setRg (setRg (setRg up .fuStat 84 1) .fuEsc 84 1) .fuCtrl 84 1).setFu 84 { freshFu with lastEsc := 23616 }

/-- phj_err_n's pulse ends; the safe state is called, and is entered at this edge. -/
def pulsing : State := { up with errPulse := some 480000 }
def safeState : State := { up with safe := true }
def calling : State := { up with safeAt := some 480000 }

theorem test_meets_CurfewsEscalate :
    (([(inFault 84 1 2, true, true), (inFault 84 1 0, true, false), (inFault 84 0 2, false, true)] : List (State × Bool × Bool)).all
      fun e => !e.1.railsLost && !e.1.safe && curfewOver e.1 84 && (e.1.fu 84).curfew == some (39999, 0, false, 479988) &&
        (escalating e.1 84 != 0) == e.2.1 && bitOf (rg e.1 .fuCtrl 84) 1 == e.2.2) = true ∧
    (([(63, 0), (63, 1), (84, 0)] : List (Nat × Nat)).all fun e =>
      ((outcomeDue e.1 e.2).fu e.1).outcome == some (40000, e.2, 0, false) && decide (40000 ≤ (outcomeDue e.1 e.2).clk / 12) &&
      !(outcomeDue e.1 e.2).safe && (outcomeDue e.1 e.2).safeAt.isNone) = true ∧
    (let s := { outcomeDue 63 0 with rdLanes := [{ returnLane with bank := 480004 }] }
     (s.fu 63).outcome = some (40000, 0, 0, false) ∧ s.rdLanes.all (fun l => decide (l.col = 63 ∧ l.accs ≠ [])) = true) ∧
    Within settling ∧ (settling.fu 63).quar = true ∧ (settling.fu 63).quarDone = false ∧ (settling.col 63).defer = [] ∧
    settling.rdLanes = [] ∧ settling.wrLanes = [] ∧
    Within quiet ∧ quiet.clk % 12 = 0 ∧ bitOf (rg quiet .fuCtrl 84) 0 = true ∧ escalating quiet 84 ≠ 0 ∧
    (quiet.fu 84).lastEsc + max 1 (rf quiet .fuQuiet 84 15 0) * 1024 ≤ quiet.clk / 12 ∧
    pulsing.errPulse = some 480000 ∧ ready pulsing = true ∧ ready safeState = true ∧ ready up = true ∧
    Within calling ∧ calling.safeAt = some 480000 ∧ calling.safe = false ∧ (calling.fus.all fun f => decide (f.1 < 85)) = true := by
  decide +kernel

/-! ### Statements on interrupts -/

/-- Target 17 selects source 343, claimed by it or by nobody. -/
def selected (c : List (Nat × Nat)) : State := { up with intSel := [(17, 343)], intOwner := c, intPend := BitVec.ofNat 512 (2 ^ 343) }

theorem test_meets_InterruptsAreDelivered :
    Within up ∧ mclkEdge up = true ∧ intcRuns up = true ∧ ready up = true ∧
    ready (selected []) = true ∧ selOf (selected []) 17 = 343 ∧ (343 : Nat) ≠ noSource ∧ claimer (selected []) 343 = noTarget ∧
    ready (selected [(343, 17)]) = true ∧ claimer (selected [(343, 17)]) 343 = 17 ∧ (17 : Nat) ≠ noTarget ∧
    selOf up 17 = noSource ∧ claimer up 511 ≠ 17 ∧ srcExists 343 = true ∧ srcExists 511 = false := by decide +kernel

/-! ### Statements on configuration images -/

/-- A full image of no items: header, empty sections, their digest (0), a tag. -/
def emptyImage (first : Word) : List Word := first :: 0x10240001 :: 16 :: List.replicate 13 0

/-- The loader receives, checks, applies. -/
def loader (p : LoadPhase) (ws : List Word) : State := { up with loader := { up.loader with phase := p, words := ws } }

theorem test_meets_ImagesLoad :
    ready up = true ∧ loadRefusal up false = none ∧ loadRefusal up true = some 4 ∧ up.loader.phase = .idle ∧
    loadRefusal (setRg up .cfgStat 0 0x10) true = none ∧
    ready (loader .receiving []) = true ∧ loadRefusal (loader .receiving []) false = some 1 ∧
    ready (loader .receiving ((emptyImage 0x504A0001).take 15)) = true ∧ ready (loader (.checking 479000) []) = true ∧
    up.sealed_ = false ∧ mp.steward = false ∧ ready { up with sealed_ := true } = true := by decide +kernel

theorem test_meets_ImagesLoad_checks :
    Within (loader (.checking 479000) []) ∧
    imageVerdict (loader (.checking 479000) (emptyImage 0x504A0001)) = none ∧
    imageVerdict (loader (.checking 479000) (emptyImage 0x504A0002)) = some (7, 0) ∧
    (let s := setRg (loader (.checking 479000) (emptyImage 0x504A0001)) .sboxSec 0 0x00010001
     headerCheck s.loader.words s.loader.part = true ∧ tagChecked s = true ∧ keyUsable s = true) := by decide +kernel

/-- The check value of CRC-32C over the digits 1 to 9. -/
theorem test_crc32c : crc32c [0x31, 0x32, 0x33, 0x34, 0x35, 0x36, 0x37, 0x38, 0x39] = 0xE3069283 := by decide +kernel

/-! ### Statements on scrubbing and remaps -/

/-- Scrubbing of column 63 is due; a scrub read of stripe 0 has returned with a flip in bank 3. -/
def scrubbing : State := setRg (pooled up) .colScrubCtrl 63 1

/-- The same with its pointer at a stripe of octet 0, which is withdrawn: the next stripe to scrub is another. -/
def scrubbingOn : State := { scrubbing with tiles := [(tileKey 63 0, ⟨⟨false, false, 0⟩, ⟨false, false, 0⟩, 1⟩)] }
def flipped : Coded := ⟨9, [(0, 1)]⟩
def scrubbed (d : Coded) (en : Word) : State :=
  { setRg up .colScrubCtrl 63 en with
    rdLanes := [⟨63, .scrub 0, masterSteward, [⟨0, 3, 0⟩], 479991, 479995, some [d], [], false⟩] }

/-- The queue of column 63 is full; both spare banks of tile 3 are taken, and every spare row of its bank 31. -/
def req (sw : Bool) : RemapReq := ⟨false, 3, 31, 2047, sw⟩
def fullQueue : State := { up with cols := [(63, { idleCol with remapQ := List.replicate 4 (req true) })] }
def banksTaken : State := { up with tiles := [(3 * 64 + 63, ⟨⟨true, true, 0⟩, ⟨true, true, 1⟩, 0⟩)] }

/-- A judgement waits, with spare rows left or none, and spare banks left or none. -/
def judged (t : Tile) (rows : Tab SpareRow) : State :=
  { up with cols := [(63, { idleCol with remapQ := [req false] })], tiles := [(3 * 64 + 63, t)], spares := rows }
def takenTile : Tile := ⟨⟨true, true, 0⟩, ⟨true, true, 1⟩, 0⟩

/-- Every spare row of bank 31 of tile 3 is in use. -/
def noRows : Tab SpareRow := (List.range 16).map fun e => (((63 * 4 + 3) * 34 + 31) * 16 + e, ⟨e, 1, true, false⟩)

/-- The copy of row 2047 has its data; or is over. -/
def copying (retire : Bool) (p : CopyPhase) : State :=
  { up with
    cols := [(63, { idleCol with copy := some ⟨retire, 3, 31, 2047, 1, 1, true, p⟩ })]
    rdLanes := [⟨63, .copyRd, masterSteward, [⟨3, 31, 2047⟩], 479991, 479995, some [flipped], [], false⟩] }

def begins (s : State) : Bool :=
  ready s && !s.safe && (s.col 63).copy.isNone && (s.col 63).remapQ == [req false] && tileOn s 63 3 && queueRoom s 63 .rd 36 &&
  !quarantined s 63 && !octetOut s 63 3 3 && mclkEdge s

theorem test_meets_StorageIsMaintained :
    ((2 : Nat) ≤ 4 ∧ 542 + 2 ≤ 544 ∧ ((fresh 0).blank = false) ∧
      (⟨0, (List.range 4).map fun k => (k, storedWord 0 0)⟩ : Coded).blank = true) ∧
    ready up = true ∧ up.safe = false ∧ Within scrubbing ∧ heldEdge scrubbing = false ∧ scrubDue scrubbing 63 = true ∧
    scrubbable scrubbing 63 (rf scrubbing .colScrubPtr 63 14 0) = true ∧
    scrubDue scrubbingOn 63 = true ∧ scrubbable scrubbingOn 63 (rf scrubbingOn .colScrubPtr 63 14 0) = false ∧
    (([(flipped, (0x10000 : Word)), (flipped, 0), (fresh 9, 0x10000)]).all fun e =>
      ((scrubbed e.1 e.2).rdLanes.find? fun l => decide (l.col = 63 ∧ l.due ≤ (scrubbed e.1 e.2).run) && l.got.isSome &&
      (match l.use with | .scrub _ => true | _ => false)).isSome) = true ∧
    (readRow flipped).ce ≠ 0 ∧ ((readRow (fresh 9)).ce = 0 ∧ (readRow (fresh 9)).ue = 0) ∧
    remapRefusal up 63 false 3 31 2047 = none ∧ remapRefusal up 63 true 3 31 0 = none ∧ (up.col 63).remapQ.length < 4 ∧
    ready fullQueue = true ∧ remapRefusal fullQueue 63 false 3 31 2047 = none ∧ remapRefusal fullQueue 63 true 3 31 0 = none ∧
    4 ≤ (fullQueue.col 63).remapQ.length ∧
    ready banksTaken = true ∧ remapRefusal banksTaken 63 true 3 31 0 = some 3 ∧
    begins (judged freshTile []) = true ∧ (rowStep (judged freshTile []) 63 3 31 2047).isSome = true ∧
    begins (judged freshTile noRows) = true ∧ rowStep (judged freshTile noRows) 63 3 31 2047 = none ∧
    freeSpareBank ((judged freshTile noRows).tile 63 3) = some 0 ∧
    begins (judged takenTile noRows) = true ∧ rowStep (judged takenTile noRows) 63 3 31 2047 = none ∧
    freeSpareBank ((judged takenTile noRows).tile 63 3) = none ∧
    Within (copying false .readIssued) ∧
    (((copying false .readIssued).rdLanes.find? fun l => decide (l.col = 63 ∧ l.use = .copyRd ∧ l.due ≤ (copying false .readIssued).run) &&
      l.got.isSome).any fun l => l.grans == [(⟨3, 31, 2047⟩, flipped)]) = true ∧
    ((copying false .readIssued).col 63).copy.isSome = true ∧ queueRoom (copying false .readIssued) 63 .wr 36 = true ∧
    (([false, true] : List Bool).all fun r => ((copying r .done).col 63).copy == some ⟨r, 3, 31, 2047, 1, 1, true, .done⟩) = true := by
  decide +kernel

/-! ### Statements on power, resets and temperature -/

/-- Domain `d` moves to a state by this edge. -/
def moving_ (d st dest : Nat) : State := { up with domains := [(d, ⟨st, some (dest, 480000)⟩)], mem := [⟨0, 5⟩] }
def inLife (l : Life) : State := { up with life := l }

/-- Every port is disabled. -/
def resting : State := (List.range 16).foldl (fun s g => setRg s .pgCtrl g 0) up

/-- Block retention, which phj_wake may end. -/
def wakeable : State := setRg (inLife .retained) .pwrCtrl 0 0x104

/-- A warm reset in progress for longer than its time, everything empty; or just begun. -/
def warm (l : Life) (at_ : Nat) : State := { inLife l with rsts := [(0, ⟨false, false, false, true, false, false, at_, at_, 0⟩)] }

/-- A tile in ON copies a row while it goes to OFF. -/
def leavingOn : State :=
  { moving_ 63 0 2 with cols := [(63, { idleCol with copy := some ⟨false, 0, 31, 2047, 1, 1, true, .readQueued⟩ })] }

theorem test_meets_PowerAndResets :
    ready up = true ∧ domRefused up 300 3 = true ∧ domRefused up 300 0 = false ∧ domRefused up 255 1 = false ∧
    (dom up 255).moving = none ∧ (dom up 255).st = 0 ∧
    Within (moving_ 255 2 0) ∧ (dom (moving_ 255 2 0) 255).moving = some (0, 480000) ∧ (dom (moving_ 255 2 0) 255).st = 2 ∧
    Within leavingOn ∧ (dom leavingOn 63).moving = some (2, 480000) ∧ (dom leavingOn 63).st = 0 ∧
    Within (moving_ 300 0 1) ∧ (dom (moving_ 300 0 1) 300).moving = some (1, 480000) ∧
    retainBusy up = true ∧ ready resting = true ∧ retainBusy resting = false ∧ (List.range 301).any (domBusy resting) = false ∧
    resting.safe = false ∧
    (let s := { resting with domains := [(0, ⟨0, some (1, 480400)⟩)] }
     ready s = true ∧ retainBusy s = false ∧ (List.range 301).any (domBusy s) = true) ∧
    free wakeable mp = true ∧ wakeable.life = .retained ∧ bitOf (rg wakeable .pwrCtrl) 8 = true ∧
    (inLife (.entering 480000)).wake = false ∧ (inLife (.entering 480000)).warmNext = false ∧
    aclkEdge (inLife (.leaving 480000 479000)) = true ∧ (inLife (.leaving 480000 479000)).warmNext = false ∧
    331200 ≤ (inLife .starting).clk ∧
    (([.warmHeld, .warmBusy true, .warmBusy false] : List Life).all fun l => warmDone (warm l 478800) && !warmDone (warm l 478801) &&
      aclkEdge (warm l 478800) && !aclkEdge { warm l 478800 with clk := 480001 }) = true := by decide +kernel

end Sys2Proof.Machine.Tests
end

section
/-! The address map (R16, R564 to R566): an offset that an index spells reads back, and no two families share one. -/

namespace Sys2Proof.Machine

/-! ### Offsets and indices of a family -/

/-- The greatest offset that indices in range add to a family's base. -/
def dimReach : List (Nat × Nat) → Nat
  | [] => 0
  | (st, n) :: t => (n - 1) * st + dimReach t

/-- Every stride leaves room for the dimensions inside it. -/
def dimsNest : List (Nat × Nat) → Bool
  | [] => true
  | (st, _) :: t => decide (dimReach t < st) && dimsNest t

/-- An index in range splits into its outermost place and the index inside it. -/
theorem dimSplit {n p i : Nat} (h : i < n * p) : i / p < n ∧ i % p < p :=
  ⟨Nat.div_lt_of_lt_mul (Nat.mul_comm n p ▸ h), Nat.mod_lt _ (Nat.pos_of_mul_pos_left (Nat.zero_lt_of_lt h))⟩

theorem dimOffset_le_dimReach : ∀ (dims : List (Nat × Nat)) {i : Nat}, i < (dims.map Prod.snd).prod →
    dimOffset dims i ≤ dimReach dims
  | [], _, _ => Nat.le_refl 0
  | (st, n) :: t, i, h => by
    obtain ⟨hq, hr⟩ := dimSplit (n := n) (p := (t.map Prod.snd).prod) (by simpa using h)
    exact Nat.add_le_add (Nat.mul_le_mul_right st (by omega)) (dimOffset_le_dimReach t hr)

/-- An offset that an index spells reads back as that index. -/
theorem dimIndex_dimOffset : ∀ (dims : List (Nat × Nat)) (acc : Nat) {i : Nat}, dimsNest dims = true →
    i < (dims.map Prod.snd).prod → dimIndex dims acc (dimOffset dims i) = some (acc * (dims.map Prod.snd).prod + i)
  | [], acc, i, _, h => by
    have : i = 0 := by simpa using h
    simp [dimIndex, dimOffset, this]
  | (st, n) :: t, acc, i, hn, h => by
    simp only [dimsNest, Bool.and_eq_true, decide_eq_true_eq] at hn
    simp only [List.map_cons, List.prod_cons] at h ⊢
    obtain ⟨hq, hr⟩ := dimSplit h
    have hlt : dimOffset t (i % (t.map Prod.snd).prod) < st := Nat.lt_of_le_of_lt (dimOffset_le_dimReach t hr) hn.1
    have hdiv : (i / (t.map Prod.snd).prod * st + dimOffset t (i % (t.map Prod.snd).prod)) / st = i / (t.map Prod.snd).prod := by
      rw [Nat.mul_comm, Nat.mul_add_div (by omega), Nat.div_eq_of_lt hlt, Nat.add_zero]
    have hmod : (i / (t.map Prod.snd).prod * st + dimOffset t (i % (t.map Prod.snd).prod)) % st =
        dimOffset t (i % (t.map Prod.snd).prod) := by
      rw [Nat.mul_comm, Nat.mul_add_mod, Nat.mod_eq_of_lt hlt]
    rw [dimOffset, dimIndex, hdiv, hmod, if_pos hq, dimIndex_dimOffset t _ hn.2 hr, Nat.add_mul, Nat.mul_assoc, Nat.add_assoc,
      Nat.div_add_mod']

/-- An index read from an offset is in range and spells that offset. -/
theorem dimOffset_of_dimIndex : ∀ (dims : List (Nat × Nat)) (acc off : Nat) {k : Nat}, dimIndex dims acc off = some k →
    ∃ i, i < (dims.map Prod.snd).prod ∧ k = acc * (dims.map Prod.snd).prod + i ∧ dimOffset dims i = off
  | [], acc, off, k, h => by
    simp only [dimIndex, Option.ite_none_right_eq_some, Option.some.injEq] at h
    exact ⟨0, by simp, by simp [h.2], h.1.symm⟩
  | (st, n) :: t, acc, off, k, h => by
    simp only [dimIndex, Option.ite_none_right_eq_some] at h
    obtain ⟨j, hj, rfl, hoff⟩ := dimOffset_of_dimIndex t _ _ h.2
    have hdiv : (off / st * (t.map Prod.snd).prod + j) / (t.map Prod.snd).prod = off / st := by
      rw [Nat.mul_comm, Nat.mul_add_div (by omega), Nat.div_eq_of_lt hj, Nat.add_zero]
    have hmod : (off / st * (t.map Prod.snd).prod + j) % (t.map Prod.snd).prod = j := by
      rw [Nat.mul_comm, Nat.mul_add_mod, Nat.mod_eq_of_lt hj]
    refine ⟨off / st * (t.map Prod.snd).prod + j, ?_, ?_, ?_⟩
    · rw [List.map_cons, List.prod_cons]
      calc _ < off / st * (t.map Prod.snd).prod + (t.map Prod.snd).prod := Nat.add_lt_add_left hj _
        _ = (off / st + 1) * (t.map Prod.snd).prod := (Nat.succ_mul _ _).symm
        _ ≤ n * (t.map Prod.snd).prod := Nat.mul_le_mul_right _ h.1
    · rw [List.map_cons, List.prod_cons, Nat.add_mul, Nat.mul_assoc, Nat.add_assoc]
    · rw [dimOffset, hdiv, hmod, hoff, Nat.div_add_mod']

/-- The row of a family reads an index's offset back. -/
theorem index_offset {id : RegId} {i : Nat} (hn : dimsNest id.row.dims = true) (hi : i < id.size) :
    id.row.index (id.offset i) = some i := by
  unfold RegRow.index RegId.offset
  rw [if_neg (by omega), Nat.add_sub_cancel_left, dimIndex_dimOffset _ _ hn hi, Nat.zero_mul, Nat.zero_add]

/-- A row answers only at its family's offsets. -/
theorem offset_of_index {id : RegId} {off i : Nat} (h : id.row.index off = some i) : i < id.size ∧ off = id.offset i := by
  unfold RegRow.index at h
  split at h
  · cases h
  · obtain ⟨j, hj, rfl, hoff⟩ := dimOffset_of_dimIndex _ _ _ h
    rw [Nat.zero_mul, Nat.zero_add]
    exact ⟨hj, by rw [RegId.offset, hoff]; omega⟩

/-! ### Families apart -/

/-- What the indices of a family can add to its base, up to a multiple of `m`: the dimensions whose stride `m` divides add nothing. -/
def dimReachMod (m : Nat) : List (Nat × Nat) → Nat
  | [] => 0
  | (st, n) :: t => (if st % m = 0 then 0 else (n - 1) * st) + dimReachMod m t

/-- Families that are told apart modulo `m`: each keeps to one stretch of residues, and one stretch ends before the other begins. With
`m = 0` the residue is the offset itself. -/
def apartMod (m : Nat) (a b : RegRow) : Bool :=
  let la := a.base % m
  let ha := la + dimReachMod m a.dims
  let lb := b.base % m
  let hb := lb + dimReachMod m b.dims
  (Nat.beq m 0 || (Nat.blt ha m && Nat.blt hb m)) && (Nat.blt ha lb || Nat.blt hb la)

/-- Families told apart by their ranges, or by a stride of the first: such families interleave. -/
def rowsApart (a b : RegRow) : Bool := apartMod 0 a b || a.dims.any fun d => apartMod d.1 a b

/-- Every family of a list is told apart from each after it. -/
def allApart : List RegRow → Bool
  | [] => true
  | a :: t => t.all (rowsApart a) && allApart t

theorem dimOffset_mod (m : Nat) : ∀ (dims : List (Nat × Nat)) {i : Nat}, i < (dims.map Prod.snd).prod →
    ∃ r, r ≤ dimReachMod m dims ∧ dimOffset dims i % m = r % m
  | [], _, _ => ⟨0, Nat.le_refl 0, rfl⟩
  | (st, n) :: t, i, h => by
    obtain ⟨hq, hr⟩ := dimSplit (n := n) (p := (t.map Prod.snd).prod) (by simpa using h)
    obtain ⟨r, hle, hmod⟩ := dimOffset_mod m t hr
    by_cases hs : st % m = 0
    · refine ⟨r, by simpa [dimReachMod, hs] using hle, ?_⟩
      rw [dimOffset, Nat.add_mod, Nat.mul_mod, hs, Nat.mul_zero, Nat.zero_mod, Nat.zero_add, Nat.mod_mod, hmod]
    · refine ⟨i / (t.map Prod.snd).prod * st + r, ?_, ?_⟩
      · rw [dimReachMod, if_neg hs]
        exact Nat.add_le_add (Nat.mul_le_mul_right st (by omega)) hle
      · rw [dimOffset, Nat.add_mod, hmod, ← Nat.add_mod]

/-- Modulo `m` a register lies in its family's stretch of residues. -/
theorem offset_mod {m i : Nat} {id : RegId} (hi : i < id.size) (hm : m = 0 ∨ id.row.base % m + dimReachMod m id.row.dims < m) :
    id.row.base % m ≤ id.offset i % m ∧ id.offset i % m ≤ id.row.base % m + dimReachMod m id.row.dims := by
  obtain ⟨r, hle, hmod⟩ := dimOffset_mod m id.row.dims hi
  have hoff : id.offset i % m = (id.row.base % m + r) % m := by
    rw [RegId.offset, Nat.add_mod, hmod, Nat.add_mod_mod]
  have hfit : (id.row.base % m + r) % m = id.row.base % m + r := by
    rcases hm with rfl | hm
    · exact Nat.mod_zero _
    · exact Nat.mod_eq_of_lt (by omega)
  omega

/-- Families told apart modulo some number share no offset. -/
theorem offset_ne_of_apartMod {m i j : Nat} {a b : RegId} (hi : i < a.size) (hj : j < b.size)
    (h : apartMod m a.row b.row = true) : a.offset i ≠ b.offset j := by
  simp only [apartMod, Bool.and_eq_true, Bool.or_eq_true, Nat.blt_eq, Nat.beq_eq] at h
  obtain ⟨hfit, hsep⟩ := h
  have ha := offset_mod (m := m) hi (hfit.imp_right And.left)
  have hb := offset_mod (m := m) hj (hfit.imp_right And.right)
  intro e
  rw [e] at ha
  omega

theorem offset_ne_of_rowsApart {a b : RegId} {i j : Nat} (hi : i < a.size) (hj : j < b.size)
    (h : rowsApart a.row b.row = true) : a.offset i ≠ b.offset j := by
  rcases Bool.or_eq_true_iff.1 h with h | h
  · exact offset_ne_of_apartMod hi hj h
  · obtain ⟨d, -, hd⟩ := List.any_eq_true.1 h
    exact offset_ne_of_apartMod hi hj hd

/-- In a list of families apart a register's offset is found under its own family. -/
theorem regAtIn_offset {id : RegId} {i : Nat} (hn : dimsNest id.row.dims = true) (hi : i < id.size) :
    ∀ {l : List RegId}, allApart (l.map RegId.row) = true → id ∈ l → regAtIn l (id.offset i) = some (id, i)
  | a :: t, hp, hmem => by
    rw [List.map_cons, allApart, Bool.and_eq_true, List.all_map, List.all_eq_true] at hp
    obtain ⟨hhead, htail⟩ := hp
    rw [regAtIn]
    rcases List.mem_cons.1 hmem with rfl | hmem
    · rw [index_offset hn hi]
    · cases hidx : a.row.index (id.offset i) with
      | none => exact regAtIn_offset hn hi htail hmem
      | some j =>
        obtain ⟨hj, he⟩ := offset_of_index hidx
        exact absurd he.symm (offset_ne_of_rowsApart hj hi (hhead id hmem))

/-! ### The tables of the register index (R564 to R566) -/

theorem RegId.mem_all (id : RegId) : id ∈ RegId.all :=
  List.mem_of_getElem? (i := id.num) (by cases id <;> rfl)

/-- Every two families of the register index are told apart. -/
theorem allApart_all : allApart (RegId.all.map RegId.row) = true := by decide +kernel

theorem all_rows : ∀ id ∈ RegId.all, dimsNest id.row.dims = true ∧ id.size < 1048576 ∧ id.row.base % 4 = 0 ∧
    ∀ d ∈ id.row.dims, d.1 % 4 = 0 := by decide +kernel

theorem RegId.dims_nest (id : RegId) : dimsNest id.row.dims = true := (all_rows id id.mem_all).1

theorem RegId.size_lt (id : RegId) : id.size < 1048576 := (all_rows id id.mem_all).2.1

theorem dimOffset_aligned : ∀ (dims : List (Nat × Nat)) (i : Nat), (∀ d ∈ dims, d.1 % 4 = 0) → dimOffset dims i % 4 = 0
  | [], _, _ => rfl
  | (st, n) :: t, i, h => by
    obtain ⟨hst, ht⟩ := List.forall_mem_cons.1 h
    rw [dimOffset, Nat.add_mod, dimOffset_aligned t _ ht, Nat.mul_mod, show st % 4 = 0 from hst]
    rfl

/-- Registers are whole words of control space. -/
theorem RegId.offset_aligned (id : RegId) (i : Nat) : id.offset i % 4 = 0 := by
  obtain ⟨-, -, hbase, hdims⟩ := all_rows id id.mem_all
  rw [RegId.offset, Nat.add_mod, hbase, dimOffset_aligned _ i hdims]

/-- The address map reads back. -/
theorem regAt_offset {id : RegId} {i : Nat} (hi : i < id.size) : regAt (id.offset i) = some (id, i) :=
  regAtIn_offset id.dims_nest hi allApart_all id.mem_all

theorem regAtIn_some {id : RegId} {off i : Nat} : ∀ {l : List RegId}, regAtIn l off = some (id, i) →
    i < id.size ∧ off = id.offset i
  | a :: t, h => by
    rw [regAtIn] at h
    cases hidx : a.row.index off with
    | none => exact regAtIn_some (by simpa [hidx] using h)
    | some j =>
      rw [hidx] at h
      cases h
      exact offset_of_index hidx

/-- A register answers only at its own address. -/
theorem regAddr_some {id : RegId} {addr i : Nat} (h : regAddr addr = some (id, i)) :
    i < id.size ∧ addr % 0x800000 = id.offset i ∧ addr < 0x1000000 := by
  unfold regAddr at h
  split at h
  · exact ⟨(regAtIn_some h).1, (regAtIn_some h).2, ‹_›⟩
  · cases h

/-- Settles O8: each family's row reads its own offsets back, and the families are told apart by their ranges or modulo a stride. -/
theorem addressMapIsExact : Obligations.AddressMapIsExact := by
  unfold Obligations.AddressMapIsExact
  exact fun id i hi => ⟨regAt_offset hi, id.offset_aligned i⟩

end Sys2Proof.Machine
end

section
/-! Accesses by address (R16, R163, R168): the one word a plain access names, what an accepted access or burst does. -/

namespace Sys2Proof.Machine

/-! ### Views and addresses -/

/-- The bytes of one word lie in one view. -/
theorem at_wordAddr (w : Who) (addr : Nat) : Who.at_ w (addr - addr % 4) = Who.at_ w addr := by
  simp only [Who.at_, Who.mk.injEq, decide_eq_decide, and_true, true_and]
  omega

/-- Both words of a beat of 64 bits lie in one view. -/
theorem at_highWord (w : Who) {addr : Nat} (h : addr % 8 = 0) : Who.at_ w (addr + 4) = Who.at_ w addr := by
  simp only [Who.at_, Who.mk.injEq, decide_eq_decide, and_true, true_and]
  omega

/-- The matrix's grant asks nothing of the view. -/
theorem Granted.at_ {s : State} {w : Who} (h : Granted s w) (addr : Nat) : Granted s (Who.at_ w addr) := h

/-- A register's address is a word's. -/
theorem regAddr_aligned {id : RegId} {addr i : Nat} (h : regAddr addr = some (id, i)) : addr % 4 = 0 := by
  obtain ⟨-, hoff, -⟩ := regAddr_some h
  have := id.offset_aligned i
  omega

/-- A burst of one beat, of whatever type, is at its address. -/
theorem beatAddr_single (f : AxiForm) (addr : Nat) : beatAddr f addr 1 0 = addr := by
  unfold beatAddr
  dsimp only
  split
  · rfl
  · rfl
  · generalize (if f.wide = true then 8 else 4) = sz
    have := Nat.mod_le addr sz
    rw [Nat.mul_one, Nat.sub_sub_self this, Nat.zero_mul, Nat.add_zero, Nat.mod_mod]
    omega

/-- A beat whose strobes name the word carries that word alone. -/
theorem beatWrites_wordBeat (f : AxiForm) {addr : Nat} (v : Word) (h : addr % 4 = 0) :
    beatWrites f addr 1 0 (wordBeat addr v) = [(addr, v)] := by
  unfold beatWrites wordBeat
  rw [beatAddr_single]
  by_cases h8 : addr % 8 = 0
  · have hv : (v.setWidth 64).setWidth 32 = v := by bv_omega
    simp [h8, hv]
  · have hv : (v.setWidth 64 <<< 32 >>> 32).setWidth 32 = v := by bv_omega
    have ha : addr - addr % 8 + 4 = addr := by omega
    simp [h8, hv, ha]

/-- A narrow read of one beat is a read of the word its address lies in. -/
theorem addrRead_word (w : Who) (addr : Nat) {f : AxiForm} (s : State) (hf : refusedForm f = false) (hw : f.wide = false) :
    addrRead w addr f 1 s = wordRead w (addr - addr % 4) s := by
  unfold addrRead
  simp [hf, beatWords, beatAddr_single, hw]

/-- A write of one word is a write of that word, in whatever form that is not refused. -/
theorem addrWrite_wordBeat (w : Who) {addr : Nat} {f : AxiForm} (v : Word) (s : State) (hf : refusedForm f = false)
    (h : addr % 4 = 0) : addrWrite w addr f [wordBeat addr v] s = wordWrite w addr v s :=
  addrWrite_word w addr v s f _ hf (by simp [beatWrites_wordBeat f v h])

/-! ### Accepted accesses of a running block -/

/-- The state an accepted access acts on: the grant of edge `g` taken, its answers apart from earlier ones. -/
def acting (s : State) (g : Nat) : State := { s with gate := g, answers := [] }

/-- A command acted once, with `u` the state its work left: its registers and captures are `u`'s, the array is kept, and `u`'s answers
follow the earlier ones, due after the time of the page. -/
def ActedAs (off sub : Nat) (write : Bool) (u s t : State) : Prop :=
  t.regs = u.regs ∧ t.captures = u.captures ∧ t.mem = s.mem ∧
    t.answers = s.answers ++ u.answers.map fun a => { a with due := s.clk + answerTime off, sub := sub, write := write }

/-- A command that is one accepted access acts once. -/
theorem steady_timed {s : State} {F f : State → State} {off sub g : Nat} {write : Bool} (hs : Running s)
    (h : F s = timed off sub write f { s with gate := g }) :
    ∃ t, steady s F = .next t ∧ ActedAs off sub write (f (acting s g)) s t :=
  ⟨_, steady_eq F hs.1, (congrArg State.regs h :), (congrArg State.captures h :), rfl, (congrArg State.answers h :)⟩

theorem RegsKept.of_acting {l : List (RegId × Nat)} {s t u : State} {g : Nat} (h : RegsKept l (acting s g) u)
    (ht : t.regs = u.regs) : RegsKept l s t := fun id i hi he => (rg_congr ht id i).trans (h id i hi he)

section
variable {s : State} {w : Who}

theorem wordRead_running (hs : Running s) {addr : Nat} (hw : FullView (Who.at_ w addr)) (hg : Granted s w) {id : RegId}
    {i : Nat} (hr : regAddr addr = some (id, i)) (hb : w.steward = false ∨ id ∉ [.sboxData, .sboxSet, .sboxClr]) :
    wordRead w addr s = timed (addr % 0x800000) (pageNo (addr % 0x800000)) false (readReg (Who.at_ w addr) id i)
      { s with gate := s.clk + 1 } := by
  unfold wordRead
  rw [hr, access_running hs hw (hg.at_ addr) _ _ _ _ _ _ (stewardBox_other hb)]

theorem wordWrite_running (hs : Running s) {addr : Nat} (hw : FullView (Who.at_ w addr)) (hg : Granted s w) {id : RegId}
    {i : Nat} (hr : regAddr addr = some (id, i)) (hb : w.steward = false ∨ id ∉ [.sboxData, .sboxSet, .sboxClr]) (v : Word) :
    wordWrite w addr v s = timed (addr % 0x800000) (pageNo (addr % 0x800000)) true (writeReg (Who.at_ w addr) id i v)
      { s with gate := s.clk + 1 } := by
  unfold wordWrite
  rw [hr, access_running hs hw (hg.at_ addr) _ _ _ _ _ _ (stewardBox_other hb)]

/-- A burst the matrix grants does its work at that edge. -/
theorem burst_running (hs : Running s) (hg : Granted s w) (addr : Nat) (write : Bool) (n : Nat) (f : State → State) :
    ∃ sub, burst w addr write n f s =
      timed (addr % 0x800000) sub write f { s with gate := s.clk + 1 + 4 * (n - 1) } :=
  ⟨subOf s (Who.at_ w addr) (regAddr addr) (addr % 0x800000) write 0, by
    unfold burst
    simp [hs.2, hg]⟩

/-- An access that is granted and does not go by the Steward's way reaches what it is routed to. -/
theorem access_accepted (hs : Running s) (hg : Granted s w) {r : Option (RegId × Nat)} (hb : stewardBox w r = false) (off : Nat)
    (write : Bool) (v : Word) (f : RegId → Nat → State → State) :
    access s w r off write v f =
      timed off (subOf s w r off write v) write (reached w r off write v f) { s with gate := s.clk + 1 } := by
  unfold access
  simp [hs.2, hg _, hb]

/-- No page of a running block is asleep. -/
theorem asleepPage_running (hs : Running s) (off : Nat) : asleepPage s off = false := by
  simp [asleepPage, hs.2]

theorem reached_register (hs : Running s) {r : Option (RegId × Nat)} {off : Nat} {write : Bool} {v : Word} {id : RegId} {i : Nat}
    (h : routed s w r write v = some (id, i)) (f : RegId → Nat → State → State) :
    reached w r off write v f s = f id i s := by
  unfold reached
  simp [asleepPage_running hs, h]

theorem reached_default (hs : Running s) {r : Option (RegId × Nat)} {off : Nat} {write : Bool} {v : Word}
    (h : routed s w r write v = none) (f : RegId → Nat → State → State) :
    reached w r off write v f s = defaultAnswer s w off write := by
  unfold reached
  simp [asleepPage_running hs, h]

end

/-! ### Wide registers (R15) -/

/-- Reading a low word captures its high word. -/
theorem readReg_low {id hi : RegId} (h : id.high = some hi) (w : Who) (i : Nat) (s : State) :
    readReg w id i s = answerWith (capture s w hi i) w (shown s w id i) false := by
  unfold RegId.high at h
  split at h <;> cases h <;> rfl

theorem readReg_low_regs {id hi : RegId} (h : id.high = some hi) (w : Who) (i : Nat) (s : State) :
    (readReg w id i s).regs = s.regs := by
  rw [readReg_low h, answerWith_ok _ _ _ _ (.inl rfl)]
  rfl

/-- What the words of a wide register show hangs neither on the matrix's grant nor on its answers. -/
theorem shown_acting {id hi : RegId} (h : id.high = some hi) (w : Who) (i : Nat) (s : State) (g : Nat) :
    shown (acting s g) w id i = shown s w id i ∧ shown (acting s g) w hi i = shown s w hi i := by
  unfold RegId.high at h
  split at h <;> cases h <;> exact ⟨rfl, rfl⟩

/-- The capture just made is the requester's for that word. -/
theorem captured_capture (s : State) (w : Who) (hi : RegId) (i : Nat) :
    captured (capture s w hi i) w hi i = some (shown s w hi i) := by
  have hnone : (s.captures.filter fun c => decide (c.who ≠ whoNum w)).find?
      (fun c => decide (c.who = whoNum w ∧ c.id = hi.num ∧ c.idx = i)) = none := by
    simp only [List.find?_eq_none, List.mem_filter, decide_eq_true_eq, not_and]
    exact fun c hc hw => absurd hw hc.2
  unfold captured capture dropCapture
  dsimp only
  rw [List.find?_append, hnone]
  simp

/-- The words of a wide register are not the Strongbox's. -/
theorem high_not_sbox {id hi : RegId} (h : id.high = some hi) : id ∉ [.sboxData, .sboxSet, .sboxClr] := by
  intro hm
  simp only [List.mem_cons, List.not_mem_nil, or_false] at hm
  rcases hm with rfl | rfl | rfl <;> cases h

/-! ### Counting SLVERR responses -/

theorem RegsKept.countErr (w : Who) (before n : Nat) (s : State) : RegsKept [(.mgmtErr, 0)] s (countErr w before n s) := by
  unfold Machine.countErr
  split
  · exact .refl _ s
  · exact .setRf _ _ _ _ _ _

theorem countErr_answers (w : Who) (before n : Nat) (s : State) : (countErr w before n s).answers = s.answers := by
  unfold countErr
  split <;> rfl

theorem countErr_captures (w : Who) (before n : Nat) (s : State) : (countErr w before n s).captures = s.captures := by
  unfold countErr
  split <;> rfl

/-! ### Read beats without effect (R168) -/

/-- `n` read beats of `w` are answered SLVERR: no register but MGMT.ERR and no capture changes. -/
def BeatsRefused (w : Who) (n : Nat) (s t : State) : Prop :=
  RegsKept [(.mgmtErr, 0)] s t ∧ t.captures = s.captures ∧
    ∃ m, t.answers = s.answers ++ m ∧ m.length = n ∧ ∀ a ∈ m, a.who = w ∧ a.err = true

theorem BeatsRefused.trans {w : Who} {m n : Nat} {s t u : State} (h1 : BeatsRefused w m s t) (h2 : BeatsRefused w n t u) :
    BeatsRefused w (m + n) s u := by
  obtain ⟨hr1, hc1, l1, ha1, hl1, hm1⟩ := h1
  obtain ⟨hr2, hc2, l2, ha2, hl2, hm2⟩ := h2
  refine ⟨(hr1.trans hr2).mono (by simp), hc2.trans hc1, l1 ++ l2, ?_, ?_, ?_⟩
  · rw [ha2, ha1, List.append_assoc]
  · rw [List.length_append, hl1, hl2]
  · exact fun a h => (List.mem_append.1 h).elim (hm1 a) (hm2 a)

theorem BeatsRefused.beatRefused (w : Who) (s : State) : BeatsRefused w 1 s (beatRefused w s) :=
  ⟨.trans (l := []) (.of_regs [] rfl) (.countErr w _ _ _), countErr_captures _ _ _ _, _, countErr_answers _ _ _ _, rfl, by simp⟩

theorem BeatsRefused.fold (w : Who) {α : Type} : ∀ (l : List α) (s : State),
    BeatsRefused w l.length s (l.foldl (fun s _ => Machine.beatRefused w s) s)
  | [], s => ⟨.refl _ s, rfl, [], by simp⟩
  | _ :: t, s => by
    rw [List.length_cons, Nat.add_comm]
    exact (BeatsRefused.beatRefused w s).trans (.fold w t _)

/-- Closing a burst marks its last answer and changes nothing else. -/
theorem BeatsRefused.burstEnd {w : Who} {n : Nat} {s t : State} (h : BeatsRefused w n s t) (hs : s.answers = []) :
    BeatsRefused w n s (burstEnd t) := by
  obtain ⟨hr, hc, m, ha, hl, hm⟩ := h
  rw [hs, List.nil_append] at ha
  have hend : RegsKept [] t (Machine.burstEnd t) := .of_regs [] rfl
  have hans : (Machine.burstEnd t).answers = s.answers ++ (Machine.burstEnd t).answers := by rw [hs, List.nil_append]
  refine ⟨hr.trans hend, hc, _, hans, ?_⟩
  unfold Machine.burstEnd
  dsimp only
  rw [ha]
  rcases List.eq_nil_or_concat m with rfl | ⟨l, a, rfl⟩
  · exact ⟨hl, by simp⟩
  · refine ⟨by simpa using hl, fun b hb => ?_⟩
    simp only [List.concat_eq_append, List.dropLast_concat, List.getLast?_append, List.getLast?_singleton, Option.some_or,
      Option.toList_some, List.map_cons, List.map_nil, List.mem_append, List.mem_singleton] at hb hm
    rcases hb with hb | rfl
    · exact hm b (.inl hb)
    · exact hm a (.inr rfl)

/-! ### The statement on reads -/

theorem lowWordRead_captures {w : Who} {addr i : Nat} {f : AxiForm} {id hi : RegId} {s : State} (hs : Running s)
    (hv : FullView (Who.at_ w addr)) (hg : Granted s w) (hf : refusedForm f = false) (hw : f.wide = false)
    (hr : regAddr (addr - addr % 4) = some (id, i)) (hh : id.high = some hi) :
    ∃ t, exec (.lowWordRead w ⟨addr, f, 1⟩) s = .next t ∧
      Answered (Who.at_ w (addr - addr % 4)) (shown s (Who.at_ w (addr - addr % 4)) id i) false
        (answerTime ((addr - addr % 4) % 0x800000)) s t ∧
      captured t (Who.at_ w addr) hi i = some (shown s (Who.at_ w addr) hi i) ∧
      RegsKept [] s t := by
  have hread : addrRead w addr f 1 s = timed ((addr - addr % 4) % 0x800000) (pageNo ((addr - addr % 4) % 0x800000)) false
      (readReg (Who.at_ w (addr - addr % 4)) id i) { s with gate := s.clk + 1 } := by
    rw [addrRead_word w addr s hf hw, wordRead_running hs (at_wordAddr w addr ▸ hv) hg hr (.inr (high_not_sbox hh))]
  rw [at_wordAddr] at hread ⊢
  obtain ⟨t, ht, hregs, hcaps, -, hans⟩ := steady_timed hs (F := addrRead w addr f 1) hread
  obtain ⟨hlo, hhi⟩ := shown_acting hh (Who.at_ w addr) i s (s.clk + 1)
  have hkept := RegsKept.of_acting (.of_regs [] (readReg_low_regs hh (Who.at_ w addr) i (acting s (s.clk + 1)))) hregs
  rw [readReg_low hh, answerWith_ok _ _ _ _ (.inl rfl), hlo] at hcaps hans
  refine ⟨t, ht, ⟨_, _, hans⟩, ?_, hkept⟩
  rw [← hhi, ← captured_capture]
  unfold captured
  rw [hcaps]

theorem refusedRead_answered {w : Who} {addr n : Nat} {f : AxiForm} {s : State} (hs : Running s) (hg : Granted s w)
    (hf : refusedForm f = true) :
    ∃ t l, exec (.lowWordRead w ⟨addr, f, n⟩) s = .next t ∧ RegsKept [(.mgmtErr, 0)] s t ∧ t.answers = s.answers ++ l ∧
      l.length = n ∧ (∀ a ∈ l, a.who = w ∧ a.err = true ∧ a.due = s.clk + answerTime (addr % 0x800000)) ∧
      t.captures = s.captures := by
  obtain ⟨sub, hburst⟩ := burst_running hs hg addr false 0
    fun s => burstEnd (((List.range n).map (beatWords f addr n)).foldl (fun s _ => beatRefused w s) s)
  have hread : addrRead w addr f n s = _ := (if_pos hf).trans hburst
  obtain ⟨t, ht, hregs, hcaps, -, hans⟩ := steady_timed hs hread
  obtain ⟨hkept, hcaps', m, ha, hl, hm⟩ := (BeatsRefused.fold w ((List.range n).map (beatWords f addr n))
    (acting s (s.clk + 1))).burstEnd rfl
  rw [show (acting s (s.clk + 1)).answers = [] from rfl, List.nil_append] at ha
  refine ⟨t, _, ht, hkept.of_acting hregs, hans, ?_, fun a hmem => ?_, hcaps.trans hcaps'⟩
  · rw [List.length_map, ha]
    simpa using hl
  · obtain ⟨b, hb, rfl⟩ := List.mem_map.1 hmem
    rw [ha] at hb
    exact ⟨(hm b hb).1, (hm b hb).2, rfl⟩

/-- Settles O9: a low-word read captures through `readReg`, and the beats of a refused form are folded one by one. That all beats of a
refused burst are due at one edge is the model's choice (log entry 57). -/
theorem lowWordReadCaptures : Obligations.LowWordReadCaptures := by
  unfold Obligations.LowWordReadCaptures
  exact ⟨fun _ _ _ _ _ _ _ hs hv hg hf hw hr hh => lowWordRead_captures hs hv hg hf hw hr hh,
    fun _ _ _ _ _ hs hg hf => refusedRead_answered hs hg hf⟩

end Sys2Proof.Machine
end

section
/-! Writes by address and the default target (R12, R168, R396, R526). -/

namespace Sys2Proof.Machine

/-! ### Registers apart -/

/-- Two registers share a key only where they are one. -/
theorem key_ne_of_ne {a b : RegId} {i j : Nat} (hi : i < a.size) (hj : j < b.size) (h : (a, i) ≠ (b, j)) :
    a.key i ≠ b.key j := fun e => by
  obtain ⟨rfl, rfl⟩ := RegId.key_inj (Nat.lt_trans hi a.size_lt) (Nat.lt_trans hj b.size_lt) e
  exact h rfl

/-- A register stored as it stands changes nothing. -/
theorem RegsKept.setRg_self (s : State) (id : RegId) {i : Nat} (hi : i < 1048576) :
    RegsKept [] s (Machine.setRg s id i (rg s id i)) := fun b j hj _ => by
  by_cases h : id.key i = b.key j
  · obtain ⟨rfl, rfl⟩ := RegId.key_inj hi hj h
    exact rg_setRg_same _ _ _ _
  · exact rg_setRg_other s _ h

theorem setFld_self (w : Word) (hi lo : Nat) : setFld w hi lo (fld w hi lo) = w := by
  ext k hk
  rw [← BitVec.getLsbD_eq_getElem, ← BitVec.getLsbD_eq_getElem, testBit_setFld _ _ _ _ _ hk, fld_testBit]
  split
  · rw [decide_eq_true (by omega), Bool.true_and, Nat.add_sub_cancel' (by omega)]
  · rfl

/-- A burst without an SLVERR response counts none. -/
theorem RegsKept.countErr_zero (w : Who) {before : Nat} {s : State} (h : before = rf s .mgmtErr 0 15 0) :
    RegsKept [] s (Machine.countErr w before 0 s) := by
  unfold Machine.countErr
  split
  · exact .refl [] s
  · have hlt : rf s .mgmtErr 0 15 0 < 2 ^ 16 := fld_lt _ _ _
    rw [h, Nat.add_zero, Nat.min_eq_right (by omega)]
    unfold Machine.setRf rf
    rw [setFld_self]
    exact .setRg_self s .mgmtErr (by decide)

/-- An SLVERR response to the management port counts in MGMT.ERR, up to its top. -/
theorem rf_countErr (w : Who) (n : Nat) (s : State) :
    rf (countErr w (rf s .mgmtErr 0 15 0) n s) .mgmtErr 0 15 0 =
      if w.steward then rf s .mgmtErr 0 15 0 else min 65535 (rf s .mgmtErr 0 15 0 + n) := by
  unfold countErr
  split
  · rfl
  · rw [rf_setRf_same _ _ _ _ _ _ (by decide) (by decide), Nat.mod_eq_of_lt (by omega)]

/-! ### Plain registers (R12) -/

/-- Registers whose fields are all plain read and write fields, for which the statement on writes speaks. -/
def plainRegs : List RegId := [.lotTicket, .thmThr, .cmUvTask, .cmUvBells]

/-- A word written to a plain register: its writable bits alone. -/
def plainWord (id : RegId) (old v : Word) : Word := (old &&& ~~~id.row.rw) ||| (v &&& id.row.rw)

theorem plainRegs_cases {P : RegId → Prop} (h1 : P .lotTicket) (h2 : P .thmThr) (h3 : P .cmUvTask) (h4 : P .cmUvBells) :
    ∀ id ∈ plainRegs, P id := by
  simp [plainRegs, h1, h2, h3, h4]

/-- Every writable field of a plain register is one of software's, and no write clears any. -/
theorem plain_masks (i : Nat) : ∀ id ∈ plainRegs, softMask id i = id.row.rw ∧ sealMask id i = 0 ∧ id.row.w1c = 0 :=
  plainRegs_cases ⟨rfl, rfl, rfl⟩ ⟨rfl, rfl, rfl⟩ ⟨rfl, rfl, rfl⟩ ⟨rfl, rfl, rfl⟩

theorem plain_not_refused (s : State) : ∀ id ∈ plainRegs, writeRefused s id = false :=
  plainRegs_cases (by simp [writeRefused, starts]) (by simp [writeRefused, starts]) (by simp [writeRefused, starts])
    (by simp [writeRefused, starts])

theorem plain_effect (w : Who) (i : Nat) (v : Word) (s : State) : ∀ id ∈ plainRegs, writeRefused s id = false →
    writeReg w id i v s = ok w (plainWrite w id i v s) :=
  plainRegs_cases (fun h => if_neg (by simp [h])) (fun h => if_neg (by simp [h])) (fun h => if_neg (by simp [h]))
    (fun h => if_neg (by simp [h]))

/-- A write of a plain register stores its writable bits and is answered OKAY. -/
theorem writeReg_plain {id : RegId} (h : id ∈ plainRegs) (w : Who) (i : Nat) (v : Word) (s : State) :
    writeReg w id i v s = ok w (setRg s id i (plainWord id (rg s id i) v)) := by
  obtain ⟨hsoft, hseal, hclear⟩ := plain_masks i id h
  rw [plain_effect w i v s id h (plain_not_refused s id h), plainWrite]
  have hkept : ~~~(v &&& 0 : Word) = BitVec.allOnes 32 := by rw [show (v &&& 0 : Word) = 0 from BitVec.and_zero]; rfl
  simp only [hsoft, hseal, hclear, ite_self, hkept, BitVec.and_allOnes, plainWord]
  rw [show id.row.rw ||| 0 = id.row.rw from BitVec.or_zero]

theorem ok_eq (w : Who) (s : State) : ok w s = { s with answers := s.answers ++ [⟨w, 0, false, s.clk, 0, false, false⟩] } :=
  answerWith_ok s w 0 false (.inl rfl)

theorem plain_not_sbox : ∀ id ∈ plainRegs, id ∉ [.sboxData, .sboxSet, .sboxClr] :=
  plainRegs_cases (by decide) (by decide) (by decide) (by decide)

/-- A plain register is none that is not plain. -/
theorem plain_key_ne {id b : RegId} {i j : Nat} (h : id ∈ plainRegs) (hi : i < id.size) (hj : j < b.size) (hb : b ∉ plainRegs) :
    id.key i ≠ b.key j :=
  key_ne_of_ne hi hj fun e => hb (by
    obtain ⟨rfl, -⟩ := Prod.mk.inj e
    exact h)

/-- A refused write is not the Strongbox's. -/
theorem refused_not_sbox {id : RegId} {s : State} (h : writeRefused s id = true) : id ∉ [.sboxData, .sboxSet, .sboxClr] := by
  intro hm
  simp only [List.mem_cons, List.not_mem_nil, or_false] at hm
  rcases hm with rfl | rfl | rfl <;> simp [writeRefused, starts] at h

/-! ### Writes of one word -/

section
variable {s : State} {w : Who} {addr i : Nat} {f : AxiForm} {id : RegId}

/-- An accepted write of one word does what the register's rules say, once. -/
theorem registerWrite_word (hs : Running s) (hv : FullView (Who.at_ w addr)) (hg : Granted s w) (hf : refusedForm f = false)
    (hr : regAddr addr = some (id, i)) (hb : w.steward = false ∨ id ∉ [.sboxData, .sboxSet, .sboxClr]) (v : Word) :
    ∃ t, exec (.registerWrite w ⟨addr, f⟩ [wordBeat addr v]) s = .next t ∧
      ActedAs (addr % 0x800000) (pageNo (addr % 0x800000)) true
        (writeReg (Who.at_ w addr) id i v (acting s (s.clk + 1))) s t :=
  steady_timed hs <| by
    rw [addrWrite_wordBeat w v s hf (regAddr_aligned hr), wordWrite_running hs hv hg hr hb v]

theorem registerWrite_plain (hs : Running s) (hv : FullView (Who.at_ w addr)) (hg : Granted s w) (hf : refusedForm f = false)
    (hp : id ∈ plainRegs) (hr : regAddr addr = some (id, i)) (v : Word) :
    ∃ t, exec (.registerWrite w ⟨addr, f⟩ [wordBeat addr v]) s = .next t ∧
      rg t id i = plainWord id (rg s id i) v ∧ RegsKept [(id, i)] s t ∧
      Answered (Who.at_ w addr) 0 false (answerTime (addr % 0x800000)) s t := by
  obtain ⟨t, ht, hregs, -, -, hans⟩ := registerWrite_word hs hv hg hf hr (.inr (plain_not_sbox id hp)) v
  rw [writeReg_plain hp, ok_eq] at hregs hans
  refine ⟨t, ht, ?_, ?_, _, _, hans⟩
  · exact (rg_congr hregs id i).trans (rg_setRg_same _ _ _ _)
  · exact RegsKept.of_acting (RegsKept.setRg (acting s (s.clk + 1)) id i _) hregs

theorem registerWrite_refused (hs : Running s) (hv : FullView (Who.at_ w addr)) (hg : Granted s w) (hf : refusedForm f = false)
    (hr : regAddr addr = some (id, i)) (hw : writeRefused s id = true) (v : Word) :
    ∃ t, exec (.registerWrite w ⟨addr, f⟩ [wordBeat addr v]) s = .next t ∧ RegsKept [(.mgmtErr, 0)] s t ∧
      Answered (Who.at_ w addr) 0 true (answerTime (addr % 0x800000)) s t := by
  obtain ⟨t, ht, hregs, -, -, hans⟩ := registerWrite_word hs hv hg hf hr (.inr (refused_not_sbox hw)) v
  have hwrite : writeReg (Who.at_ w addr) id i v (acting s (s.clk + 1)) = answerWith (acting s (s.clk + 1)) (Who.at_ w addr) 0 true :=
    if_pos hw
  rw [hwrite] at hregs hans
  rw [answerWith_answers] at hans
  exact ⟨t, ht, RegsKept.of_acting (.answerWith _ _ _ _) hregs, _, _, hans⟩

end

/-! ### Beats of 64 bits, refused forms (R168) -/

/-- A beat whose strobes are all set names both its words. -/
theorem beatWrites_full (f : AxiForm) {addr : Nat} (d : BitVec 64) (h : addr % 8 = 0) :
    beatWrites f addr 1 0 ⟨d, 0xFF⟩ = [(addr, d.setWidth 32), (addr + 4, (d >>> 32).setWidth 32)] := by
  unfold beatWrites
  rw [beatAddr_single]
  simp [h]

theorem addrWrite_full (w : Who) {addr : Nat} {f : AxiForm} (d : BitVec 64) (s : State) (hf : refusedForm f = false)
    (h : addr % 8 = 0) : ∃ n, addrWrite w addr f [⟨d, 0xFF⟩] s =
      burst w addr true n (burstWrite w [(addr, d.setWidth 32), (addr + 4, (d >>> 32).setWidth 32)] false) s := by
  have hl : ((List.range [(⟨d, 0xFF⟩ : MgmtBeat)].length).zip [(⟨d, 0xFF⟩ : MgmtBeat)]).map
      (fun e => beatWrites f addr [(⟨d, 0xFF⟩ : MgmtBeat)].length e.1 e.2) =
      [[(addr, d.setWidth 32), (addr + 4, (d >>> 32).setWidth 32)]] := congrArg (fun x => [x]) (beatWrites_full f d h)
  refine ⟨loadWords [(addr, d.setWidth 32), (addr + 4, (d >>> 32).setWidth 32)], ?_⟩
  unfold addrWrite
  simp only [hl, hf]
  rfl

/-- What a word written to a plain register leaves. -/
def plainDone (w : Who) (id : RegId) (i : Nat) (v : Word) (s : State) : State :=
  { setRg s id i (plainWord id (rg s id i) v) with answers := s.answers ++ [⟨w, 0, false, s.clk, 0, false, false⟩] }

theorem RegsKept.plainDone (w : Who) (id : RegId) (i : Nat) (v : Word) (s : State) :
    RegsKept [(id, i)] s (plainDone w id i v s) := RegsKept.setRg s id i _

theorem rg_plainDone (w : Who) (id : RegId) (i : Nat) (v : Word) (s : State) :
    rg (plainDone w id i v s) id i = plainWord id (rg s id i) v := rg_setRg_same _ _ _ _

section
variable {w : Who} {a b i j : Nat} {id jd : RegId} {s : State}

/-- A word of a burst that names a plain register writes it. -/
theorem reached_plain (hs : Running s) (hv : FullView (Who.at_ w a)) (ha : regAddr a = some (id, i)) (hp : id ∈ plainRegs)
    (off : Nat) (v : Word) :
    reached (Who.at_ w a) (regAddr a) off true v (fun id i => writeReg (Who.at_ w a) id i v) s =
      plainDone (Who.at_ w a) id i v s := by
  rw [ha, reached_register hs (routed_full hv _ _ _ _), writeReg_plain hp, ok_eq]
  rfl

/-- A burst of two words of plain registers has one response, OKAY. -/
theorem burstWrite_plain (hs : Running s) (hva : FullView (Who.at_ w a)) (hvb : FullView (Who.at_ w b))
    (ha : regAddr a = some (id, i)) (hb : regAddr b = some (jd, j)) (hp : id ∈ plainRegs) (hq : jd ∈ plainRegs)
    (h0 : s.answers = []) (u v : Word) :
    burstWrite w [(a, u), (b, v)] false s = countErr w (rf s .mgmtErr 0 15 0) 0
      { plainDone (Who.at_ w b) jd j v (plainDone (Who.at_ w a) id i u s) with
        answers := [⟨w, 0, false, s.clk, 0, true, false⟩] } := by
  have hans : (plainDone (Who.at_ w b) jd j v (plainDone (Who.at_ w a) id i u s)).answers =
      [⟨Who.at_ w a, 0, false, s.clk, 0, false, false⟩, ⟨Who.at_ w b, 0, false, s.clk, 0, false, false⟩] := by
    simp [plainDone, h0]
  have hrun : Running (plainDone (Who.at_ w a) id i u s) := hs
  unfold burstWrite
  simp only [List.foldl_cons, List.foldl_nil, reached_plain hs hva ha hp, reached_plain hrun hvb hb hq, hans]
  rfl

/-- Two registers of such a burst each take their own word, and no other register changes. -/
theorem burstWrite_plain_regs (hs : Running s) (hva : FullView (Who.at_ w a)) (hvb : FullView (Who.at_ w b))
    (ha : regAddr a = some (id, i)) (hb : regAddr b = some (jd, j)) (hp : id ∈ plainRegs) (hq : jd ∈ plainRegs)
    (h0 : s.answers = []) (hne : id.key i ≠ jd.key j) (u v : Word) :
    ∃ t, burstWrite w [(a, u), (b, v)] false s = t ∧ rg t id i = plainWord id (rg s id i) u ∧
      rg t jd j = plainWord jd (rg s jd j) v ∧ RegsKept [(id, i), (jd, j)] s t ∧
      t.answers = [⟨w, 0, false, s.clk, 0, true, false⟩] := by
  obtain ⟨hi, -, -⟩ := regAddr_some ha
  obtain ⟨hj, -, -⟩ := regAddr_some hb
  have hi' := Nat.lt_trans hi id.size_lt
  have hj' := Nat.lt_trans hj jd.size_lt
  have hk1 := RegsKept.plainDone (Who.at_ w a) id i u s
  have hk2 := RegsKept.plainDone (Who.at_ w b) jd j v (plainDone (Who.at_ w a) id i u s)
  have hplain : ∀ e ∈ [(id, i), (jd, j)], e.1.key e.2 ≠ RegId.mgmtErr.key 0 := by
    simp only [List.forall_mem_cons, List.not_mem_nil, false_imp_iff, implies_true, and_true]
    exact ⟨plain_key_ne hp hi (by decide) (by decide), plain_key_ne hq hj (by decide) (by decide)⟩
  have herr := congrArg (fld · 15 0) ((hk1.trans hk2) .mgmtErr 0 (by decide) hplain).symm
  have hk3 : RegsKept [] (plainDone (Who.at_ w b) jd j v (plainDone (Who.at_ w a) id i u s)) (countErr w (rf s .mgmtErr 0 15 0) 0
      { plainDone (Who.at_ w b) jd j v (plainDone (Who.at_ w a) id i u s) with
        answers := [⟨w, 0, false, s.clk, 0, true, false⟩] }) := RegsKept.countErr_zero w herr
  refine ⟨_, burstWrite_plain hs hva hvb ha hb hp hq h0 u v, ?_, ?_, (hk1.trans hk2).trans hk3, countErr_answers _ _ _ _⟩
  · rw [hk3 id i hi' (by simp), hk2 id i hi' (by simpa using hne.symm), rg_plainDone]
  · rw [hk3 jd j hj' (by simp), rg_plainDone, hk1 jd j hj' (by simpa using hne)]

end

theorem beatWrites_none (f : AxiForm) (addr n k : Nat) {b : MgmtBeat} (h : b.strb ∉ [0xFF, 0x0F, 0xF0]) :
    beatWrites f addr n k b = [] := by
  simp only [List.mem_cons, List.not_mem_nil, or_false, not_or] at h
  obtain ⟨h1, h2, h3⟩ := h
  unfold beatWrites
  dsimp only
  rw [if_neg h1, if_neg h2, if_neg h3]

/-- A burst in a form without effect, or with a beat whose strobes name no whole words, writes nothing. -/
theorem addrWrite_nothing (w : Who) (addr : Nat) {f : AxiForm} {l : List MgmtBeat} (s : State)
    (h : refusedForm f = true ∨ ∃ b, l = [b] ∧ b.strb ∉ [0xFF, 0x0F, 0xF0]) :
    addrWrite w addr f l s = burst w addr true 0 (burstWrite w [] true) s := by
  unfold addrWrite
  rcases h with hf | ⟨b, rfl, hb⟩
  · dsimp only
    rw [hf, Bool.or_true]
    split <;> rfl
  · have hl : ((List.range [b].length).zip [b]).map (fun e => beatWrites f addr [b].length e.1 e.2) = [[]] :=
      congrArg (fun x => [x]) (beatWrites_none f addr 1 0 hb)
    simp only [hl]
    split <;> rfl

section
variable {s : State} {w : Who} {addr : Nat} {f : AxiForm}

theorem registerWrite_full {i j : Nat} {id jd : RegId} (hs : Running s) (hv : FullView (Who.at_ w addr)) (hg : Granted s w)
    (hf : refusedForm f = false) (h8 : addr % 8 = 0) (ha : regAddr addr = some (id, i)) (hb : regAddr (addr + 4) = some (jd, j))
    (hp : id ∈ plainRegs) (hq : jd ∈ plainRegs) (d : BitVec 64) :
    ∃ t, exec (.registerWrite w ⟨addr, f⟩ [⟨d, 0xFF⟩]) s = .next t ∧
      rg t id i = plainWord id (rg s id i) (d.setWidth 32) ∧ rg t jd j = plainWord jd (rg s jd j) ((d >>> 32).setWidth 32) ∧
      RegsKept [(id, i), (jd, j)] s t ∧ Answered w 0 false (answerTime (addr % 0x800000)) s t := by
  obtain ⟨hi, hoff, -⟩ := regAddr_some ha
  obtain ⟨hj, hoff', -⟩ := regAddr_some hb
  have hne : (id, i) ≠ (jd, j) := fun e => by
    obtain ⟨rfl, rfl⟩ := Prod.mk.inj e
    omega
  obtain ⟨n, hburst⟩ := addrWrite_full w d s hf h8
  obtain ⟨sub, hrun⟩ := burst_running hs hg addr true n
    (burstWrite w [(addr, d.setWidth 32), (addr + 4, (d >>> 32).setWidth 32)] false)
  obtain ⟨t, ht, hregs, -, -, hans⟩ := steady_timed hs (F := addrWrite w addr f [⟨d, 0xFF⟩]) (hburst.trans hrun)
  obtain ⟨u, hu, hlo, hhi, hkept, hone⟩ := burstWrite_plain_regs (w := w) (s := acting s (s.clk + 1 + 4 * (n - 1))) hs
    hv (at_highWord w h8 ▸ hv) ha hb hp hq rfl (key_ne_of_ne hi hj hne) (d.setWidth 32) ((d >>> 32).setWidth 32)
  rw [hu] at hregs hans
  rw [hone] at hans
  exact ⟨t, ht, (rg_congr hregs id i).trans hlo, (rg_congr hregs jd j).trans hhi, hkept.of_acting hregs, _, _, hans⟩

theorem registerWrite_nothing {l : List MgmtBeat} (hs : Running s) (hg : Granted s w)
    (h : refusedForm f = true ∨ ∃ b, l = [b] ∧ b.strb ∉ [0xFF, 0x0F, 0xF0]) :
    ∃ t, exec (.registerWrite w ⟨addr, f⟩ l) s = .next t ∧ RegsKept [(.mgmtErr, 0)] s t ∧
      rf t .mgmtErr 0 15 0 = (if w.steward then rf s .mgmtErr 0 15 0 else min 65535 (rf s .mgmtErr 0 15 0 + 1)) ∧
      Answered w 0 true (answerTime (addr % 0x800000)) s t := by
  obtain ⟨sub, hrun⟩ := burst_running hs hg addr true 0 (burstWrite w [] true)
  obtain ⟨t, ht, hregs, -, -, hans⟩ := steady_timed hs (F := addrWrite w addr f l) ((addrWrite_nothing w addr s h).trans hrun)
  obtain ⟨u, hu⟩ : ∃ u, u = { acting s (s.clk + 1) with answers := [⟨w, 0, true, s.clk, 0, true, false⟩] } := ⟨_, rfl⟩
  have hburst : burstWrite w [] true (acting s (s.clk + 1)) = countErr w (rf u .mgmtErr 0 15 0) 1 u := by
    rw [hu]
    rfl
  have hkept : RegsKept [(.mgmtErr, 0)] (acting s (s.clk + 1)) (countErr w (rf u .mgmtErr 0 15 0) 1 u) := by
    rw [hu]
    exact RegsKept.countErr w _ 1 { acting s (s.clk + 1) with answers := _ }
  change t.regs = (burstWrite w [] true (acting s (s.clk + 1))).regs at hregs
  change t.answers = s.answers ++ (burstWrite w [] true (acting s (s.clk + 1))).answers.map _ at hans
  rw [hburst] at hregs hans
  rw [countErr_answers, hu] at hans
  refine ⟨t, ht, hkept.of_acting hregs, ?_, _, _, hans⟩
  have hrf : rf t .mgmtErr 0 15 0 = rf (countErr w (rf u .mgmtErr 0 15 0) 1 u) .mgmtErr 0 15 0 :=
    congrArg (fld · 15 0) (rg_congr hregs _ _)
  rw [hrf, rf_countErr, hu]
  rfl

end

/-! ### The Steward at the Strongbox port (R396) -/

/-- The write windows of the Strongbox, each with what a write of it does. -/
def boxWrites (v : Word) : List (RegId × SboxOp) := [(.sboxData, .write v), (.sboxSet, .set v), (.sboxClr, .clr v)]

theorem boxWrites_cases {v : Word} {P : RegId × SboxOp → Prop} (h1 : P (.sboxData, .write v)) (h2 : P (.sboxSet, .set v))
    (h3 : P (.sboxClr, .clr v)) : ∀ e ∈ boxWrites v, P e := by
  simp [boxWrites, h1, h2, h3]

theorem boxWrites_size (v : Word) : ∀ e ∈ boxWrites v, e.1.size = 16384 := boxWrites_cases rfl rfl rfl

theorem boxWrites_window (v : Word) : ∀ e ∈ boxWrites v, e.1 ∈ [.sboxData, .sboxSet, .sboxClr] :=
  boxWrites_cases (by simp) (by simp) (by simp)

theorem writeReg_box (w : Who) (i : Nat) (v : Word) (s : State) : ∀ e ∈ boxWrites v, writeReg w e.1 i v s = doSboxWrite w i e.2 s :=
  boxWrites_cases (by simp [writeReg, writeRefused, starts]) (by simp [writeReg, writeRefused, starts])
    (by simp [writeReg, writeRefused, starts])

/-- The Steward's write waits at the port from the next MCLK edge on; the lock area refuses it. -/
theorem doSboxWrite_steward {w : Who} {i : Nat} (hw : w.steward = true) (hi : i < 16384) (op : SboxOp) (s : State) :
    doSboxWrite w i op s = { s with sboxWait := s.sboxWait ++
      [⟨w, if 4096 ≤ i ∧ i < 5120 then .deny true else op, i, (s.clk / 4 + 1) * 4⟩] } := by
  have href : sboxRefused w i true = decide (4096 ≤ i ∧ i < 5120) := by
    simp [sboxRefused, lockArea, hw, Nat.not_le.2 hi]
  unfold doSboxWrite sboxAsk stewardAsks
  simp [hw, href]

theorem access_steward {s : State} {w : Who} (hs : Running s) {r : Option (RegId × Nat)} (hb : stewardBox w r = true)
    (off : Nat) (write : Bool) (v : Word) (f : RegId → Nat → State → State) :
    access s w r off write v f = reached w r off write v f s := by
  unfold access
  simp [hs.2, hb]

theorem registerWrite_box {s : State} {w : Who} {addr i : Nat} {f : AxiForm} {v : Word} (hs : Running s) (hw : w.steward = true)
    (hf : refusedForm f = false) {e : RegId × SboxOp} (he : e ∈ boxWrites v) (hr : regAddr addr = some (e.1, i)) :
    ∃ t, exec (.registerWrite w ⟨addr, f⟩ [wordBeat addr v]) s = .next t ∧ RegsKept [] s t ∧ t.answers = s.answers ∧
      t.sbox = s.sbox ∧ t.sboxWait = s.sboxWait ++
        [⟨Who.at_ w addr, if 4096 ≤ i ∧ i < 5120 then .deny true else e.2, i, (s.clk / 4 + 1) * 4⟩] := by
  have hi : i < 16384 := boxWrites_size v e he ▸ (regAddr_some hr).1
  have hbox : stewardBox (Who.at_ w addr) (some (e.1, i)) = true :=
    Bool.and_eq_true_iff.2 ⟨hw, decide_eq_true (boxWrites_window v e he)⟩
  have hwrite : addrWrite w addr f [wordBeat addr v] s = { s with sboxWait := s.sboxWait ++
      [⟨Who.at_ w addr, if 4096 ≤ i ∧ i < 5120 then .deny true else e.2, i, (s.clk / 4 + 1) * 4⟩] } := by
    rw [addrWrite_wordBeat w v s hf (regAddr_aligned hr), wordWrite, hr, access_steward hs hbox,
      reached_register hs (routed_full (w := Who.at_ w addr) (.inl hw) _ _ _ _), writeReg_box _ _ _ _ e he,
      doSboxWrite_steward (w := Who.at_ w addr) hw hi]
  exact ⟨_, steady_eq _ hs.1, .of_regs [] (congrArg State.regs hwrite :), (congrArg State.answers hwrite :),
    (congrArg State.sbox hwrite :), (congrArg State.sboxWait hwrite :)⟩

/-! ### The default target (R526) -/

/-- The detail the default target records: requester, direction, AxPROT. -/
def defaultDetail (w : Who) (write : Bool) : Nat :=
  (if w.steward then 510 else if 18 ≤ w.proc then 511 else 288 + w.proc) + 512 * b2n write + 1024 * b2n w.prot

/-- The word CM.ERR_LAST takes: the detail with VALID. -/
def defaultInfo (w : Who) (write : Bool) : Word := BitVec.ofNat 32 (defaultDetail w write + 2 ^ 31)

/-- The address of an access in its view. -/
def viewAddr (w : Who) (off : Nat) : Nat := off + if w.priv then 0x800000 else 0

/-- CM.ERR_LAST and CM.ERR_ADDR take an access while they hold none. -/
def latchError (s : State) (addr info : Word) : State :=
  if bitOf (rg s .cmErrLast) 31 then s else setRg (setRg s .cmErrLast 0 info) .cmErrAddr 0 addr

theorem defaultAnswer_eq (s : State) (w : Who) (off : Nat) (write : Bool) :
    defaultAnswer s w off write = answerWith (latchError (raise s fuCtrl 4 (viewAddr w off) (defaultDetail w write))
      (BitVec.ofNat 32 (viewAddr w off)) (defaultInfo w write)) w 0 true := rfl

/-- VALID is set: the detail lies below it. -/
theorem defaultInfo_valid (w : Who) (write : Bool) : bitOf (defaultInfo w write) 31 = true := by
  have hb : ∀ b, b2n b ≤ 1 := by decide
  have hlt : defaultDetail w write < 2 ^ 31 := by
    have := hb write
    have := hb w.prot
    unfold defaultDetail
    split
    · omega
    · split <;> omega
  rw [defaultInfo, bitOf, BitVec.getLsbD_ofNat, Nat.testBit_eq_decide_div_mod_eq]
  simp only [Nat.reduceLT, decide_true, Bool.true_and, decide_eq_true_eq]
  omega

theorem viewAddr_at (w : Who) {addr : Nat} (h : addr < 0x1000000) : viewAddr (Who.at_ w addr) (addr % 0x800000) = addr := by
  simp only [viewAddr, Who.at_, decide_eq_true_eq]
  split <;> omega

theorem RegsKept.latchError (s : State) (addr info : Word) :
    RegsKept [(.cmErrLast, 0), (.cmErrAddr, 0)] s (latchError s addr info) := by
  unfold Machine.latchError
  split
  · exact .refl _ s
  · exact (RegsKept.setRg s .cmErrLast 0 _).trans (.setRg _ .cmErrAddr 0 _)

theorem latchError_answers (s : State) (addr info : Word) :
    (latchError s addr info).answers = s.answers ∧ (latchError s addr info).clk = s.clk := by
  unfold latchError
  split <;> exact ⟨rfl, rfl⟩

/-- A latch that holds an access keeps it. -/
theorem latchError_taken {s : State} (h : bitOf (rg s .cmErrLast) 31 = true) (addr info : Word) :
    latchError s addr info = s := if_pos h

/-- A free latch takes the access. -/
theorem latchError_free {s : State} (h : bitOf (rg s .cmErrLast) 31 = false) (addr info : Word) :
    rg (latchError s addr info) .cmErrLast = info ∧ rg (latchError s addr info) .cmErrAddr = addr := by
  unfold latchError
  rw [if_neg (by simp [h])]
  exact ⟨(rg_setRg_other _ _ (by decide)).trans (rg_setRg_same _ _ _ _), rg_setRg_same _ _ _ _⟩

/-- The default target answers SLVERR with data 0, raises DEFAULT_TGT and latches the access. -/
theorem defaultAnswer_does (s : State) (w : Who) (off : Nat) (write : Bool) :
    ∃ t, defaultAnswer s w off write = t ∧ t.answers = s.answers ++ [⟨w, 0, true, s.clk, 0, false, false⟩] ∧
      bitOf (rg t .fuStat 82) 4 = true ∧ bitOf (rg t .cmErrLast) 31 = true ∧
      (bitOf (rg s .cmErrLast) 31 = false → rg t .cmErrAddr = BitVec.ofNat 32 (viewAddr w off)) ∧
      (bitOf (rg s .cmErrLast) 31 = true → rg t .cmErrLast = rg s .cmErrLast ∧ rg t .cmErrAddr = rg s .cmErrAddr) := by
  rw [defaultAnswer_eq]
  have hvalid := defaultInfo_valid w write
  generalize viewAddr w off = addr, defaultDetail w write = det, defaultInfo w write = info at hvalid ⊢
  have hstat : rg (raise s fuCtrl 4 addr det) .fuStat 82 = setBit (rg s .fuStat 82) 4 true :=
    raise_stat s fuCtrl 4 addr det none false (by decide)
  have hraised := RegsKept.raise s fuCtrl 4 addr det none false
  obtain ⟨_, _, _, _, hshape⟩ := EventShape.raise s fuCtrl 4 addr det none false
  have hx : (raise s fuCtrl 4 addr det).answers = s.answers ∧ (raise s fuCtrl 4 addr det).clk = s.clk := by
    rw [hshape]
    exact ⟨rfl, rfl⟩
  generalize raise s fuCtrl 4 addr det = x at hstat hraised hx
  have hlast : rg x .cmErrLast = rg s .cmErrLast := hraised .cmErrLast 0 (by decide) (by decide)
  have haddr : rg x .cmErrAddr = rg s .cmErrAddr := hraised .cmErrAddr 0 (by decide) (by decide)
  obtain ⟨hans, hclk⟩ := latchError_answers x (BitVec.ofNat 32 addr) info
  have hkept := RegsKept.answerWith (latchError x (BitVec.ofNat 32 addr) info) w 0 true
  have hlast' := hkept .cmErrLast 0 (by decide) (by decide)
  have haddr' := hkept .cmErrAddr 0 (by decide) (by decide)
  refine ⟨_, rfl, ?_, ?_, ?_, fun hfree => ?_, fun htaken => ?_⟩
  · rw [answerWith_answers, hans, hclk, hx.1, hx.2]
  · rw [hkept .fuStat 82 (by decide) (by decide),
      RegsKept.latchError x (BitVec.ofNat 32 addr) info .fuStat 82 (by decide) (by decide), hstat]
    exact bitOf_setBit_same _ _ _ (by decide)
  · rw [hlast']
    cases hbit : bitOf (rg x .cmErrLast) 31 with
    | true => rw [latchError_taken hbit, hbit]
    | false =>
      rw [(latchError_free hbit (BitVec.ofNat 32 addr) info).1, hvalid]
  · rw [haddr', (latchError_free (hlast ▸ hfree) (BitVec.ofNat 32 addr) info).2]
  · rw [hlast', haddr', latchError_taken (hlast ▸ htaken)]
    exact ⟨hlast, haddr⟩

/-- An access routed nowhere does not go by the Steward's way to the Strongbox. -/
theorem stewardBox_of_unrouted {s : State} {w : Who} {r : Option (RegId × Nat)} {write : Bool} {v : Word}
    (h : routed s w r write v = none) : stewardBox w r = false := by
  cases r with
  | none => simp [stewardBox]
  | some e =>
    cases hw : w.steward with
    | true => simp [routed, hw] at h
    | false => simp [stewardBox, hw]

section
variable {s : State} {w : Who} {addr : Nat} {write : Bool}

theorem defaultTarget_answers (hs : Running s) (hg : Granted s w)
    (hr : routed s (Who.at_ w addr) (regAddr addr) write 0 = none) :
    ∃ t, exec (.defaultTarget w addr write) s = .next t ∧
      Answered (Who.at_ w addr) 0 true (answerTime (addr % 0x800000)) s t ∧
      bitOf (rg t .fuStat 82) 4 = true ∧ bitOf (rg t .cmErrLast) 31 = true ∧
      (bitOf (rg s .cmErrLast) 31 = false → addr < 0x1000000 → rg t .cmErrAddr = BitVec.ofNat 32 addr) ∧
      (bitOf (rg s .cmErrLast) 31 = true → rg t .cmErrLast = rg s .cmErrLast ∧ rg t .cmErrAddr = rg s .cmErrAddr) := by
  obtain ⟨t, ht, hregs, -, -, hans⟩ := steady_timed hs (F := doDefault w addr write)
    (access_accepted hs (hg.at_ addr) (stewardBox_of_unrouted hr) _ _ _ _)
  obtain ⟨u, hu, hone, hstat, hlast, hfree, htaken⟩ :=
    defaultAnswer_does (acting s (s.clk + 1)) (Who.at_ w addr) (addr % 0x800000) write
  rw [reached_default (s := acting s (s.clk + 1)) hs hr, hu] at hregs hans
  rw [hone] at hans
  refine ⟨t, ht, ⟨_, _, hans⟩, ?_, ?_, fun h hlt => ?_, fun h => ?_⟩
  · rw [rg_congr hregs, hstat]
  · rw [rg_congr hregs, hlast]
  · rw [rg_congr hregs, hfree h, viewAddr_at w hlt]
  · rw [rg_congr hregs, rg_congr hregs]
    exact htaken h

theorem defaultTarget_idle (hs : Running s) (hg : Granted s w)
    (hr : (routed s (Who.at_ w addr) (regAddr addr) write 0).isSome = true) :
    ∃ t, exec (.defaultTarget w addr write) s = .next t ∧ RegsKept [] s t ∧ t.answers = s.answers := by
  obtain ⟨⟨id, i⟩, hr⟩ := Option.isSome_iff_exists.1 hr
  cases hb : stewardBox (Who.at_ w addr) (regAddr addr) with
  | true =>
    have hsame : doDefault w addr write s = s := (access_steward hs hb _ _ _ _).trans (reached_register hs hr _)
    exact ⟨_, steady_eq _ hs.1, .of_regs [] (congrArg State.regs hsame :), (congrArg State.answers hsame :)⟩
  | false =>
    obtain ⟨t, ht, hregs, -, -, hans⟩ := steady_timed hs (F := doDefault w addr write)
      (access_accepted hs (hg.at_ addr) hb _ _ _ _)
    rw [reached_register (s := acting s (s.clk + 1)) hs hr] at hregs hans
    exact ⟨t, ht, .of_regs [] hregs, hans.trans (List.append_nil _)⟩

end

/-- Settles O10, clause by clause. That the Steward's writes of the Strongbox's words wait at its port from the next MCLK edge on, and that
a burst acts and is answered as one request, are the model's choices (log entries 56 and 57). -/
theorem writesAndDefaultTarget : Obligations.WritesAndDefaultTarget := by
  unfold Obligations.WritesAndDefaultTarget
  refine ⟨?word, ?plain, ?refused, ?full, ?nothing, ?box, ?unrouted, ?routed⟩
  case word =>
    intro w addr i f id v s hs hv hg hf hr hb
    obtain ⟨t, ht, hregs, -, hmem, hans⟩ := registerWrite_word hs hv hg hf hr hb v
    exact ⟨t, ht, hregs, fun a => congrArg (Tab.get memDefault · a) hmem, hans⟩
  case plain => exact fun w addr i f id v s hs hv hg hf hp hr => registerWrite_plain hs hv hg hf hp hr v
  case refused => exact fun w addr i f id v s hs hv hg hf hr hw => registerWrite_refused hs hv hg hf hr hw v
  case full =>
    exact fun w addr i j f id jd d s hs hv hg hf h8 ha hb hp hq => registerWrite_full hs hv hg hf h8 ha hb hp hq d
  case nothing => exact fun w addr f l s hs hg h => registerWrite_nothing hs hg h
  case box => exact fun w addr i f v s hs hw hf e he hr => registerWrite_box hs hw hf he hr
  case unrouted => exact fun w addr write s hs hg hr => defaultTarget_answers hs hg hr
  case routed => exact fun w addr write s hs hg hr => defaultTarget_idle hs hg hr

end Sys2Proof.Machine
end

section
/-! The open-slot lottery and the scalar requests that feed it (R123 to R145, R156, R157): whom a draw picks, what a grant issues or
counts, what a starving head records, what a scalar request leaves behind. -/

namespace Sys2Proof.Machine

/-! ### Parts of the state that a calm command's work reaches -/

section
variable (f : State → State) (s : State)
@[simp] theorem calm_queues : (calm f s).queues = (f s).queues := rfl
@[simp] theorem calm_queue (k : Nat) : (calm f s).queue k = (f s).queue k := rfl
@[simp] theorem calm_rdLanes : (calm f s).rdLanes = (f s).rdLanes := rfl
@[simp] theorem calm_wrLanes : (calm f s).wrLanes = (f s).wrLanes := rfl
@[simp] theorem calm_scalar (g : Nat) : (calm f s).scalar g = (f s).scalar g := rfl
end

/-! ### The walk over the tickets (R132) -/

/-- Candidates whose tickets do not exceed `x` together are passed over. -/
theorem walk_append {x : Nat} {post : List (Nat × Nat × Nat)} : ∀ (pre : List (Nat × Nat × Nat)) (sum : Nat),
    sum + (pre.map fun e => e.2.1).sum ≤ x →
      walk x sum (pre ++ post) = walk x (sum + (pre.map fun e => e.2.1).sum) post
  | [], _, _ => rfl
  | (_, n, _) :: pre, sum, h => by
    simp only [List.map_cons, List.sum_cons, ← Nat.add_assoc] at h ⊢
    rw [List.cons_append, walk, if_neg (by omega), walk_append pre (sum + n) h]

/-- The walk stops at the candidate whose tickets cover `x`. -/
theorem walk_covering {x r n h : Nat} {pre post : List (Nat × Nat × Nat)} (hlo : (pre.map fun e => e.2.1).sum ≤ x)
    (hhi : x < (pre.map fun e => e.2.1).sum + n) : walk x 0 (pre ++ (r, n, h) :: post) = some r := by
  rw [walk_append pre 0 (by omega), walk, Nat.zero_add, if_pos hhi]

/-- Below the total the walk stops at a candidate that holds a ticket. -/
theorem walk_below_total {x : Nat} : ∀ (l : List (Nat × Nat × Nat)) (sum : Nat), sum ≤ x →
    x < sum + (l.map fun e => e.2.1).sum → ∃ r n h, walk x sum l = some r ∧ (r, n, h) ∈ l ∧ 0 < n
  | [], _, hlo, hhi => absurd hhi (Nat.not_lt.2 hlo)
  | (r, n, h) :: l, sum, hlo, hhi => by
    by_cases hx : x < sum + n
    · exact ⟨r, n, h, if_pos hx, List.mem_cons_self, by omega⟩
    · rw [List.map_cons, List.sum_cons, ← Nat.add_assoc] at hhi
      obtain ⟨q, m, w, hq, hmem, hm⟩ := walk_below_total l (sum + n) (Nat.not_lt.1 hx) hhi
      exact ⟨q, m, w, (if_neg hx).trans hq, List.mem_cons_of_mem _ hmem, hm⟩

/-- Sixteen bits scale to less than the total. -/
theorem scaled_lt {v total : Nat} (hv : v < 65536) (ht : 0 < total) : v * total / 65536 < total :=
  Nat.div_lt_of_lt_mul (Nat.mul_lt_mul_of_pos_right hv ht)

/-- Settles O22: the scaled value lies below the total, and a walk to a value below the total ends at a ticket holder. -/
theorem walkPicksATicketHolder : Obligations.WalkPicksATicketHolder := by
  unfold Obligations.WalkPicksATicketHolder
  exact fun v l hv ht => walk_below_total l 0 (Nat.zero_le _) (by simpa using scaled_lt hv ht)

/-! ### Draws (R132 to R134, R140, R141) -/

/-- The candidates stand in the order of their requester indices. -/
theorem candidates_sorted (s : State) (c : Nat) (d : Dir) : ((candidates s c d).map Prod.fst).Pairwise (· < ·) := by
  rw [List.pairwise_map]
  refine List.Pairwise.filterMap _ (fun q r hqr e he f hf => ?_) List.pairwise_lt_range
  obtain ⟨_, -, rfl⟩ := Option.map_eq_some_iff.1 he
  obtain ⟨_, -, rfl⟩ := Option.map_eq_some_iff.1 hf
  exact hqr

section
variable (s : State) (c : Nat) (d : Dir) (r : Nat)

/-- A grant joins its lottery's grants, for the next running edge, and its requester is the last granted (R134, R140, R141). -/
theorem register_lot_same : (register s c d r).lot (lotKey c d) =
    ⟨(s.lot (lotKey c d)).grants ++ [(s.run + 1, r)], some r, (s.lot (lotKey c d)).count + 1⟩ :=
  lot_setLot_same s _ _

theorem register_lot_other {k : Nat} (h : k ≠ lotKey c d) : (register s c d r).lot k = s.lot k :=
  (lot_setLot s _ k _).trans (if_neg h.symm)

/-- A grant writes its own direction's count of open grants only. -/
theorem RegsKept.register :
    RegsKept [(match d with | .rd => .colLotGrantsRd | .wr => .colLotGrantsWr, c)] s (register s c d r) :=
  (RegsKept.of_regs [] rfl).trans (.bump _ _ c 31 0 1)

/-- The count of long-road grants is none of the registers that registering a grant writes. -/
theorem rf_register_lr (hc : c < 64) (hi lo : Nat) : rf (register s c d r) .colLotLr c hi lo = rf s .colLotLr c hi lo := by
  have hkey : ∀ id ∈ [RegId.colLotGrantsRd, .colLotGrantsWr], id.key c ≠ RegId.colLotLr.key c := fun id hid =>
    RegId.key_ne (by omega) (by omega) (.inl (by revert id; decide))
  have h : rg (register s c d r) .colLotLr c = rg s .colLotLr c := by
    refine RegsKept.register s c d r .colLotLr c (by omega) fun e he => ?_
    rw [List.mem_singleton.1 he]
    cases d with
    | rd => exact hkey .colLotGrantsRd (by simp)
    | wr => exact hkey .colLotGrantsWr (by simp)
  rw [rf, h, rf]

end

/-- A draw that falls due registers the candidate whose tickets cover the scaled bits. -/
theorem doDraw_covering {s : State} {c r n h : Nat} {d : Dir} {pre post : List (Nat × Nat × Nat)}
    (hdue : drawDue s c d = true) (hturn : longRoadTurn s c d = false) (hsplit : candidates s c d = pre ++ (r, n, h) :: post)
    (hlo : (pre.map fun e => e.2.1).sum ≤ drawValue s c d * ((candidates s c d).map fun e => e.2.1).sum / 65536)
    (hhi : drawValue s c d * ((candidates s c d).map fun e => e.2.1).sum / 65536 < (pre.map fun e => e.2.1).sum + n) :
    doDraw c d s = register s c d r := by
  have htotal : ((candidates s c d).map fun e => e.2.1).sum ≠ 0 := by
    rw [hsplit, List.map_append, List.sum_append, List.map_cons, List.sum_cons]
    dsimp only
    omega
  have hwalk : walk (drawValue s c d * ((candidates s c d).map fun e => e.2.1).sum / 65536) 0 (candidates s c d) = some r := by
    generalize drawValue s c d * ((candidates s c d).map fun e => e.2.1).sum / 65536 = x at hlo hhi ⊢
    rw [hsplit]
    exact walk_covering hlo hhi
  have hwin : drawWinner s c d = (some r, false) := by rw [drawWinner, if_neg htotal, hwalk]
  simp [doDraw, hdue, hturn, hwin]

/-- A long-road turn registers the long-road pick and counts it. -/
theorem doLongRoad_pick {s : State} {c r : Nat} {d : Dir} (hdue : drawDue s c d = true) (hturn : longRoadTurn s c d = true)
    (hp : longRoadPick (s.lot (lotKey c d)).last (candidates s c d) = some r) :
    doLongRoad c d s = bump (register s c d r) .colLotLr c (dirHi d) (dirLo d) := by
  simp [doLongRoad, hdue, hturn, hp]

/-- The bits of the LFSR state that a direction's draw takes. -/
theorem drawValue_eq (s : State) (c : Nat) (d : Dir) : drawValue s c d =
    (match d with
      | .rd => fld (Tab.get (fun _ => 1) s.lfsrPrev c) 15 0
      | .wr => fld (Tab.get (fun _ => 1) s.lfsrPrev c) 31 16) := by
  cases d <;> rfl

/-- Each direction has 16 bits of the lottery's register pairs. -/
theorem rf_bump_dir (s : State) (id : RegId) (c : Nat) (d : Dir) :
    rf (bump s id c (dirHi d) (dirLo d)) id c (dirHi d) (dirLo d) = min 65535 (rf s id c (dirHi d) (dirLo d) + 1) := by
  cases d with
  | rd => exact rf_bump_same s id c 15 0 1 (by decide) (by decide)
  | wr => exact rf_bump_same s id c 31 16 1 (by decide) (by decide)

/-- Settles O21, clause by clause. That the pick passes over the requester of the last grant ever registered, where an open lane had
none, is the model's choice (log entry 50). -/
theorem drawsRegisterGrants : Obligations.DrawsRegisterGrants := by
  unfold Obligations.DrawsRegisterGrants
  refine ⟨fun c d s => candidates_sorted s c d, ?draw, ?longRoad⟩
  case draw =>
    intro c r n h d pre post s hs hc hdue hturn w v x sum hsplit hlo hhi
    have hdraw : doDraw c d s = register s c d r :=
      doDraw_covering hdue hturn hsplit (by rw [drawValue_eq]; exact hlo) (by rw [drawValue_eq]; exact hhi)
    have hlot := (congrArg (State.lot · (lotKey c d)) hdraw).trans (register_lot_same s c d r)
    exact ⟨_, steady_eq _ hs, congrArg Lot.grants hlot, congrArg Lot.last hlot, congrArg Lot.count hlot,
      (congrArg State.queues hdraw :), fun k hk => (congrArg (State.lot · k) hdraw).trans (register_lot_other s c d r hk)⟩
  case longRoad =>
    intro c r d s hs hc hdue hturn hp
    have hgrant := doLongRoad_pick hdue hturn hp
    have hlot := (congrArg (State.lot · (lotKey c d)) hgrant).trans (register_lot_same s c d r)
    refine ⟨_, steady_eq _ hs, congrArg Lot.grants hlot, congrArg Lot.last hlot, ?_, (congrArg State.queues hgrant :)⟩
    rw [calm_rf, hgrant, rf_bump_dir, rf_register_lr s c d r hc]

/-! ### Issue (R126, R136, R142) -/

/-- The grants whose edge has come are spent. -/
def spendGrants (s : State) (c : Nat) (d : Dir) : State :=
  s.setLot (lotKey c d) { s.lot (lotKey c d) with grants := (s.lot (lotKey c d)).grants.filter fun h => decide (s.run < h.1) }

section
variable {s : State} {c : Nat} {d : Dir} {g : Nat × Nat}

/-- A grant whose head may issue takes it off its queue and issues it. -/
theorem doIssue_issues {e : QEntry} (hg : (s.lot (lotKey c d)).grants.find? (fun g => decide (g.1 ≤ s.run)) = some g)
    (he : candidate s c d g.2 = some e) (hb : rowBlocked s c d g.2 e = false) (hq : quarantined s c = false)
    (ho : ownerIn s c d 0 = 0) :
    doIssue c d s = issueEntry (popQueue (spendGrants s c d) (queueKey c d g.2)) c d g.2 e := by
  simp [doIssue, spendGrants, hg, he, hb, hq, ho]

/-- A grant whose requester has no head that may issue is counted as stale. -/
theorem doIssue_stale (hg : (s.lot (lotKey c d)).grants.find? (fun g => decide (g.1 ≤ s.run)) = some g)
    (hn : ∀ e, candidate s c d g.2 = some e → rowBlocked s c d g.2 e = true ∨ quarantined s c = true ∨ ownerIn s c d 0 ≠ 0) :
    doIssue c d s = bump (spendGrants s c d) .colLotStale c (dirHi d) (dirLo d) := by
  cases he : candidate s c d g.2 with
  | none => simp [doIssue, spendGrants, hg, he]
  | some e =>
    have hn := hn e he
    simp only [doIssue, spendGrants, hg, he]
    exact if_pos (by simpa [or_assoc] using hn)

end

/-- The next entries stand in the queue whose head has left. -/
theorem popQueue_entries (s : State) (k : Nat) : ((popQueue s k).queue k).entries = (s.queue k).entries.tail := by
  rw [popQueue, queue_setQueue_same]
  rfl

theorem popQueue_run (s : State) (k : Nat) : (popQueue s k).run = s.run := by
  obtain ⟨r, a, q, h⟩ := QueueShape.headLeft s k
  rw [popQueue, h]
  rfl

/-- The move of the scrub pointer reaches registers and the columns' own. -/
theorem FindShape.scrubMove (s : State) (c i : Nat) : FindShape s (scrubMove s c i) := by
  unfold Machine.scrubMove
  split
  · exact .refl s
  · dsimp only
    split
    · exact (((EventShape.setRg s _ _ _).trans (.bump _ _ _ _ _ _)).find.trans (.setCol _ _ _)).trans (EventShape.setRg _ _ _ _).find
    · exact (EventShape.setRg s _ _ _).find

/-- An issued scrub read moves the pointer on. -/
theorem FindShape.scrubIssued (s : State) (c i : Nat) : FindShape s (scrubIssued s c i) :=
  (FindShape.setCol s c _).trans (.scrubMove _ c (i + 1))

theorem FindShape.copyReadIssued (s : State) (c : Nat) : FindShape s (copyReadIssued s c) := by
  unfold Machine.copyReadIssued
  split
  · exact .setCol s c _
  · exact .refl s

theorem FindShape.lanes {s t : State} (h : FindShape s t) :
    t.queues = s.queues ∧ t.rdLanes = s.rdLanes ∧ t.wrLanes = s.wrLanes := by
  obtain ⟨_, _, _, _, _, rfl⟩ := h
  exact ⟨rfl, rfl, rfl⟩

/-- An issued read entry takes one lane, whose banks it reaches four edges later; no queue changes. -/
theorem issueEntry_rd (s : State) (c r : Nat) (e : QEntry) : (issueEntry s c .rd r e).queues = s.queues ∧
    (issueEntry s c .rd r e).rdLanes =
      s.rdLanes ++ [newLane c e.use (masterOf r) e.accs (s.run + 4) (s.run + readDelay s e.use)] := by
  unfold issueEntry
  dsimp only
  split
  · obtain ⟨hq, hl, -⟩ := (FindShape.scrubIssued { s with rdLanes := _ } c _).lanes
    exact ⟨hq, hl⟩
  · obtain ⟨hq, hl, -⟩ := (FindShape.copyReadIssued { s with rdLanes := _ } c).lanes
    exact ⟨hq, hl⟩
  · exact ⟨rfl, rfl⟩
  · exact ⟨rfl, rfl⟩

/-- A copy's start reaches the Steward's read queue and its column's own. -/
theorem startCopy_frame (s : State) (c : Nat) (k : Copy) : (startCopy s c k).wrLanes = s.wrLanes ∧
    ∀ j, j ≠ queueKey c .rd 36 → (startCopy s c k).queue j = s.queue j := by
  unfold startCopy
  cases hroom : queueRoom s c .rd 36 with
  | true =>
    rw [enqueue_eq _ hroom]
    exact ⟨rfl, fun j hj => (queue_setQueue s _ j _).trans (if_neg hj.symm)⟩
  | false =>
    rw [enqueue_none _ hroom]
    exact ⟨rfl, fun _ _ => rfl⟩

/-- An issued copy write may start the next row's read in the Steward's read queue. -/
theorem copyWriteIssued_frame (s : State) (c : Nat) : (copyWriteIssued s c).wrLanes = s.wrLanes ∧
    ∀ j, j ≠ queueKey c .rd 36 → (copyWriteIssued s c).queue j = s.queue j := by
  unfold copyWriteIssued
  split
  · split
    · exact startCopy_frame s c _
    · exact ⟨rfl, fun _ _ => rfl⟩
  · exact ⟨rfl, fun _ _ => rfl⟩

/-- An issued write entry takes one lane, whose banks it reaches four edges later; no queue but the Steward's of reads changes. -/
theorem issueEntry_wr (s : State) (c r : Nat) (e : QEntry) : (issueEntry s c .wr r e).wrLanes =
      s.wrLanes ++ [⟨c, e.use, masterOf r, e.accs, e.data, s.run + 4, narrowOf s e.use⟩] ∧
    ∀ k, k ≠ queueKey c .rd 36 → (issueEntry s c .wr r e).queue k = s.queue k := by
  unfold issueEntry
  dsimp only
  split
  · exact copyWriteIssued_frame { s with wrLanes := _ } c
  · exact ⟨rfl, fun _ _ => rfl⟩
  · exact ⟨rfl, fun _ _ => rfl⟩
  · exact ⟨rfl, fun _ _ => rfl⟩

/-- A write queue of a column is not the Steward's read queue there. -/
theorem queueKey_wr_ne_steward (c r : Nat) : queueKey c .wr r ≠ queueKey c .rd 36 := by
  simp only [queueKey, lotKey]
  omega

/-- Settles O23, clause by clause. That a grant whose slot has an owner since its draw, or whose column is quarantined, counts as stale is
the model's choice (log entry 20). -/
theorem grantsIssueQueueHeads : Obligations.GrantsIssueQueueHeads := by
  unfold Obligations.GrantsIssueQueueHeads
  refine ⟨?issues, ?stale⟩
  case issues =>
    intro c d g e s hs hc hr hg he hb hq ho
    refine ⟨_, steady_eq _ hs, ?_⟩
    simp only [calm_queue, calm_rdLanes, calm_wrLanes, doIssue_issues hg he hb hq ho]
    have hpop : ((popQueue (spendGrants s c d) (queueKey c d g.2)).queue (queueKey c d g.2)).entries =
        (s.queue (queueKey c d g.2)).entries.tail := popQueue_entries _ _
    have hrun : (popQueue (spendGrants s c d) (queueKey c d g.2)).run = s.run := popQueue_run _ _
    generalize popQueue (spendGrants s c d) (queueKey c d g.2) = u at hpop hrun
    cases d with
    | rd =>
      obtain ⟨hqueues, hlanes⟩ := issueEntry_rd u c g.2 e
      refine ⟨?_, ?_⟩
      · rw [State.queue, hqueues]
        exact hpop
      · rw [hlanes, ← hrun]
        exact ⟨_, List.mem_append_right _ List.mem_cons_self, rfl, rfl, rfl, rfl⟩
    | wr =>
      obtain ⟨hlanes, hqueues⟩ := issueEntry_wr u c g.2 e
      refine ⟨?_, ?_⟩
      · rw [hqueues _ (queueKey_wr_ne_steward c g.2)]
        exact hpop
      · rw [hlanes, ← hrun]
        exact ⟨_, List.mem_append_right _ List.mem_cons_self, rfl, rfl, rfl, rfl, rfl⟩
  case stale =>
    intro c d g s hs hc hg hn
    refine ⟨_, steady_eq _ hs, ?_⟩
    simp only [calm_queues, calm_rdLanes, calm_wrLanes, calm_rf, doIssue_stale hg hn, rf_bump_dir]
    exact ⟨rfl, rfl, rfl, rfl⟩

/-! ### Starvation (R138, R139) -/

/-- The word LOT.STARVE_LAST takes: requester, column, direction and wait (R145). -/
def starveWord (s : State) (c : Nat) (d : Dir) (r : Nat) : Nat :=
  r + 64 * c + 4096 * (match d with | .rd => 0 | .wr => 1) + 65536 * headWait s (s.queue (queueKey c d r))

/-- The queue's head has tripped the flag. -/
def headTripped (s : State) (k : Nat) : State := s.setQueue k { s.queue k with tripped := true }

/-- The requester's flag is set, the others are kept. -/
def setStarveFlag (s : State) (r : Nat) : State :=
  if r < 32 then setRg s .lotStarveLo 0 (setBit (rg s .lotStarveLo) r true)
  else setRg s .lotStarveHi 0 (setBit (rg s .lotStarveHi) (r - 32) true)

theorem RegsKept.setStarveFlag (s : State) (r : Nat) :
    RegsKept [(.lotStarveLo, 0), (.lotStarveHi, 0)] s (setStarveFlag s r) := by
  unfold Machine.setStarveFlag
  split
  · exact (RegsKept.setRg s .lotStarveLo 0 _).mono (by simp)
  · exact (RegsKept.setRg s .lotStarveHi 0 _).mono (by simp)

theorem setStarveFlag_lo (s : State) {r : Nat} (h : r < 32) : bitOf (rg (setStarveFlag s r) .lotStarveLo) r = true := by
  rw [setStarveFlag, if_pos h, rg_setRg_same]
  exact bitOf_setBit_same _ r true h

theorem setStarveFlag_hi (s : State) {r : Nat} (h : 32 ≤ r) (hr : r < 37) :
    bitOf (rg (setStarveFlag s r) .lotStarveHi) (r - 32) = true := by
  rw [setStarveFlag, if_neg (by omega), rg_setRg_same]
  exact bitOf_setBit_same _ (r - 32) true (by omega)

theorem setStarveFlag_queue (s : State) (r k : Nat) : (setStarveFlag s r).queue k = s.queue k := by
  unfold setStarveFlag
  split <;> rfl

theorem headWait_le (s : State) (q : LotQueue) : headWait s q ≤ 65535 := Nat.min_le_left _ _

/-- A field of a word given as a number. -/
theorem fld_ofNat {n : Nat} (h : n < 2 ^ 32) (hi lo : Nat) : fld (BitVec.ofNat 32 n) hi lo = n / 2 ^ lo % 2 ^ (hi + 1 - lo) := by
  rw [fld, BitVec.toNat_ofNat, Nat.mod_eq_of_lt h, Nat.shiftRight_eq_div_pow]

/-- The fields of the record. -/
theorem starveWord_fields (s : State) {c r : Nat} (d : Dir) (hc : c < 64) (hr : r < 37) :
    fld (BitVec.ofNat 32 (starveWord s c d r)) 5 0 = r ∧ fld (BitVec.ofNat 32 (starveWord s c d r)) 11 6 = c ∧
      fld (BitVec.ofNat 32 (starveWord s c d r)) 31 16 = headWait s (s.queue (queueKey c d r)) := by
  have hw := headWait_le s (s.queue (queueKey c d r))
  obtain ⟨b, hb, hdef⟩ : ∃ b, b ≤ 1 ∧
      starveWord s c d r = r + 64 * c + 4096 * b + 65536 * headWait s (s.queue (queueKey c d r)) := by
    cases d with
    | rd => exact ⟨0, by decide, rfl⟩
    | wr => exact ⟨1, by decide, rfl⟩
  rw [hdef]
  generalize headWait s (s.queue (queueKey c d r)) = w at hw
  rw [fld_ofNat (by omega), fld_ofNat (by omega), fld_ofNat (by omega)]
  omega

section
variable {s : State} {c r : Nat} {d : Dir} (hdue : starveDue s (queueKey c d r) = true)
include hdue

theorem doStarve_due : doStarve c d r s =
    { setRg (setStarveFlag (headTripped s (queueKey c d r)) r) .lotStarveLast 0 (BitVec.ofNat 32 (starveWord s c d r)) with
      starving := some (queueKey c d r) } :=
  if_pos hdue

theorem doStarve_queue : (doStarve c d r s).queue (queueKey c d r) = { s.queue (queueKey c d r) with tripped := true } := by
  rw [doStarve_due hdue]
  exact (setStarveFlag_queue _ r _).trans (queue_setQueue_same s _ _)

theorem doStarve_last : rg (doStarve c d r s) .lotStarveLast = BitVec.ofNat 32 (starveWord s c d r) := by
  rw [doStarve_due hdue]
  exact rg_setRg_same _ _ _ _

/-- The record leaves the flags as they were set. -/
theorem doStarve_flag {id : RegId} (hid : id ≠ .lotStarveLast) :
    rg (doStarve c d r s) id = rg (setStarveFlag (headTripped s (queueKey c d r)) r) id := by
  rw [doStarve_due hdue]
  exact rg_setRg_other _ _ (RegId.key_ne (by decide) (by decide) (.inl hid.symm))

theorem RegsKept.doStarve :
    RegsKept [(.lotStarveLo, 0), (.lotStarveHi, 0), (.lotStarveLast, 0)] s (doStarve c d r s) := by
  rw [doStarve_due hdue]
  have htripped : RegsKept [] s (headTripped s (queueKey c d r)) := .of_regs [] rfl
  exact (htripped.trans (.setStarveFlag _ r)).trans (.setRg _ .lotStarveLast 0 _)

end

/-- Settles O24. A head is due at any wait of THR or more, as after a THR lowered to or below it, and a head that issues at the edge
trips nothing: the model's choices (log entries 48 and 50). -/
theorem starvationIsFlagged : Obligations.StarvationIsFlagged := by
  unfold Obligations.StarvationIsFlagged
  intro c r d s hs hc hr hdue
  obtain ⟨hreq, hcol, hwait⟩ := starveWord_fields s d hc hr
  refine ⟨_, steady_eq _ hs, fun h => ?lo, fun h => ?hi, ?req, ?col, ?wait, ?once, RegsKept.doStarve hdue⟩
  case lo =>
    rw [calm_rg, doStarve_flag hdue (by decide)]
    exact setStarveFlag_lo _ h
  case hi =>
    rw [calm_rg, doStarve_flag hdue (by decide)]
    exact setStarveFlag_hi _ h hr
  case req => rw [calm_rf, rf, doStarve_last hdue, hreq]
  case col => rw [calm_rf, rf, doStarve_last hdue, hcol]
  case wait => rw [calm_rf, rf, doStarve_last hdue, hwait]
  case once => simp [starveDue, doStarve_queue hdue]

/-! ### Scalar requests (R156, R157) -/

/-- A sampled access joins those outstanding at its port. -/
def addScalar (s : State) (g : Nat) (x : Scalar) : State :=
  { s.setScalar g (s.scalar g ++ [x]) with nextScalar := s.nextScalar + 1 }

/-- A mapped-out access is counted or raised. -/
theorem EventShape.mappedOut (s : State) (k : Checked) (a : Nat) (task : Option Nat) : EventShape s (mappedOut s k a task) := by
  unfold Machine.mappedOut
  split
  · exact .bump _ _ _ _ _ _
  · exact .raise _ _ _ _ _ _ _

/-- A failed scalar access reaches what an event reaches. -/
theorem EventShape.scalarFailure (s : State) (g : Nat) (d : Dir) (st a : Nat) (k : Checked) :
    EventShape s (portFailure s g 2 d st a k) := by
  have hlatched : ∀ (x : State) (w : Word), EventShape s x →
      EventShape s (if bitOf (rg (Machine.bump x .pgAborts g 31 16) .pgLastAbort g) 7 = true then Machine.bump x .pgAborts g 31 16
        else Machine.setRg (Machine.bump x .pgAborts g 31 16) .pgLastAbort g w) := by
    intro x w h
    have hcounted := h.trans (.bump x .pgAborts g 31 16 1)
    split
    · exact hcounted
    · exact hcounted.trans (.setRg _ _ _ _)
  unfold portFailure
  dsimp only
  rw [if_pos rfl, if_pos rfl]
  refine hlatched _ _ ?_
  split
  · exact .raise _ _ _ _ _ _ _
  · split
    · exact .mappedOut s k a none
    · exact .refl s

section
variable {s : State} {g : Nat} {q : ScalarReq}

/-- The access of a request whose checks passed, on its way to its column's read queue. -/
def passedScalar (s : State) (g : Nat) (q : ScalarReq) : Scalar :=
  let k := checkNarrow s (.scalar g) q.we q.addr q.size
  ⟨s.nextScalar, q, fld (rgIn s.regsA .regPassPg g) 15 0, some s.clk, s.run, k.col,
    ((k.grans.head?).map Prod.snd).getD default, false, .buffered⟩

/-- The access of a request that reuses a tag: status 2 falls due four edges on. -/
def reusedScalar (s : State) (g : Nat) (q : ScalarReq) : Scalar :=
  ⟨s.nextScalar, q, fld (rgIn s.regsA .regPassPg g) 15 0, none, s.run, 0, default, false, .due (s.run + 4) 2 0⟩

/-- A request that reuses an outstanding tag is refused. -/
theorem doScalarRequest_reused (hr : scalarReady s g = true) (hs : sampling s = true)
    (ht : ∃ x ∈ s.scalar g, x.req.tag = q.tag) :
    doScalarRequest g q s = addScalar (portFailure s g 2 (if q.we then .wr else .rd) 2 q.addr default) g
      (reusedScalar s g q) := by
  have hany : ((s.scalar g).any fun x => x.req.tag == q.tag) = true := by simpa using ht
  simp only [doScalarRequest, hr, hs, hany]
  rfl

/-- A request of a free tag that passes its checks tries its column's read queue. -/
theorem doScalarRequest_passed (hr : scalarReady s g = true) (hs : sampling s = true) (ht : ∀ x ∈ s.scalar g, x.req.tag ≠ q.tag)
    (hk : (checkNarrow s (.scalar g) q.we q.addr q.size).st = 0) :
    doScalarRequest g q s = scalarEnter (addScalar s g (passedScalar s g q)) g (passedScalar s g q) (s.run + 3) := by
  have hany : ((s.scalar g).any fun x => x.req.tag == q.tag) = false := by simpa using ht
  simp only [doScalarRequest, hr, hs, hany, hk]
  rfl

/-- Without regulation, or without a limit of its class, no request is held in the input buffer (R454). -/
theorem scalarHeld_unlimited {x : Scalar}
    (h : bitOf (rg s .regCtrl) 0 = false ∨ rf s .regClassLimit (passClass x.pass) 20 16 = 0) : scalarHeld s g x = false := by
  unfold scalarHeld
  rcases h with h | h <;> simp [h]

/-- An access that nothing holds enters its column's read queue. -/
theorem scalarEnter_enters {x : Scalar} {n : Nat} (hb : ∀ y ∈ s.scalar g, y.stage = .buffered → y.id < x.id → y.col ≠ x.col)
    (hh : scalarHeld s g x = false) (hr : queueRoom s x.col .rd (20 + g) = true) :
    ∃ u, enqueue s x.col .rd (20 + g) (scalarEntry g x n) = some u ∧ u.scalar g = s.scalar g ∧
      scalarEnter s g x n = setScalarAt u g { x with stage := .reading } := by
  have hbefore : ((s.scalar g).any fun y => decide (y.stage = .buffered ∧ y.id < x.id ∧ y.col = x.col)) = false := by
    simpa using hb
  refine ⟨_, enqueue_eq _ hr, rfl, ?_⟩
  simp only [scalarEnter, hbefore, hh, enqueue_eq _ hr]
  rfl

/-- An access of a fresh number replaces itself alone. -/
theorem map_replace_last {l : List Scalar} {x y : Scalar} (hl : ∀ z ∈ l, z.id < x.id) (hy : y.id = x.id) :
    (l ++ [x]).map (fun z => if z.id = y.id then y else z) = l ++ [y] := by
  have hkept : l.map (fun z => if z.id = y.id then y else z) = l :=
    (List.map_congr_left fun z hz => if_neg (hy ▸ Nat.ne_of_lt (hl z hz))).trans (List.map_id' l)
  rw [List.map_append, hkept, List.map_singleton, if_pos hy.symm]

end

/-- Settles O25, clause by clause. -/
theorem scalarRequestsQueueOrRefuse : Obligations.ScalarRequestsQueueOrRefuse := by
  unfold Obligations.ScalarRequestsQueueOrRefuse
  refine ⟨?passed, ?reused⟩
  case passed =>
    intro g q s hs hready hsamp htag k hst hbuf hlim hroom hid
    have hout : (addScalar s g (passedScalar s g q)).scalar g = s.scalar g ++ [passedScalar s g q] := scalar_setScalar_same s g _
    obtain ⟨u, henq, hscalar, henter⟩ := scalarEnter_enters (s := addScalar s g (passedScalar s g q)) (g := g)
      (x := passedScalar s g q) (n := s.run + 3)
      (fun y hy hstage hlt => by
        rw [hout, List.mem_append, List.mem_singleton] at hy
        rcases hy with hy | rfl
        · exact hbuf y hy hstage
        · exact absurd hlt (Nat.lt_irrefl _))
      (scalarHeld_unlimited hlim) hroom
    obtain ⟨hentries, -⟩ := enqueue_entries henq
    have hdo : doScalarRequest g q s = setScalarAt u g { passedScalar s g q with stage := .reading } :=
      (doScalarRequest_passed hready hsamp htag hst).trans henter
    refine ⟨_, { passedScalar s g q with stage := .reading }, scalarEntry g (passedScalar s g q) (s.run + 3), steady_eq _ hs,
      ?_, rfl, rfl, rfl, ?_, rfl, rfl⟩
    · rw [calm_scalar, hdo, setScalarAt, scalar_setScalar_same, hscalar, hout]
      exact map_replace_last hid rfl
    · rw [calm_queue, hdo]
      exact hentries
  case reused =>
    intro g q s hs hready hsamp htag
    obtain ⟨_, _, _, _, hshape⟩ := EventShape.scalarFailure s g (if q.we then .wr else .rd) 2 q.addr default
    have hdo := doScalarRequest_reused hready hsamp htag
    rw [hshape] at hdo
    refine ⟨_, reusedScalar s g q, steady_eq _ hs, ?_, rfl, rfl, ?_⟩
    · rw [calm_scalar, hdo]
      exact scalar_setScalar_same _ g _
    · rw [calm_queues, hdo]
      rfl

end Sys2Proof.Machine
end

section
/-! Slot and scalar ports (R149, R152, R153, R157 to R160, R342): what an answered request leaves, and the write of a port group's enables. -/

namespace Sys2Proof.Machine

/-- A fold whose steps all keep a part of the state keeps it. -/
theorem foldl_keeps {α β γ : Type} (p : β → γ) {f : β → α → β} (h : ∀ b a, p (f b a) = p b) :
    ∀ (l : List α) (b : β), p (l.foldl f b) = p b
  | [], _ => rfl
  | a :: l, b => (foldl_keeps p h l (f b a)).trans (h b a)

/-! ### Deliveries (R152, R158, R159) -/

/-- What a request's delivery gives each of its stripes: the descriptor's state, its lane, its status. -/
def deliveredStripes (s : State) (x : Nat) (b : Beat) : List (DescSt × Option RdLane × Nat) :=
  (List.range b.descs.length).zip b.descs |>.map fun e =>
    (e.2, slotLane s x b.id e.1,
      deliverSt ((s.rdDir x).failed.any fun f => decide (f.1 = b.batch ∧ f.2.2 < b.id)) e.2 (slotLane s x b.id e.1))

theorem deliveredStripes_length (s : State) (x : Nat) (b : Beat) : (deliveredStripes s x b).length = b.descs.length := by
  simp [deliveredStripes]

/-- Each stripe stands at its descriptor's place. -/
theorem deliveredStripes_getElem? (s : State) (x : Nat) {b : Beat} {i : Nat} {d : DescSt} (h : b.descs[i]? = some d) :
    (deliveredStripes s x b)[i]? = some (d, slotLane s x b.id i,
      deliverSt ((s.rdDir x).failed.any fun f => decide (f.1 = b.batch ∧ f.2.2 < b.id)) d (slotLane s x b.id i)) := by
  have hi : i < b.descs.length := (List.getElem?_eq_some_iff.1 h).1
  have hz : ((List.range b.descs.length).zip b.descs)[i]? = some (i, d) :=
    List.getElem?_zip_eq_some.2 ⟨List.getElem?_range hi, h⟩
  rw [deliveredStripes, List.getElem?_map, hz]
  rfl

theorem noteFailed_beats (v : SlotDir) (batch e n : Nat) : (noteFailed v batch e n).beats = v.beats := by
  unfold noteFailed
  split <;> rfl

theorem closeBatch_beats (v : SlotDir) (b : Beat) : (closeBatch v b).beats = v.beats := by
  unfold closeBatch
  split <;> rfl

/-- The delivery that a read request is given on its bus. -/
def readAnswer (s : State) (x : Nat) (b : Beat) (data : List Row) : SlotOut :=
  ⟨b.due, (deliveredStripes s x b).map fun e => e.1.valid && decide (e.2.2 = 0), (deliveredStripes s x b).map fun e => e.2.2, data⟩

/-- A delivery drives the read bus with the request's stripes and takes the request off its batch. -/
theorem doReadDelivery_delivers {s : State} {x : Nat} {b : Beat}
    (h : (s.rdDir x).beats.find? (fun b => decide (b.due ≤ s.run)) = some b) :
    ∃ data, Tab.get (fun _ => ⟨0, [], [], []⟩) (doReadDelivery x s).slotRdOut x = readAnswer s x b data ∧
      ((doReadDelivery x s).rdDir x).beats = (s.rdDir x).beats.filter fun c => c.id != b.id := by
  unfold doReadDelivery
  dsimp only
  rw [h]
  refine ⟨_, Tab.get_set_same _ _ _ _, (congrArg SlotDir.beats (rdDir_setRdDir_same _ x _)).trans ?_⟩
  rw [closeBatch_beats]
  split
  · rw [noteFailed_beats]
  · rfl

/-! ### Write responses (R153, R160, R342) -/

/-- The counters of a Tally unit that a response can move. -/
def tallyCounters (x : Nat) : List (RegId × Nat) := [(.tallyRows, x), (.tallyClamps, x), (.tallyParts, x)]

/-- What counting a request leaves alone: the write side of the slot ports, and every register but the unit's counters. -/
def TallyStep (x : Nat) (s t : State) : Prop :=
  t.slotWr = s.slotWr ∧ t.slotWrOut = s.slotWrOut ∧ RegsKept (tallyCounters x) s t

theorem TallyStep.refl (x : Nat) (s : State) : TallyStep x s s := ⟨rfl, rfl, .refl _ s⟩

theorem TallyStep.trans {x : Nat} {s t u : State} (h1 : TallyStep x s t) (h2 : TallyStep x t u) : TallyStep x s u :=
  ⟨h2.1.trans h1.1, h2.2.1.trans h1.2.1, (h1.2.2.trans h2.2.2).mono (by simp)⟩

theorem TallyStep.setTally (x : Nat) (s : State) (v : Tally) : TallyStep x s (s.setTally x v) :=
  ⟨rfl, rfl, .of_regs _ rfl⟩

theorem TallyStep.bump {x : Nat} {id : RegId} (h : (id, x) ∈ tallyCounters x) (s : State) (hi lo n : Nat) :
    TallyStep x s (bump s id x hi lo n) :=
  ⟨rfl, rfl, (RegsKept.bump s id x hi lo n).mono fun _ he => List.mem_singleton.1 he ▸ h⟩

theorem TallyStep.bumpIf {x : Nat} {id : RegId} (h : (id, x) ∈ tallyCounters x) (c : Prop) [Decidable c] (s : State) (hi lo : Nat) :
    TallyStep x s (if c then Machine.bump s id x hi lo else s) := by
  split
  · exact .bump h _ _ _ _
  · exact .refl x s

theorem TallyStep.closeRow (s : State) (x : Nat) (part abort : Bool) (due : Option Nat) :
    TallyStep x s (closeRow s x part abort due) := by
  unfold Machine.closeRow
  dsimp only
  split
  · exact .refl x s
  · exact ((((TallyStep.setTally x s _).trans (.bump (by simp [tallyCounters]) _ 31 0 1)).trans
      (.bumpIf (by simp [tallyCounters]) _ _ 31 0)).trans (.bumpIf (by simp [tallyCounters]) _ _ 15 0)).trans
      (.bumpIf (by simp [tallyCounters]) _ _ 31 16)

theorem TallyStep.closeRowIf (c : Prop) [Decidable c] (s : State) (x : Nat) (due : Option Nat) :
    TallyStep x s (if c then Machine.closeRow s x false false due else s) := by
  split
  · exact .closeRow _ _ _ _ _
  · exact .refl x s

theorem TallyStep.openRow (s : State) (x : Nat) : TallyStep x s (openRow s x) := by
  unfold Machine.openRow
  dsimp only
  split
  · exact .refl x s
  · exact ⟨rfl, rfl, .of_regs _ rfl⟩

theorem TallyStep.countGrans (x due : Nat) : ∀ (l : List (List InVal)) (s : State), TallyStep x s (countGrans x due l s)
  | [], s => .refl x s
  | g :: l, s => by
    rw [Machine.countGrans]
    exact (((TallyStep.openRow s x).trans (.setTally x _ _)).trans (.closeRowIf _ _ x _)).trans (.countGrans x due l _)

theorem TallyStep.tallyEnd (s : State) (x due : Nat) : TallyStep x s (tallyEnd s x due) :=
  (TallyStep.closeRow s x true false (some due)).trans (.setTally x _ _)

/-- The count of an answered request reaches its Tally unit alone. -/
theorem TallyStep.tallyRequest (s : State) (x n : Nat) (ok last : Bool) (j : TallyJob) :
    TallyStep x s (tallyRequest s x n ok last j) := by
  unfold Machine.tallyRequest
  dsimp only
  refine .trans (.setTally x s { s.tally x with cur := j.set, index := if j.restart then j.set.trec else (s.tally x).index }) ?_
  generalize s.setTally x _ = u
  have hcount : TallyStep x u (if ok then Machine.countGrans x (n + 12) j.grans u else Machine.closeRow u x true true none) := by
    split
    · exact .countGrans x _ _ u
    · exact .closeRow u x true true none
  split
  · exact hcount.trans (.tallyEnd _ x _)
  · exact hcount

/-- The response that a write request is given on its bus. -/
def writeAnswer (b : Beat) : SlotOut := ⟨b.due, b.descs.map DescSt.valid, b.descs.map fun d => if d.valid then d.st else 0, []⟩

/-- The request is answered and off its batch, its Tally unit not yet told. -/
def writeAnswered (s : State) (x : Nat) (b : Beat) : State :=
  { s.setWrDir x (closeBatch { s.wrDir x with beats := (s.wrDir x).beats.filter fun c => c.id != b.id } b) with
    slotWrOut := Tab.set (fun _ => ⟨0, [], [], []⟩) s.slotWrOut x (writeAnswer b) }

section
variable {s : State} {x : Nat} {b : Beat} (h : (s.wrDir x).beats.find? (fun b => decide (b.due ≤ s.run)) = some b)
include h

theorem doWriteResponse_untallied (hj : b.tally = none) : doWriteResponse x s = writeAnswered s x b := by
  simp only [doWriteResponse, h, hj]
  rfl

theorem doWriteResponse_tallied {j : TallyJob} (hj : b.tally = some j) : doWriteResponse x s =
    tallyRequest (writeAnswered s x b) x b.at_ (b.descs.all fun d => !d.valid || d.st == 0) b.last j := by
  simp only [doWriteResponse, h, hj]
  rfl

theorem doWriteResponse_step : TallyStep x (writeAnswered s x b) (doWriteResponse x s) := by
  cases hj : b.tally with
  | none =>
    rw [doWriteResponse_untallied h hj]
    exact .refl x _
  | some j =>
    rw [doWriteResponse_tallied h hj]
    exact .tallyRequest _ x _ _ _ j

end

/-- Settles O13: both directions answer the first request that is due; the Tally unit's counting keeps the rest. -/
theorem slotPortsAnswerTheOldestRequest : Obligations.SlotPortsAnswerTheOldestRequest := by
  unfold Obligations.SlotPortsAnswerTheOldestRequest
  refine ⟨?read, ?write⟩
  case read =>
    intro x b s hs hb
    obtain ⟨data, hout, hbeats⟩ := doReadDelivery_delivers hb
    refine ⟨_, readAnswer s x b data, steady_eq _ hs, hout, rfl, hbeats, ?_, fun i d hd => ?_⟩
    · simp [readAnswer, deliveredStripes_length]
    · simp [readAnswer, deliveredStripes_getElem? s x hd]
  case write =>
    intro x b s hs hb
    obtain ⟨hdir, hout, hregs⟩ := doWriteResponse_step hb
    refine ⟨_, writeAnswer b, steady_eq _ hs, ?_, rfl, ?_, fun i d hd => ?_, ?_, fun hj => ?_⟩
    · exact (congrArg (Tab.get _ · x) hout).trans (Tab.get_set_same _ _ _ _)
    · have hbeats := congrArg SlotDir.beats ((congrArg (Tab.get (fun _ => idleDir) · x) hdir).trans (wrDir_setWrDir_same s x _))
      exact hbeats.trans (closeBatch_beats _ b)
    · simp [writeAnswer, hd]
    · exact (RegsKept.of_regs [] rfl).trans hregs
    · exact .of_regs [] ((congrArg State.regs (doWriteResponse_untallied hb hj)) :)

/-! ### Scalar responses (R157) -/

/-- Turning read data into responses leaves the queues and the write lanes. -/
theorem scalarSettle_keeps (s : State) (g : Nat) :
    (scalarSettle s g).queues = s.queues ∧ (scalarSettle s g).wrLanes = s.wrLanes := by
  refine Prod.mk.inj (foldl_keeps (fun u : State => (u.queues, u.wrLanes)) (fun u x => ?_) _ s)
  dsimp only
  split
  next l _ =>
    have hfound := FindShape.foundAll l.col l.finds .client none (dropLane u l)
    generalize (scalarUe x.req (readRow ((l.got.getD []).headD default)) || l.par) = ue
    cases ue with
    | false =>
      obtain ⟨hqueues, -, hlanes⟩ := hfound.lanes
      exact Prod.ext hqueues hlanes
    | true =>
      obtain ⟨hqueues, -, hlanes⟩ := (hfound.trans (EventShape.scalarFailure _ g .rd 7 x.req.addr default).find).lanes
      exact Prod.ext hqueues hlanes
  next => rfl

/-- The response presented is that of the access that settling left due; the access is outstanding no more. -/
theorem doScalarResponse_presents {s : State} {g st : Nat} {x : Scalar} {v : BitVec 64} (ha : aclkEdge s = true)
    (hd : scalarDue (scalarSettle s g) g = some (x, st, v)) : doScalarResponse g s =
      { (scalarSettle s g).setScalar g (((scalarSettle s g).scalar g).filter fun y => y.id != x.id) with
        scalarOut := Tab.set (fun _ => ⟨0, 0, false, 0, 0⟩) (scalarSettle s g).scalarOut g ⟨s.run, x.req.tag, x.req.we, st, v⟩ } := by
  simp only [doScalarResponse, ha, hd]
  rfl

/-- Settles O27. -/
theorem scalarResponsesArePresented : Obligations.ScalarResponsesArePresented := by
  unfold Obligations.ScalarResponsesArePresented
  intro g st x v s hs ha hd
  have hdo := doScalarResponse_presents ha hd
  obtain ⟨hqueues, hlanes⟩ := scalarSettle_keeps s g
  refine ⟨_, steady_eq _ hs, ?out, ?gone, ?queues, ?lanes⟩
  case out => exact (congrArg (Tab.get _ · g) (congrArg State.scalarOut hdo)).trans (Tab.get_set_same _ _ _ _)
  case gone =>
    rw [calm_scalar, hdo]
    have hleft := scalar_setScalar_same (scalarSettle s g) g (((scalarSettle s g).scalar g).filter fun y => y.id != x.id)
    exact fun y hy => bne_iff_ne.1 (List.mem_filter.1 (hleft ▸ hy : y ∈ ((scalarSettle s g).scalar g).filter _)).2
  case queues => exact (congrArg State.queues hdo).trans hqueues
  case lanes => exact (congrArg State.wrLanes hdo).trans hlanes

/-! ### Enables (R149, R529) -/

/-- A write's answer completes after the time of its page. -/
def stampWrite (s : State) (off : Nat) (a : RegAns) : RegAns :=
  { a with due := s.clk + answerTime off, sub := pageNo off, write := true }

theorem timed_write (off g : Nat) (f : State → State) (s : State) : timed off (pageNo off) true f { s with gate := g } =
    { f (acting s g) with answers := s.answers ++ (f (acting s g)).answers.map (stampWrite s off) } := rfl

/-- An accepted write of a register that answers OKAY at once leaves its work, and its answer after the time of its page. -/
theorem ctlWrite_does {s u : State} {w : Who} (hs : Running s) (hw : FullView w) (hg : Granted s w) {id : RegId} {i : Nat} {v : Word}
    (hi : i < id.size) (hb : id ∉ [.sboxData, .sboxSet, .sboxClr]) (he : writeReg w id i v (acting s (s.clk + 1)) = ok w u) :
    ctlWrite w id i v s = { u with
      answers := s.answers ++ (u.answers ++ [RegAns.mk w 0 false u.clk 0 false false]).map (stampWrite s (id.offset i)) } := by
  rw [ctlWrite_running hs hw hg hi v (.inr hb), timed_write, he, ok_eq]

/-- A write of a port group's enables stores them. -/
theorem writeReg_pgCtrl (w : Who) (g : Nat) (v : Word) (s : State) : writeReg w .pgCtrl g v s = ok w (doPortCtrl g v s) :=
  if_neg (by simp [writeRefused, starts])

/-- Settles O14: both commands are the one write of the enables. -/
theorem portEnablesAreStored : Obligations.PortEnablesAreStored := by
  unfold Obligations.PortEnablesAreStored
  intro w g v s hs hw hg hlt c hc
  have hdo := ctlWrite_does hs hw hg (id := .pgCtrl) (i := g) (v := v) hlt (by decide) (writeReg_pgCtrl w g v _)
  have hexec : exec c s = steady s (ctlWrite w .pgCtrl g v) := by
    simp only [List.mem_cons, List.not_mem_nil, or_false] at hc
    rcases hc with rfl | rfl <;> rfl
  refine ⟨_, hexec.trans (steady_eq _ hs.1), ?stored, ?kept, ⟨pageNo (RegId.pgCtrl.offset g), true, ?answered⟩, ?rd, ?wr, ?scalars⟩
  case stored =>
    rw [calm_rg, hdo]
    exact rg_setRg_same _ _ _ _
  case kept => exact (RegsKept.setRg (acting s (s.clk + 1)) .pgCtrl g (v &&& RegId.pgCtrl.row.rw)).of_acting (congrArg State.regs hdo :)
  case answered => exact (congrArg State.answers hdo :)
  case rd => exact (congrArg State.slotRd hdo :)
  case wr => exact (congrArg State.slotWr hdo :)
  case scalars => exact (congrArg State.scalars hdo :)

end Sys2Proof.Machine
end

section
/-! Link ports (R169 to R174, R389): what a header, a flit or a returned credit leaves of a port and its counters, and how a packet's
header leaves. -/

namespace Sys2Proof.Machine

@[simp] theorem calm_link (f : State → State) (s : State) (l : Nat) : (calm f s).link l = (f s).link l := rfl

/-! ### Events -/

/-- An event leaves the link ports, the flips of the coded words, the time. -/
theorem EventShape.ports {s t : State} (h : EventShape s t) : t.links = s.links ∧ t.upsOther = s.upsOther ∧ t.clk = s.clk := by
  obtain ⟨_, _, _, _, rfl⟩ := h
  exact ⟨rfl, rfl, rfl⟩

theorem EventShape.link {s t : State} (h : EventShape s t) (l : Nat) : t.link l = s.link l :=
  congrArg (Tab.get (fun _ => idleLink) · l) h.ports.1

/-- A listed source's event stands in STAT. -/
theorem raise_sets (s : State) {n b : Nat} (loc det : Nat) (task : Option Nat) (forced : Bool) (h : srcListed n b = true) (hb : b < 32) :
    bitOf (rg (raise s n b loc det task forced) .fuStat n) b = true := by
  rw [raise_stat s n b loc det task forced h]
  exact bitOf_setBit_same _ _ _ hb

/-- An event takes no other source out of STAT. -/
theorem raise_keeps {s : State} {n b c : Nat} (loc det : Nat) (task : Option Nat) (forced : Bool) (h : srcListed n b = true)
    (hbc : b ≠ c) (hc : bitOf (rg s .fuStat n) c = true) : bitOf (rg (raise s n b loc det task forced) .fuStat n) c = true := by
  rw [raise_stat s n b loc det task forced h, bitOf_setBit_other _ _ _ _ hbc, hc]

/-! ### Coded credit counters (R389) -/

section
variable {s : State} {i loc : Nat} {f : State → State}

theorem creditMeets_readable (h : creditUe s i = false) : creditMeets s i loc f = freshCredit (f s) i := if_neg (by simp [h])

theorem creditMeets_broken (h : creditUe s i = true) : creditMeets s i loc f = raise s fuPorter 3 loc := if_pos h

/-- A counter that takes a count, or meets its code, leaves the others readable or not as they were. -/
theorem creditUe_creditMeets {j : Nat} (hf : (f s).upsOther = s.upsOther) (hij : i ≠ j) :
    creditUe (creditMeets s i loc f) j = creditUe s j := by
  unfold creditMeets
  split
  · rw [creditUe, (EventShape.raise s fuPorter 3 loc 0 none false).ports.2.1, creditUe]
  · have hsite : Store.credit.site i ≠ Store.credit.site j := by simp only [Store.site]; omega
    rw [creditUe, freshCredit, hf, Tab.get_set_other _ _ _ hsite, creditUe]

end

@[simp] theorem freshCredit_regs (s : State) (i : Nat) : (freshCredit s i).regs = s.regs := rfl
@[simp] theorem freshCredit_clk (s : State) (i : Nat) : (freshCredit s i).clk = s.clk := rfl
@[simp] theorem freshCredit_link (s : State) (i l : Nat) : (freshCredit s i).link l = s.link l := rfl
@[simp] theorem backCredits_regs (s : State) (l hdr dat : Nat) : (backCredits s l hdr dat).regs = s.regs := rfl
@[simp] theorem backCredits_link (s : State) (l hdr dat : Nat) : (backCredits s l hdr dat).link l =
    { s.link l with backHdr := (s.link l).backHdr + hdr, backData := (s.link l).backData + dat } := link_setLink_same s l _

/-! ### Headers and flits that arrive (R171 to R173) -/

/-- An inbound header credit is spent. -/
def headerTaken (s : State) (l : Nat) : State :=
  freshCredit (s.setLink l { s.link l with owedHdr := (s.link l).owedHdr - 1 }) (linkCredit l 2)

/-- An inbound data credit is spent. -/
def flitTaken (s : State) (l : Nat) : State :=
  freshCredit (s.setLink l { s.link l with owedData := (s.link l).owedData - 1 }) (linkCredit l 3)

@[simp] theorem headerTaken_regs (s : State) (l : Nat) : (headerTaken s l).regs = s.regs := rfl
@[simp] theorem headerTaken_link (s : State) (l : Nat) :
    (headerTaken s l).link l = { s.link l with owedHdr := (s.link l).owedHdr - 1 } := link_setLink_same s l _

@[simp] theorem flitTaken_regs (s : State) (l : Nat) : (flitTaken s l).regs = s.regs := rfl
@[simp] theorem flitTaken_link (s : State) (l : Nat) :
    (flitTaken s l).link l = { s.link l with owedData := (s.link l).owedData - 1 } := link_setLink_same s l _

section
variable {s : State} {l : Nat}

theorem takeHeader_credited (hc : 0 < (s.link l).owedHdr) (hu : creditUe s (linkCredit l 2) = false) :
    takeHeader s l = (headerTaken s l, true) := by
  rw [takeHeader, if_pos hc, creditMeets_readable hu]
  rfl

theorem takeFlit_credited (hc : 0 < (s.link l).owedData) (hu : creditUe s (linkCredit l 3) = false) :
    takeFlit s l = (flitTaken s l, true) := by
  rw [takeFlit, if_pos hc, creditMeets_readable hu]
  rfl

end

/-! ### Inbound WRITE packets (R172, R173, R432 to R434) -/

/-- A WRITE whose header has just arrived. -/
def arrived (s : State) (l : Nat) (h : Header) : InPkt :=
  ⟨(s.link l).nextIn, h, s.clk + 3, false, flitsOf h.len, 0, none, false, [], 0, [], [], false⟩

/-- A WRITE header spends its credit and joins the packets of its port. -/
theorem doInboundWrite_arrives {s : State} {l : Nat} {h : Header} (hup : linkUp s l = true) (hok : headerOk h 1 = true)
    (hc : 0 < (s.link l).owedHdr) (hu : creditUe s (linkCredit l 2) = false) :
    doInboundWrite l h s = (headerTaken s l).setLink l { (headerTaken s l).link l with
      nextIn := ((headerTaken s l).link l).nextIn + 1, inQ := ((headerTaken s l).link l).inQ ++ [arrived s l h] } := by
  simp only [doInboundWrite, hup, hok, takeHeader_credited hc hu]
  rw [arrived, headerTaken_link]
  rfl

/-- One flit of a packet has been taken. -/
def flitCounted (q : InPkt) : InPkt := { q with owed := q.owed - 1, taken := q.taken + 1 }

/-- The packet's flits are discarded: malformed, refused or lost. -/
def discards (q : InPkt) : Bool := q.drop || q.refused.isSome || q.lost

@[simp] theorem setIn_regs (s : State) (l : Nat) (p : InPkt) : (setIn s l p).regs = s.regs := rfl
@[simp] theorem setIn_link (s : State) (l : Nat) (p : InPkt) : (setIn s l p).link l =
    { s.link l with inQ := (s.link l).inQ.map fun q => if q.id = p.id then p else q } := link_setLink_same s l _

/-- A packet put in the place of one that the port holds stands there. -/
theorem mem_setIn {s : State} {l : Nat} {q p : InPkt} (hq : q ∈ (s.link l).inQ) (hid : q.id = p.id) :
    p ∈ ((setIn s l p).link l).inQ := by
  rw [setIn_link]
  exact List.mem_map.2 ⟨q, hq, if_pos hid⟩

theorem discards_iff (q : InPkt) : discards q = true ↔ q.drop = true ∨ q.refused.isSome = true ∨ q.lost = true := by
  simp [discards, or_assoc]

/-- The flits of a packet neither malformed, refused nor lost are wanted. -/
theorem discards_eq_false {q : InPkt} (hdrop : q.drop = false) (href : q.refused = none) (hlost : q.lost = false) :
    discards q = false := by
  simp [discards, hdrop, href, hlost]

/-- Spending the credit leaves the packet that the flit is owed to. -/
theorem owed_mem_flitTaken {s : State} {l : Nat} {q : InPkt} (hq : owedPkt (s.link l) = some q) :
    q ∈ ((flitTaken s l).link l).inQ := by
  rw [flitTaken_link]
  exact List.mem_of_find?_eq_some hq

section
variable {s : State} {l : Nat} {q : InPkt} (hup : linkUp s l = true) (hq : owedPkt (s.link l) = some q)
  (hc : 0 < (s.link l).owedData) (hu : creditUe s (linkCredit l 3) = false) (data : List Row)
include hup hq hc hu

/-- A flit spends its credit and meets the fate of its packet. -/
theorem doInboundFlit_eq : doInboundFlit l data s =
    if discards q then backCredits (setIn (flitTaken s l) l (flitCounted q)) l 0 1
    else if q.checked then setIn (flitTaken s l) l (splitFlit (flitCounted q) q.taken data)
    else setIn (flitTaken s l) l { flitCounted q with kept := q.kept ++ [data] } := by
  have hq' : owedPkt ((flitTaken s l).link l) = some q := by
    rw [flitTaken_link]
    exact hq
  simp only [doInboundFlit, hup, hq, takeFlit_credited hc hu, hq']
  rfl

theorem doInboundFlit_regs : (doInboundFlit l data s).regs = s.regs := by
  rw [doInboundFlit_eq hup hq hc hu data]
  split
  · simp
  · split <;> simp

theorem doInboundFlit_owedData : ((doInboundFlit l data s).link l).owedData = (s.link l).owedData - 1 := by
  rw [doInboundFlit_eq hup hq hc hu data]
  split
  · simp
  · split <;> simp

/-- A flit of a packet whose flits are discarded returns its credit. -/
theorem doInboundFlit_discarded (hd : discards q = true) : flitCounted q ∈ ((doInboundFlit l data s).link l).inQ ∧
    ((doInboundFlit l data s).link l).backData = (s.link l).backData + 1 := by
  rw [doInboundFlit_eq hup hq hc hu data, if_pos hd, backCredits_link]
  exact ⟨mem_setIn (owed_mem_flitTaken hq) rfl, by simp⟩

/-- A flit of an admitted packet becomes stripes. -/
theorem doInboundFlit_admitted (hd : discards q = false) (hk : q.checked = true) :
    splitFlit (flitCounted q) q.taken data ∈ ((doInboundFlit l data s).link l).inQ := by
  rw [doInboundFlit_eq hup hq hc hu data, if_neg (by simp [hd]), if_pos hk]
  exact mem_setIn (owed_mem_flitTaken hq) rfl

/-- A flit of a packet not yet checked is kept. -/
theorem doInboundFlit_kept (hd : discards q = false) (hk : q.checked = false) :
    { flitCounted q with kept := q.kept ++ [data] } ∈ ((doInboundFlit l data s).link l).inQ := by
  rw [doInboundFlit_eq hup hq hc hu data, if_neg (by simp [hd]), if_neg (by simp [hk])]
  exact mem_setIn (owed_mem_flitTaken hq) rfl

/-- The packet that a flit is owed to, as the flit leaves it. -/
theorem doInboundFlit_packet : ∃ p ∈ ((doInboundFlit l data s).link l).inQ, p.id = q.id ∧ p.owed = q.owed - 1 ∧
    (discards q = false → q.checked = false → p.kept = q.kept ++ [data]) ∧
    (discards q = false → q.checked = true → p.stripes = q.stripes ++ flitStripes q q.taken data) ∧
    (discards q = true → p.stripes = q.stripes ∧ p.kept = q.kept ∧
      ((doInboundFlit l data s).link l).backData = (s.link l).backData + 1) := by
  cases hd : discards q with
  | true =>
    obtain ⟨hmem, hback⟩ := doInboundFlit_discarded hup hq hc hu data hd
    exact ⟨_, hmem, rfl, rfl, nofun, nofun, fun _ => ⟨rfl, rfl, hback⟩⟩
  | false =>
    cases hk : q.checked with
    | true => exact ⟨_, doInboundFlit_admitted hup hq hc hu data hd hk, rfl, rfl, nofun, fun _ _ => rfl, nofun⟩
    | false => exact ⟨_, doInboundFlit_kept hup hq hc hu data hd hk, rfl, rfl, fun _ _ => rfl, nofun, nofun⟩

end

/-- Settles O28: a flit's fate follows that of the packet it is owed to. -/
theorem inboundWritesAreFramed : Obligations.InboundWritesAreFramed := by
  unfold Obligations.InboundWritesAreFramed
  refine ⟨?header, ?flit⟩
  case header =>
    intro l h s hs hup hok hc hu
    have hdo := doInboundWrite_arrives hup hok hc hu
    have hlink := (congrArg (State.link · l) hdo).trans (link_setLink_same _ _ _)
    rw [headerTaken_link] at hlink
    exact ⟨_, arrived s l h, steady_eq _ hs, congrArg Link.inQ hlink, rfl, rfl, rfl, rfl, rfl, congrArg Link.owedHdr hlink,
      .of_regs [] ((congrArg State.regs hdo).trans ((setLink_regs _ _ _).trans (headerTaken_regs s l)))⟩
  case flit =>
    intro l data q s hs hup hq hc hu
    obtain ⟨p, hmem, hid, howed, hkept, hsplit, hback⟩ := doInboundFlit_packet hup hq hc hu data
    exact ⟨_, p, steady_eq _ hs, hmem, hid, howed, doInboundFlit_owedData hup hq hc hu data,
      .of_regs [] (doInboundFlit_regs hup hq hc hu data),
      fun hdrop href hlost => hkept (discards_eq_false hdrop href hlost),
      fun hdrop href hlost => hsplit (discards_eq_false hdrop href hlost), fun h => hback ((discards_iff q).2 h)⟩

/-! ### Framing faults (R173) -/

/-- The registers that events write. -/
def eventRegs : List RegId :=
  [.fuStat, .fuEvents, .fuLedgerStat, .fuFirst, .fuFirstLoc, .fuFirstDetail, .fuFirstTime, .fuSafeInfo, .fuSafeTime]

/-- An event leaves every register that is not one of the fault units' records. -/
theorem rg_raise (s : State) {n : Nat} (b loc det : Nat) (task : Option Nat) (forced : Bool) {id : RegId} {i : Nat} (hn : n < 1048576)
    (hi : i < 1048576) (hid : id ∉ eventRegs) : rg (raise s n b loc det task forced) id i = rg s id i := by
  refine RegsKept.raise s n b loc det task forced id i hi fun e he => ?_
  obtain ⟨hmem, hlt⟩ : e.1 ∈ eventRegs ∧ e.2 < 1048576 := by
    revert e
    simp [eventRegs, hn]
  exact RegId.key_ne hlt hi (.inl fun h => hid (h ▸ hmem))

/-- A framing fault is raised as LINK_FRAME and counted. -/
theorem frameFault_counts {s t u : State} {l : Nat} (hl : l < 4) (hu : u.regs = s.regs) (ht : t.regs = (frameFault u l).regs) :
    bitOf (rg t .fuStat 80) 19 = true ∧ rf t .lpStat l 31 16 = min 65535 (rf s .lpStat l 31 16 + 1) := by
  refine ⟨?_, ?_⟩
  · rw [rg_congr ht]
    exact raise_sets _ 0 0 none false (by decide) (by decide)
  · have hcount : rf (bump u .lpStat l 31 16) .lpStat l 31 16 = min 65535 (rf u .lpStat l 31 16 + 1) :=
      rf_bump_same u .lpStat l 31 16 1 (by decide) (by decide)
    rw [rf, rg_congr ht, frameFault, rg_raise _ 19 0 0 none false (by decide) (by omega) (by decide), ← rf, hcount, rf, rg_congr hu, ← rf]

@[simp] theorem frameFault_link (s : State) (l m : Nat) : (frameFault s l).link m = s.link m :=
  (EventShape.raise (bump s .lpStat l 31 16) fuPorter 19 0 0 none false).link m

theorem linkUp_lt {s : State} {l : Nat} (h : linkUp s l = true) : l < 4 := by
  simp only [linkUp, Bool.and_eq_true, decide_eq_true_eq] at h
  exact h.1.1.2

/-- A malformed header is discarded, whatever flits it frames, and its credit returns. -/
theorem doMalformed_discards {s : State} {l : Nat} {h : Header} (hup : linkUp s l = true) (hc : 0 < (s.link l).owedHdr)
    (hu : creditUe s (linkCredit l 2) = false) (hbad : h.type = 0 ∨ 7 < h.type ∨ 23 < h.link ∨ (h.type ≠ 1 ∧ h.len ≠ 0)) :
    (doMalformed l h s).regs = (frameFault (headerTaken s l) l).regs ∧
      ((doMalformed l h s).link l).backHdr = (s.link l).backHdr + 1 ∧
      ((doMalformed l h s).link l).outQ = (s.link l).outQ := by
  simp only [doMalformed, hup, hbad, takeHeader_credited hc hu, decide_true, Bool.not_true, Bool.or_false, Bool.false_eq_true,
    if_false]
  split <;> simp

/-- A stray flit is discarded and its credit returns. -/
theorem doStrayFlit_discards {s : State} {l : Nat} (hup : linkUp s l = true) (hq : owedPkt (s.link l) = none)
    (hc : 0 < (s.link l).owedData) (hu : creditUe s (linkCredit l 3) = false) :
    doStrayFlit l s = backCredits (frameFault (flitTaken s l) l) l 0 1 := by
  simp only [doStrayFlit, hup, hq, takeFlit_credited hc hu]
  rfl

/-! ### Credits that return (R171, R389) -/

/-- A return of `n` credits to the counter `i`, of which `f` is the count. -/
def creditsReturned (s : State) (i l n : Nat) (f : State → State) : State := if n = 0 then s else creditMeets s i l f

section
variable {s : State} {i l n : Nat} {f : State → State}

theorem creditsReturned_link (m : Nat) :
    (creditsReturned s i l n f).link m = if n = 0 ∨ creditUe s i = true then s.link m else (f s).link m := by
  unfold creditsReturned
  by_cases hn : n = 0
  · simp [hn]
  · cases hu : creditUe s i with
    | true => simp [hn, creditMeets_broken hu, (EventShape.raise s fuPorter 3 l 0 none false).link]
    | false => simp [hn, creditMeets_readable hu]

/-- A return to a counter that can be read writes no register. -/
theorem creditsReturned_regs (hf : (f s).regs = s.regs) (hu : creditUe s i = false) :
    (creditsReturned s i l n f).regs = s.regs := by
  unfold creditsReturned
  split
  · rfl
  · rw [creditMeets_readable hu, freshCredit_regs, hf]

/-- A return to a counter that cannot be read raises CRD_UE. -/
theorem creditsReturned_ue (hn : n ≠ 0) (hu : creditUe s i = true) :
    bitOf (rg (creditsReturned s i l n f) .fuStat 80) 3 = true := by
  rw [creditsReturned, if_neg hn, creditMeets_broken hu]
  exact raise_sets s l 0 none false (by decide) (by decide)

/-- CRD_UE stays raised. -/
theorem creditsReturned_keeps (hf : (f s).regs = s.regs) (h : bitOf (rg s .fuStat 80) 3 = true) :
    bitOf (rg (creditsReturned s i l n f) .fuStat 80) 3 = true := by
  cases hu : creditUe s i with
  | false => exact (congrArg (bitOf · 3) (rg_congr (creditsReturned_regs (f := f) hf hu) _ _)).trans h
  | true =>
    by_cases hn : n = 0
    · simpa [creditsReturned, hn] using h
    · exact creditsReturned_ue hn hu

theorem creditUe_creditsReturned {j : Nat} (hf : (f s).upsOther = s.upsOther) (hij : i ≠ j) :
    creditUe (creditsReturned s i l n f) j = creditUe s j := by
  unfold creditsReturned
  split
  · rfl
  · exact creditUe_creditMeets hf hij

end

/-- A credit fault, where there is one, is raised and leaves the ports and CRD_UE. -/
theorem creditFault_if (c : Prop) [Decidable c] (s : State) : ∃ u, (if c then creditFault s else s) = u ∧
    (∀ m, u.link m = s.link m) ∧ (bitOf (rg s .fuStat 80) 3 = true → bitOf (rg u .fuStat 80) 3 = true) ∧
    (c → bitOf (rg u .fuStat 80) 11 = true) ∧ (¬c → u = s) := by
  refine ⟨_, rfl, ?_⟩
  split
  next hc =>
    exact ⟨(EventShape.raise s fuPorter 11 0 0 none false).link, raise_keeps 0 0 none false (by decide) (by decide),
      fun _ => raise_sets s 0 0 none false (by decide) (by decide), fun h => absurd hc h⟩
  next hc => exact ⟨fun _ => rfl, id, fun h => absurd h hc, fun _ => rfl⟩

/-- Header credits come back to a link port. -/
def hdrReturned (s : State) (l n : Nat) : State :=
  creditsReturned s (linkCredit l 0) l n fun u => u.setLink l { s.link l with outHdr := min 31 ((s.link l).outHdr + n) }

/-- Header and data credits come back to a link port. -/
def bothReturned (s : State) (l hdr dat : Nat) : State :=
  creditsReturned (hdrReturned s l hdr) (linkCredit l 1) l dat fun u =>
    u.setLink l { u.link l with outData := min 127 ((s.link l).outData + dat) }

section
variable (s : State) (l hdr dat : Nat)

/-- The return of header credits leaves the counter of data credits readable or not as it was. -/
theorem creditUe_hdrReturned : creditUe (hdrReturned s l hdr) (linkCredit l 1) = creditUe s (linkCredit l 1) :=
  creditUe_creditsReturned rfl (by simp [linkCredit])

theorem hdrReturned_link : (hdrReturned s l hdr).link l =
    if hdr = 0 ∨ creditUe s (linkCredit l 0) = true then s.link l
    else { s.link l with outHdr := min 31 ((s.link l).outHdr + hdr) } := by
  rw [hdrReturned, creditsReturned_link, link_setLink_same]

theorem bothReturned_link : (bothReturned s l hdr dat).link l =
    if dat = 0 ∨ creditUe s (linkCredit l 1) = true then (hdrReturned s l hdr).link l
    else { (hdrReturned s l hdr).link l with outData := min 127 ((s.link l).outData + dat) } := by
  rw [bothReturned, creditsReturned_link, creditUe_hdrReturned, link_setLink_same]

theorem bothReturned_outHdr : ((bothReturned s l hdr dat).link l).outHdr =
    if hdr = 0 ∨ creditUe s (linkCredit l 0) = true then (s.link l).outHdr else min 31 ((s.link l).outHdr + hdr) := by
  have hkept : ((bothReturned s l hdr dat).link l).outHdr = ((hdrReturned s l hdr).link l).outHdr := by
    rw [bothReturned_link]
    split <;> rfl
  rw [hkept, hdrReturned_link]
  split <;> rfl

theorem bothReturned_outData : ((bothReturned s l hdr dat).link l).outData =
    if dat = 0 ∨ creditUe s (linkCredit l 1) = true then (s.link l).outData else min 127 ((s.link l).outData + dat) := by
  have hkept : ((hdrReturned s l hdr).link l).outData = (s.link l).outData := by
    rw [hdrReturned_link]
    split <;> rfl
  rw [bothReturned_link]
  split
  · exact hkept
  · rfl

variable {s l hdr dat}

/-- A counter met by a return that cannot be read raises CRD_UE. -/
theorem bothReturned_ue (h : (hdr ≠ 0 ∧ creditUe s (linkCredit l 0) = true) ∨ (dat ≠ 0 ∧ creditUe s (linkCredit l 1) = true)) :
    bitOf (rg (bothReturned s l hdr dat) .fuStat 80) 3 = true := by
  rcases h with ⟨hn, hu⟩ | ⟨hn, hu⟩
  · exact creditsReturned_keeps rfl (creditsReturned_ue hn hu)
  · exact creditsReturned_ue hn ((creditUe_hdrReturned s l hdr).trans hu)

/-- Counters that can be read take returns without a register written. -/
theorem bothReturned_regs (h0 : creditUe s (linkCredit l 0) = false) (h1 : creditUe s (linkCredit l 1) = false) :
    (bothReturned s l hdr dat).regs = s.regs :=
  (creditsReturned_regs rfl ((creditUe_hdrReturned s l hdr).trans h1)).trans (creditsReturned_regs rfl h0)

theorem doCreditReturn_eq (hup : linkUp s l = true) : doCreditReturn l hdr dat s =
    if 31 < (s.link l).outHdr + hdr ∨ 127 < (s.link l).outData + dat then creditFault (bothReturned s l hdr dat)
    else bothReturned s l hdr dat := by
  simp only [doCreditReturn, hup]
  rfl

end

/-- Settles O29. That credits are counted up to the limit, and only those beyond it dropped, is the model's choice (log entry 39). -/
theorem framingFaultsAndCredits : Obligations.FramingFaultsAndCredits := by
  unfold Obligations.FramingFaultsAndCredits
  refine ⟨?malformed, ?stray, ?credits⟩
  case malformed =>
    intro l h s hs hup hc hu hbad
    obtain ⟨hregs, hback, hout⟩ := doMalformed_discards hup hc hu hbad
    obtain ⟨hbit, hcount⟩ := frameFault_counts (s := s) (linkUp_lt hup) (headerTaken_regs s l) hregs
    exact ⟨_, steady_eq _ hs, hbit, hcount, hback, hout⟩
  case stray =>
    intro l s hs hup hq hc hu
    have hdo := doStrayFlit_discards hup hq hc hu
    obtain ⟨hbit, hcount⟩ := frameFault_counts (s := s) (linkUp_lt hup) (flitTaken_regs s l) (congrArg State.regs hdo :)
    refine ⟨_, steady_eq _ hs, hbit, hcount, ?_, ?_⟩
    · simp [hdo]
    · simp [hdo]
  case credits =>
    intro l hdr dat s hs hup
    obtain ⟨u, hu, hlink, hkeep, hover, hwithin⟩ :=
      creditFault_if (31 < (s.link l).outHdr + hdr ∨ 127 < (s.link l).outData + dat) (bothReturned s l hdr dat)
    have hdo : doCreditReturn l hdr dat s = u := (doCreditReturn_eq hup).trans hu
    refine ⟨_, steady_eq _ hs, ?hdr, ?data, fun h => ?broken, fun h0 h1 hh hd => ?kept, fun h => ?fault⟩
    case hdr => rw [calm_link, hdo, hlink, bothReturned_outHdr]
    case data => rw [calm_link, hdo, hlink, bothReturned_outData]
    case broken =>
      rw [calm_rg, hdo]
      exact hkeep (bothReturned_ue h)
    case kept =>
      have hnone : u = bothReturned s l hdr dat := hwithin (by omega)
      exact .of_regs [] ((congrArg State.regs (hdo.trans hnone)).trans (bothReturned_regs h0 h1))
    case fault =>
      rw [calm_rg, hdo]
      exact hover h

/-! ### Packets that leave (R169 to R171, R174, R422) -/

/-- What a header that left stands on: the edge, what the port drives with it, its credits and its requests. -/
def HeaderStands (l : Nat) (s t : State) : Prop :=
  t.clk = s.clk ∧ (t.link l).tx.at_ = (s.link l).tx.at_ ∧ (t.link l).tx.hdr = (s.link l).tx.hdr ∧
    (t.link l).outHdr = (s.link l).outHdr ∧ (t.link l).sent = (s.link l).sent ∧ (t.link l).seq = (s.link l).seq

namespace HeaderStands

variable {l : Nat} {s t u : State}

theorem of_link (hc : t.clk = s.clk) (h : t.link l = s.link l) : HeaderStands l s t := by
  unfold HeaderStands
  rw [h]
  exact ⟨hc, rfl, rfl, rfl, rfl, rfl⟩

theorem refl (l : Nat) (s : State) : HeaderStands l s s := .of_link rfl rfl

theorem trans (h1 : HeaderStands l s t) (h2 : HeaderStands l t u) : HeaderStands l s u := by
  obtain ⟨a1, b1, c1, d1, e1, f1⟩ := h1
  obtain ⟨a2, b2, c2, d2, e2, f2⟩ := h2
  exact ⟨a2.trans a1, b2.trans b1, c2.trans c1, d2.trans d1, e2.trans e1, f2.trans f1⟩

/-- New contents of the port's queue and of its flits and data credits leave the header standing. -/
theorem setLink (v : Link) (ha : v.tx.at_ = (s.link l).tx.at_) (hh : v.tx.hdr = (s.link l).tx.hdr)
    (ho : v.outHdr = (s.link l).outHdr) (hs : v.sent = (s.link l).sent) (hq : v.seq = (s.link l).seq) :
    HeaderStands l s (s.setLink l v) := by
  unfold HeaderStands
  rw [link_setLink_same]
  exact ⟨rfl, ha, hh, ho, hs, hq⟩

theorem creditMeets {i loc : Nat} {f : State → State} (h : HeaderStands l s (f s)) :
    HeaderStands l s (Machine.creditMeets s i loc f) := by
  unfold Machine.creditMeets
  split
  · have hraised := EventShape.raise s fuPorter 3 loc 0 none false
    exact .of_link hraised.ports.2.2 (hraised.link l)
  · exact h

theorem packetEnd (l m : Nat) (s : State) (o : OutPkt) : HeaderStands l s (packetEnd s m o) := by
  unfold Machine.packetEnd
  dsimp only
  split
  · exact .refl l s
  · obtain ⟨hclk, hlinks⟩ := Prod.mk.inj (foldl_keeps (fun u : State => (u.clk, u.links)) (f := dropPiece) (fun _ _ => rfl) o.sqs s)
    exact .of_link hclk (congrArg (Tab.get (fun _ => idleLink) · l) hlinks)

theorem packetEndIf (c : Prop) [Decidable c] (l m : Nat) (s : State) (o : OutPkt) :
    HeaderStands l s (if c then Machine.packetEnd s m o else s) := by
  split
  · exact .packetEnd l m s o
  · exact .refl l s

/-- A flit that leaves at the header's edge leaves it standing. -/
theorem sendFlit (h : (s.link l).tx.at_ = s.clk) : HeaderStands l s (sendFlit s l) := by
  unfold Machine.sendFlit
  dsimp only
  rw [if_pos h]
  split
  next o rest _ =>
    split
    · refine .trans ?_ (.packetEndIf _ _ _ _ _)
      refine .trans ?_ (.creditMeets ?_)
      · exact .setLink _ rfl rfl rfl rfl rfl
      · exact .setLink _ rfl rfl rfl rfl rfl
    · exact .refl l s
  next => exact .refl l s

end HeaderStands

/-- One more flit leaves where the bus has room for it. -/
def flitLeaves (s : State) (l : Nat) : State := if flitsNow s l < 2 then sendFlit s l else s

theorem HeaderStands.flitLeaves {l : Nat} {s : State} (h : (s.link l).tx.at_ = s.clk) : HeaderStands l s (flitLeaves s l) := by
  unfold Machine.flitLeaves
  split
  · exact .sendFlit h
  · exact .refl l s

/-- The header that a packet leaves with: a request takes its link's next SEQ. -/
def sentHeader (s : State) (l : Nat) (o : OutPkt) : Header :=
  if o.answer then o.hdr else { o.hdr with seq := Tab.get (fun _ => 0) (s.link l).seq o.hdr.link }

/-- The request that waits for its answer from then on. -/
def sentRequest (s : State) (l : Nat) (o : OutPkt) : SentPkt :=
  ⟨(sentHeader s l o).type, (sentHeader s l o).link, (sentHeader s l o).seq, (sentHeader s l o).window,
    ((o.sqs.head?.bind s.piece).map Piece.task).getD 0, ((o.sqs.head?.bind s.piece).map Piece.agent).getD 0, o.sqs, s.clk, false⟩

section
variable {s : State} {l : Nat} {o : OutPkt} {rest : List OutPkt}

/-- The port as a header leaves it, its credit apart. -/
def headerDriven (s : State) (l : Nat) (o : OutPkt) (rest : List OutPkt) : Link :=
  { s.link l with
    seq := if o.answer then (s.link l).seq else Tab.set (fun _ => 0) (s.link l).seq o.hdr.link
      ((Tab.get (fun _ => 0) (s.link l).seq o.hdr.link + 1) % 65536)
    sent := if o.answer then (s.link l).sent else (s.link l).sent ++ [sentRequest s l o]
    backHdr := (s.link l).backHdr + b2n (decide ((sentHeader s l o).type = 2 ∨ (sentHeader s l o).type = 3))
    outQ := if (sentHeader s l o).type = 1 then { o with hdr := sentHeader s l o, hdrSent := true } :: rest else rest
    tx := ⟨s.clk, some (sentHeader s l o), if (s.link l).tx.at_ = s.clk then (s.link l).tx.flits else []⟩ }

/-- An outbound header credit is spent. -/
def hdrSpent (n l : Nat) (u : State) : State := u.setLink l { u.link l with outHdr := n - 1 }

/-- What is noted of a header that left at edge `at_`: a NACK is counted, the time of an OPEN_REQ kept. -/
def headerNoted (s : State) (l : Nat) (h : Header) (at_ : Nat) : State :=
  let u := if h.type = 3 then bump s .lpNacks l 15 0 else s
  if h.type = 4 then u.setWin h.window { u.win h.window with reqAt := at_ } else u

theorem headerNoted_keeps (s : State) (l : Nat) (h : Header) (at_ : Nat) :
    (headerNoted s l h at_).clk = s.clk ∧ ∀ m, (headerNoted s l h at_).link m = s.link m := by
  unfold headerNoted
  dsimp only
  split <;> split <;> exact ⟨rfl, fun _ => rfl⟩

theorem sendHeader_eq (s : State) (l : Nat) (o : OutPkt) (rest : List OutPkt) : sendHeader s l o rest =
    headerNoted (creditMeets (s.setLink l (headerDriven s l o rest)) (linkCredit l 0) l (hdrSpent (s.link l).outHdr l)) l
      (sentHeader s l o) s.clk := rfl

/-- A header that leaves spends a credit. -/
theorem sendHeader_link (hu : creditUe s (linkCredit l 0) = false) : (sendHeader s l o rest).clk = s.clk ∧
    (sendHeader s l o rest).link l = { headerDriven s l o rest with outHdr := (s.link l).outHdr - 1 } := by
  have hu' : creditUe (s.setLink l (headerDriven s l o rest)) (linkCredit l 0) = false := hu
  obtain ⟨hclk, hlink⟩ := headerNoted_keeps (freshCredit (hdrSpent (s.link l).outHdr l (s.setLink l (headerDriven s l o rest)))
    (linkCredit l 0)) l (sentHeader s l o) s.clk
  rw [sendHeader_eq, creditMeets_readable hu', hclk, hlink, freshCredit_link, freshCredit_clk, hdrSpent]
  exact ⟨by simp only [setLink_clk], by simp only [link_setLink_same]⟩

/-- Until a header has left no flit of its packet does. -/
theorem flitLeaves_waits (hq : (s.link l).outQ = o :: rest) (ho : o.hdrSent = false) : flitLeaves s l = s := by
  have hflit : sendFlit s l = s := by
    simp [sendFlit, hq, ho]
  rw [flitLeaves, hflit, ite_self]

/-- An edge at which a header may leave: the header, then as many flits as the bus has room for. -/
theorem doPacketSend_starts (hup : linkUp s l = true) (hh : headerNow s l = false) (hf : flitsNow s l = 0)
    (hq : (s.link l).outQ = o :: rest) (ho : o.hdrSent = false) (hm : mayStart s (s.link l) o = true) :
    doPacketSend l s = flitLeaves (flitLeaves (sendHeader s l o rest) l) l := by
  have hstart : startPacket s l = sendHeader s l o rest := by
    simp [startPacket, hq, ho, hm]
  have hedge : doPacketSend l s = flitLeaves (flitLeaves (startPacket (flitLeaves (flitLeaves s l) l) l) l) l := by
    exact if_neg (by simp [hup, hh, hf])
  rw [hedge, flitLeaves_waits hq ho, flitLeaves_waits hq ho, hstart]

end

/-- Settles O30: the header leaves as `sendHeader` has it, and the flits of its edge leave it standing. -/
theorem packetHeadersLeave : Obligations.PacketHeadersLeave := by
  unfold Obligations.PacketHeadersLeave
  intro l o rest s hs hup hh hf hq ho hm hu sq
  obtain ⟨hclk, hlink⟩ := sendHeader_link (o := o) (rest := rest) hu
  have hat : ((sendHeader s l o rest).link l).tx.at_ = (sendHeader s l o rest).clk := by
    rw [hclk, hlink]
    rfl
  have hfirst := HeaderStands.flitLeaves hat
  have hat1 : ((flitLeaves (sendHeader s l o rest) l).link l).tx.at_ = (flitLeaves (sendHeader s l o rest) l).clk := by
    obtain ⟨hclk1, hat1, -⟩ := hfirst
    rw [hat1, hat, hclk1]
  obtain ⟨-, hat2, hhdr, hcredit, hsent, hseq⟩ := hfirst.trans (.flitLeaves hat1)
  rw [← doPacketSend_starts hup hh hf hq ho hm, hlink] at hat2 hhdr hcredit hsent hseq
  refine ⟨_, sentHeader s l o, steady_eq _ hs, hhdr, hat2, hcredit, fun ha => ?answer, fun ha => ?request⟩
  case answer =>
    simp only [headerDriven, ha, if_true] at hsent hseq
    exact ⟨by simp [sentHeader, ha], hsent, hseq⟩
  case request =>
    simp only [headerDriven, ha, Bool.false_eq_true, if_false] at hsent hseq
    have hhead : sentHeader s l o = { o.hdr with seq := sq } := by simp [sentHeader, ha, sq]
    refine ⟨hhead, ?_, sentRequest s l o, hsent, ?_⟩
    · rw [calm_link, hseq, Tab.get_set_same]
    · simp [sentRequest, hhead]

end Sys2Proof.Machine
end

section
/-! Resets of port groups, porters and link ports (R175 to R180): how they begin, complete and end. -/

namespace Sys2Proof.Machine

@[simp] theorem calm_rst (f : State → State) (s : State) (m : Nat) : (calm f s).rst m = (f s).rst m := rfl

/-! ### Edge 0 (R175) -/

/-- The reset of a master that begins at this edge, by its line or by command. -/
def begunRst (s : State) (m : Nat) (line : Bool) : Rst :=
  ⟨true, (s.rst m).lineLow || line, !line, false, false, false, s.clk, s.run, 0⟩

/-- The aborts of the tasks that a reset stops leave the resets. -/
theorem abortAgents_rsts (s : State) (m : Nat) (agents : List Nat) (detail : Nat) : (abortAgents s m agents detail).rsts = s.rsts := by
  have hfault : ∀ (u : State) (t a st off : Nat), (faultTask u t a st off 0x13 detail 0 0).rsts = u.rsts := fun u t a st off => by
    obtain ⟨r, l, h⟩ := faultTask_shape u t a st off 0x13 detail 0 0
    rw [h]
  refine foldl_keeps State.rsts (fun u a => ?_) agents s
  refine foldl_keeps State.rsts (fun v t => ?_) (agentTasks u a) u
  exact hfault v t.1 a t.2.1 t.2.2

theorem enterReap_rsts (s : State) (procs : Nat) : (enterReap s procs).rsts = s.rsts := by
  unfold enterReap reapNow
  split
  · split <;> rfl
  · rfl

/-- A master not in reset is in one from the edge at which it begins. -/
theorem beginRst_begins {s : State} {m : Nat} (line : Bool) (h : (s.rst m).active = false) :
    (beginRst m line s).rst m = begunRst s m line := by
  have hrsts : (beginRst m line s).rsts = (s.setRst m (begunRst s m line)).rsts := by
    unfold beginRst
    dsimp only
    rw [if_neg (by simp [h])]
    split
    · exact (enterReap_rsts _ _).trans (abortAgents_rsts _ _ _ _)
    · exact abortAgents_rsts _ _ _ _
  exact (congrArg (Tab.get (fun _ => idleRst) · m) hrsts).trans (rst_setRst_same s m _)

/-- A master whose reset is in progress is in reset. -/
theorem inReset_active {s : State} {m : Nat} (h : (s.rst m).active = true) : inReset s m = true := by
  simp [inReset, h]

/-- The pin's reset of a master not in reset. -/
theorem beginRst_line {s : State} {m : Nat} (h : (s.rst m).active = false) :
    (beginRst m true s).rst m = ⟨true, true, false, false, false, false, s.clk, s.run, 0⟩ := by
  rw [beginRst_begins true h, begunRst, Bool.or_true]
  rfl

/-- The command registers of resets, each with its master's number. -/
def rstCmds : List (RegId × (Nat → Nat)) := [(.pgRstCmd, rstPg), (.ppRstCmd, rstPorter), (.lpRstCmd, rstLink)]

theorem rstCmds_not_sbox : ∀ e ∈ rstCmds, e.1 ∉ [.sboxData, .sboxSet, .sboxClr] := by decide

theorem writeReg_rstCmd (w : Who) (i : Nat) (s : State) : ∀ e ∈ rstCmds,
    writeReg w e.1 i 1 s = ok w (beginRst (e.2 i) false s) := by
  have hnot : ∀ id ∈ [RegId.pgRstCmd, .ppRstCmd, .lpRstCmd], writeRefused s id = false := by
    simp [writeRefused, starts]
  simp only [rstCmds, List.forall_mem_cons, List.not_mem_nil, false_imp_iff, implies_true, and_true]
  exact ⟨if_neg (by simp [hnot]), if_neg (by simp [hnot]), if_neg (by simp [hnot])⟩

/-- An accepted reset command begins the master's reset, its line as it stands. -/
theorem ctlWrite_rstCmd {s : State} {w : Who} (hs : Running s) (hw : FullView w) (hg : Granted s w) {e : RegId × (Nat → Nat)}
    (he : e ∈ rstCmds) {i : Nat} (hi : i < e.1.size) (h : (s.rst (e.2 i)).active = false) :
    ∃ t, steady s (ctlWrite w e.1 i 1) = .next t ∧
      t.rst (e.2 i) = ⟨true, (s.rst (e.2 i)).lineLow, true, false, false, false, s.clk, s.run, 0⟩ := by
  have hdo := ctlWrite_does hs hw hg hi (rstCmds_not_sbox e he) (writeReg_rstCmd w i _ e he)
  have hbegun : (beginRst (e.2 i) false (acting s (s.clk + 1))).rst (e.2 i) = begunRst s (e.2 i) false := beginRst_begins false h
  refine ⟨_, steady_eq _ hs.1, (congrArg (State.rst · (e.2 i)) hdo).trans (hbegun.trans ?_)⟩
  rw [begunRst, Bool.or_false]
  rfl

/-- The reset by the pin of a master not in reset, as a command. -/
theorem steady_beginRst_line {s : State} {m : Nat} (hs : Within s) (h : (s.rst m).active = false) :
    ∃ t, steady s (beginRst m true) = .next t ∧
      t.rst m = ⟨true, true, false, false, false, false, s.clk, s.run, 0⟩ ∧ inReset t m = true := by
  have hrst : (calm (beginRst m true) s).rst m = _ := beginRst_line h
  exact ⟨_, steady_eq _ hs, hrst, inReset_active (congrArg Rst.active hrst)⟩

/-- Settles O36. -/
theorem masterResetsBegin : Obligations.MasterResetsBegin := by
  unfold Obligations.MasterResetsBegin
  refine ⟨?group, ?porter, ?link, ?commands⟩
  case group =>
    intro g s hs hlt h
    rw [show exec (.portGroupReset g) s = steady s (beginRst (rstPg (g % 16)) true) from rfl, Nat.mod_eq_of_lt hlt]
    exact steady_beginRst_line hs h
  case porter =>
    intro p s hs hlt h
    rw [show exec (.porterReset p) s = steady s (beginRst (rstPorter (p % 16)) true) from rfl, Nat.mod_eq_of_lt hlt]
    exact steady_beginRst_line hs h
  case link =>
    intro l s hs hlt h
    rw [show exec (.linkPortReset l) s = steady s (beginRst (rstLink (l % 4)) true) from rfl, Nat.mod_eq_of_lt hlt]
    obtain ⟨t, hnext, hrst, hin⟩ := steady_beginRst_line hs h
    exact ⟨t, hnext, hrst, by simp [linkUp, hin]⟩
  case commands =>
    intro w s hs hw hg
    exact ⟨fun g hlt h => ctlWrite_rstCmd hs hw hg (e := (.pgRstCmd, rstPg)) (by simp [rstCmds]) hlt h,
      fun p hlt h => ctlWrite_rstCmd hs hw hg (e := (.ppRstCmd, rstPorter)) (by simp [rstCmds]) hlt h,
      fun l hlt h => ctlWrite_rstCmd hs hw hg (e := (.lpRstCmd, rstLink)) (by simp [rstCmds]) hlt h⟩

/-! ### Completion and release (R178 to R180) -/

@[simp] theorem freshCredit_rsts (s : State) (i : Nat) : (freshCredit s i).rsts = s.rsts := rfl
@[simp] theorem setCredit_regs (s : State) (a n : Nat) : (setCredit s a n).regs = s.regs := rfl

/-- The credits of a porter's channels come back without a register. -/
theorem restoreCredits_regs (s : State) (p : Nat) : (restoreCredits s p).regs = s.regs := by
  have hcredits : ∀ due : List (Nat × Nat), (due.foldl (fun s c => setCredit s c.1 c.2) s).regs = s.regs := by
    intro due
    refine foldl_keeps State.regs (fun u c => ?_) due s
    exact setCredit_regs u c.1 c.2
  unfold restoreCredits
  split
  · rfl
  · exact hcredits _

/-- A link port out of reset gets its allowance anew; registers and resets stay. -/
theorem allowance_keeps (s : State) (m : Nat) :
    (allowance s m).rsts = s.rsts ∧ (allowance s m).regs = s.regs := by
  have hcredits : ∀ l : Nat, ((List.range 4).foldl (fun s k => freshCredit s (linkCredit l k)) s).rsts = s.rsts ∧
      ((List.range 4).foldl (fun s k => freshCredit s (linkCredit l k)) s).regs = s.regs := fun l =>
    ⟨foldl_keeps State.rsts (fun s k => freshCredit_rsts s (linkCredit l k)) _ s,
      foldl_keeps State.regs (fun s k => freshCredit_regs s (linkCredit l k)) _ s⟩
  unfold allowance
  split
  · exact ⟨rfl, rfl⟩
  · obtain ⟨hrsts, hregs⟩ := hcredits (m - 32)
    exact ⟨(setLink_rsts _ _ _).trans hrsts, (setLink_regs _ _ _).trans hregs⟩

theorem allowance_rst (s : State) (m n : Nat) : (allowance s m).rst n = s.rst n :=
  congrArg (Tab.get (fun _ => idleRst) · n) (allowance_keeps s m).1

/-- A completed reset, as it stands at the edge of its completion (R178). -/
def completedRst (s : State) (m : Nat) : Rst :=
  Rst.over { s.rst m with active := false, cmd := false, done := true } s

/-- Completion: the reset is over, without a register. -/
theorem doRstComplete_completes {s : State} {m : Nat} (hact : (s.rst m).active = true) (hrec : reclaimed s m = true) :
    (doRstComplete m s).rst m = completedRst s m ∧ (doRstComplete m s).regs = s.regs := by
  have hregs : (if 16 ≤ m ∧ m < 32 then restoreCredits s (m - 16) else s).regs = s.regs := by
    split
    · exact restoreCredits_regs s _
    · rfl
  unfold doRstComplete
  dsimp only
  rw [if_pos ⟨hact, hrec⟩]
  exact ⟨(allowance_rst _ m m).trans (rst_setRst_same _ m _), (allowance_keeps _ m).2.trans hregs⟩

/-- The line of a reset in progress is released: an early release (R180). -/
theorem doRstRelease_early {s : State} {m : Nat} (hline : (s.rst m).lineLow = true) (hact : (s.rst m).active = true) :
    (doRstRelease m s).rst m = { s.rst m with lineLow := false, early := true } := by
  unfold doRstRelease
  dsimp only
  rw [if_neg (by simp [hline]), if_pos hact]
  exact rst_setRst_same s m _

/-- The line of a completed reset is released: the reset is over (R180). -/
theorem doRstRelease_completed {s : State} {m : Nat} (hline : (s.rst m).lineLow = true) (hact : (s.rst m).active = false) :
    (doRstRelease m s).rst m = Rst.over { s.rst m with lineLow := false, done := false } s := by
  unfold doRstRelease
  dsimp only
  rw [if_neg (by simp [hline]), if_neg (by simp [hact])]
  exact (allowance_rst _ m m).trans (rst_setRst_same s m _)

/-- A reset over at this edge still holds its master in it, and from the next edge on only by its line. -/
theorem inReset_over {s t : State} {m : Nat} {r : Rst} (hact : r.active = false) (hrst : t.rst m = Rst.over r s) :
    (t.clk = s.clk → inReset t m = true) ∧ ∀ k, inReset { t with clk := s.clk + 1 + k } m = r.lineLow := by
  have hlater : ∀ k, State.rst { t with clk := s.clk + 1 + k } m = Rst.over r s := fun _ => hrst
  refine ⟨fun hclk => ?_, fun k => ?_⟩
  · cases hl : r.lineLow <;> simp [inReset, hrst, Rst.over, hact, hl, hclk]
  · have hpast : ¬ s.clk + 1 + k < (Rst.over r s).endAt := by
      simp only [Rst.over]
      split <;> omega
    have hactive : (Rst.over r s).active = false := hact
    have hline : (Rst.over r s).lineLow = r.lineLow := rfl
    simp only [inReset, hlater, hpast, hactive, hline, decide_false, Bool.false_or, Bool.or_false]

/-- A porter whose AXI response is missing at edge 4096 (R179). -/
theorem doReclaimTimeout_raises {s : State} {p : Nat} (hp : p < 16) (hact : (s.rst (rstPorter p)).active = true)
    (htimeout : (s.rst (rstPorter p)).timeout = false) (hlate : (s.rst (rstPorter p)).runAt + 4096 ≤ s.run)
    (hmissing : s.bursts.any (fun b => b.porter == p) = true) :
    doReclaimTimeout p s = raise (s.setRst (rstPorter p) { s.rst (rstPorter p) with timeout := true }) fuPorter 12 p := by
  unfold doReclaimTimeout
  dsimp only
  rw [if_pos ⟨hp, hact, by simp [htimeout], hlate, hmissing⟩]

theorem EventShape.rst {s t : State} (h : EventShape s t) (m : Nat) : t.rst m = s.rst m := by
  obtain ⟨_, _, _, _, rfl⟩ := h
  rfl

/-- Settles O37. That a reset completed or released at an edge is over from the next BCLK edge on is the model's choice
(log entry 44). -/
theorem masterResetsEnd : Obligations.MasterResetsEnd := by
  unfold Obligations.MasterResetsEnd
  refine ⟨?complete, ?release, ?timeout⟩
  case complete =>
    intro m s hs hact hrec
    obtain ⟨hdo, hregs⟩ := doRstComplete_completes hact hrec
    have hrst : (calm (doRstComplete (rstOf m)) s).rst (rstOf m) = completedRst s (rstOf m) := hdo
    obtain ⟨hnow, hlater⟩ := inReset_over rfl hrst
    exact ⟨_, steady_eq _ hs, congrArg Rst.active hrst, congrArg Rst.done hrst, hnow rfl, hlater, .of_regs _ hregs⟩
  case release =>
    intro m s hs hline
    cases hact : (s.rst (rstOf m)).active with
    | true =>
      have hrst : (calm (doRstRelease (rstOf m)) s).rst (rstOf m) = _ := doRstRelease_early hline hact
      have hstill := (congrArg Rst.active hrst).trans hact
      exact ⟨_, steady_eq _ hs, congrArg Rst.lineLow hrst, inReset_active hstill,
        fun _ => ⟨congrArg Rst.early hrst, hstill⟩, nofun⟩
    | false =>
      have hrst : (calm (doRstRelease (rstOf m)) s).rst (rstOf m) = _ := doRstRelease_completed hline hact
      obtain ⟨hnow, hlater⟩ := inReset_over (r := { s.rst (rstOf m) with lineLow := false, done := false }) hact hrst
      exact ⟨_, steady_eq _ hs, congrArg Rst.lineLow hrst, hnow rfl, nofun, fun _ => ⟨congrArg Rst.done hrst, hlater⟩⟩
  case timeout =>
    intro p b s hs hp hact htimeout hlate hb hporter
    have hdo := doReclaimTimeout_raises hp hact htimeout hlate (List.any_eq_true.mpr ⟨b, hb, by simp [hporter]⟩)
    have hrst : (calm (doReclaimTimeout p) s).rst (rstPorter p) = { s.rst (rstPorter p) with timeout := true } := by
      refine (congrArg (State.rst · (rstPorter p)) hdo).trans ?_
      rw [(EventShape.raise _ _ _ _ _ _ _).rst, rst_setRst_same]
    refine ⟨_, steady_eq _ hs, congrArg Rst.timeout hrst, ?_, (congrArg Rst.active hrst).trans hact⟩
    exact (congrArg (fun u => bitOf (rg u .fuStat 80) 12) hdo).trans (raise_sets _ _ _ _ _ (by decide) (by decide))

end Sys2Proof.Machine
end

section
/-! Satchels (R182 to R206): what a read's delivery drives and how a read is answered, held or ended; swap commands and the exchange. -/

namespace Sys2Proof.Machine

/-! ### What a calm command's work leaves of the satchels -/

section
variable (f : State → State) (s : State)
@[simp] theorem calm_sats : (calm f s).sats = (f s).sats := rfl
@[simp] theorem calm_sat (x : Nat) : (calm f s).sat x = (f s).sat x := rfl
@[simp] theorem calm_satOut : (calm f s).satOut = (f s).satOut := rfl
@[simp] theorem calm_safe : (calm f s).safe = (f s).safe := rfl
end

/-- A command whose work changes nothing answers the state it found. -/
theorem steady_unchanged {s : State} {f : State → State} (hs : Within s) (h : f s = s) : steady s f = .next s := by
  rw [steady_eq f hs, calm, timeless, h]

theorem sat_congr {s t : State} (h : t.sats = s.sats) (x : Nat) : t.sat x = s.sat x := by simp [State.sat, h]

/-- An event leaves the satchels, what they drive, and the safe state. -/
theorem EventShape.satchels {s t : State} (h : EventShape s t) :
    t.sats = s.sats ∧ t.satOut = s.satOut ∧ t.safe = s.safe := by
  obtain ⟨_, _, _, _, rfl⟩ := h
  exact ⟨rfl, rfl, rfl⟩

theorem EventShape.countFmtFault (s : State) (x st : Nat) : EventShape s (countFmtFault s x st) := by
  unfold Machine.countFmtFault
  split
  · exact .bump _ _ _ _ _ _
  · split
    · exact .bump _ _ _ _ _ _
    · exact .refl s

/-! ### Deliveries (R183, R185, R334, R337) -/

theorem EventShape.countSat (s : State) (x : Nat) (half : Bool) (gs : List Nat) : EventShape s (countSat s x half gs) := by
  have hcounts : ∀ ce ue, EventShape s (Machine.bump (Machine.bump s .satEcc x 15 0 ce) .satEcc x 31 16 ue) :=
    fun _ _ => (EventShape.bump _ _ _ _ _ _).trans (.bump _ _ _ _ _ _)
  unfold Machine.countSat
  dsimp only
  split
  · exact (hcounts _ _).trans (.raise _ _ _ _ _ _ _)
  · exact hcounts _ _

theorem EventShape.countSatFault (s : State) (x st : Nat) (l : List StripeRead) : EventShape s (countSatFault s x st l) := by
  unfold Machine.countSatFault
  split
  · exact (EventShape.countFmtFault _ _ _).trans (.raise _ _ _ _ _ _ _)
  · exact .refl s

theorem EventShape.countSent (s : State) (x k : Nat) (l : List StripeRead) : EventShape s (countSent s x k l) := by
  unfold Machine.countSent
  split
  · dsimp only
    split
    · exact (EventShape.bump _ _ _ _ _ _).trans (.raise _ _ _ _ _ _ _)
    · exact ((EventShape.bump _ _ _ _ _ _).trans (.setRg _ _ _ _)).trans (.raise _ _ _ _ _ _ _)
  · exact .refl s

/-- What satchel port `x` drives. -/
def satDriven (s : State) (x : Nat) : SatOut := Tab.get (fun _ => ⟨0, [], []⟩) s.satOut x

@[simp] theorem satDriven_setSatOut (s : State) (x : Nat) (o : SatOut) : satDriven (setSatOut s x o) x = o := Tab.get_set_same _ _ _ _

theorem satDriven_congr {s t : State} (h : t.satOut = s.satOut) (x : Nat) : satDriven t x = satDriven s x := by
  simp [satDriven, h]

/-- The answer a read of the descriptors `l` finds, by stripe: its status and its granules, 0 where nothing is asked for. -/
def satAnswer (s : State) (x fmt at_ : Nat) (half : Bool) (l : List (Bool × Nat)) : SatOut :=
  let p := prof s x fmt
  let rs := (stripeOf p x l).map fun e => if e.1 then some (readStripe s x half p s.free e.2) else none
  ⟨at_, rs.map fun r => (r.map StripeRead.st).getD 0, rs.flatMap fun r => (r.map StripeRead.data).getD (List.replicate 8 0)⟩

/-- A delivery drives the answer of the state it meets; besides, it counts what it found. -/
theorem satDeliver_eq (s : State) (x : Nat) (l : List (Bool × Nat)) (fmt : Nat) (half : Bool) (at_ : Nat) :
    ∃ u, EventShape s u ∧
      satDeliver s x l fmt half at_ = setSatOut { u with free := u.free + 1 } x (satAnswer s x fmt at_ half l) := by
  refine ⟨_, ?_, rfl⟩
  exact ((((EventShape.countSat _ _ _ _).trans (.countSatFault _ _ _ _)).trans (.countSatFault _ _ _ _)).trans
    (.countSent _ _ _ _)).trans (.bump _ _ _ _ _ _)

theorem satDeliver_drives (s : State) (x : Nat) (l : List (Bool × Nat)) (fmt : Nat) (half : Bool) (at_ : Nat) :
    satDriven (satDeliver s x l fmt half at_) x = satAnswer s x fmt at_ half l := by
  obtain ⟨u, -, h⟩ := satDeliver_eq s x l fmt half at_
  rw [h, satDriven_setSatOut]

theorem satDeliver_keeps (s : State) (x : Nat) (l : List (Bool × Nat)) (fmt : Nat) (half : Bool) (at_ : Nat) :
    (satDeliver s x l fmt half at_).sats = s.sats ∧ (satDeliver s x l fmt half at_).safe = s.safe := by
  obtain ⟨u, hu, h⟩ := satDeliver_eq s x l fmt half at_
  obtain ⟨hsats, -, hsafe⟩ := hu.satchels
  rw [h]
  exact ⟨hsats, hsafe⟩

/-! ### A read at its sampling (R185, R186, R333) -/

/-- A satchel with its held read changed. -/
def State.setRead (s : State) (x : Nat) (r : Option SatRead) : State := s.setSat x { s.sat x with read := r }

@[simp] theorem sat_setRead (s : State) (x : Nat) (r : Option SatRead) : (s.setRead x r).sat x = { s.sat x with read := r } :=
  sat_setSat_same _ _ _

/-- An engine swap sampled before this edge is pending. -/
def swapPending (s : State) (x : Nat) : Bool := match (s.sat x).swap with
  | some a => decide (a < s.run)
  | none => false

/-- The descriptors a port of its class brings. -/
def portSlots (x : Nat) (slots : List (Bool × Nat)) : List (Bool × Nat) := slots.take (if x < 16 then 4 else 1)

section
variable {s : State} {x fmt : Nat} {slots : List (Bool × Nat)}

/-- A read sampled while none is held: answered or timed where its slots are filled and no exchange is pending, else held. -/
theorem doSatRead_sampled (hready : slotReady s x = true) (hsamp : sampling s = true) (hread : (s.sat x).read = none) :
    doSatRead x slots fmt s =
      (let n := escSlots s x (s.sat x).front (prof s x fmt) (portSlots x slots)
      if !swapPending s x && readFilled s x (s.sat x).front (prof s x fmt) (portSlots x slots) then
        if n = 0 then satDeliver s x (portSlots x slots) fmt (s.sat x).front (s.run + 2)
        else s.setRead x (some ⟨portSlots x slots, fmt, (s.sat x).front, false, s.run + 2, s.clk + 2, some (s.run + 2 + 2 * n)⟩)
      else s.setRead x (some ⟨portSlots x slots, fmt, (s.sat x).front, swapPending s x, s.run + 2, s.clk + 2, none⟩)) := by
  unfold doSatRead
  exact if_neg (by simp [hready, hsamp, hread])

end

/-- A command whose work holds a read changes nothing else. -/
theorem steady_setRead {s : State} {f : State → State} {x : Nat} {r : SatRead} (hs : Within s) (h : f s = s.setRead x (some r)) :
    ∃ t, steady s f = .next t ∧ t.sat x = { s.sat x with read := some r } ∧ t.satOut = s.satOut ∧ RegsKept [] s t := by
  exact ⟨_, steady_eq f hs, (congrArg (State.sat · x) h).trans (sat_setRead _ _ _), (congrArg State.satOut h :),
    .of_regs [] (congrArg State.regs h :)⟩

/-! ### The end of a held read (R185, R187, R333, R490) -/

/-- With no read held the stall is high in the safe state only. -/
theorem stalled_of_no_read {s : State} {x : Nat} (h : (s.sat x).read = none) : stalled s x = s.safe := by simp [stalled, h]

/-- The delivery of a held read at this edge. -/
def deliverHeld (s : State) (x : Nat) (r : SatRead) : State := satDeliver (s.setRead x none) x r.slots r.fmt r.half s.run

section
variable {s : State} {x : Nat} {r : SatRead}

/-- A held read whose time is known is delivered once it has come. -/
theorem doStallEnd_timed (ha : aclkEdge s = true) (hh : heldEdge s = false) (hread : (s.sat x).read = some r) {d : Nat}
    (hd : r.ready = some d) : doStallEnd x s = if d ≤ s.run then deliverHeld s x r else s := by
  simp only [doStallEnd, hread, ha, hh, hd, Bool.not_false, Bool.and_self, Bool.not_true, Bool.false_eq_true, if_false]
  rfl

/-- A held read whose conditions are met is delivered, or given its time where it touches escape slots. -/
theorem doStallEnd_met (ha : aclkEdge s = true) (hh : heldEdge s = false) (hread : (s.sat x).read = some r)
    (hr : r.ready = none) (hm : satReadMet s x r = true) : doStallEnd x s =
      (let n := escSlots s x r.half (prof s x r.fmt) r.slots
      if n = 0 then deliverHeld s x r else s.setRead x (some { r with ready := some (s.run + 2 * n) })) := by
  simp only [doStallEnd, hread, ha, hh, hr, hm, Bool.not_false, Bool.and_self, Bool.not_true, Bool.false_eq_true, if_false]
  rfl

theorem doStallEnd_unmet (ha : aclkEdge s = true) (hh : heldEdge s = false) (hread : (s.sat x).read = some r)
    (hr : r.ready = none) (hm : satReadMet s x r = false) : doStallEnd x s = s := by
  simp [doStallEnd, hread, ha, hh, hr, hm]

/-- A command whose work delivers the held read: the read is over, the stall with it, and the port drives its answer. -/
theorem steady_deliverHeld {f : State → State} (hs : Within s) (h : f s = deliverHeld s x r) :
    ∃ t, steady s f = .next t ∧ (t.sat x).read = none ∧ stalled t x = s.safe ∧
      satDriven t x = satAnswer (s.setRead x none) x r.fmt s.run r.half r.slots := by
  obtain ⟨hsats, hsafe⟩ := satDeliver_keeps (s.setRead x none) x r.slots r.fmt r.half s.run
  have hread : ((calm f s).sat x).read = none := by
    rw [calm_sat, h, deliverHeld, sat_congr hsats, sat_setRead]
  refine ⟨_, steady_eq f hs, hread, ?_, ?_⟩
  · rw [stalled_of_no_read hread, calm_safe, h]
    exact hsafe
  · exact (congrArg (satDriven · x) h).trans (satDeliver_drives _ _ _ _ _ _)

/-- At the stall limit the read is abandoned and STALL_LIMIT raised. -/
theorem doStallLimit_reached (hread : (s.sat x).read = some r)
    (hlim : rf s .satCtrl x 31 16 ≠ 0 ∧ rf s .satCtrl x 31 16 * 1024 * 12 ≤ s.clk - r.clkAt) :
    doStallLimit x s = raise (satAbandon s x r) (fuPg (groupOf x)) 12 (stallSlot s x r) := by
  simp only [doStallLimit, hread]
  exact if_pos hlim

theorem doStallLimit_idle (h : ∀ r, (s.sat x).read = some r →
    rf s .satCtrl x 31 16 = 0 ∨ s.clk - r.clkAt < rf s .satCtrl x 31 16 * 1024 * 12) : doStallLimit x s = s := by
  unfold doStallLimit
  dsimp only
  split
  next r hread => exact if_neg (by have := h r hread; omega)
  · rfl

/-- Every source of a port group's unit is listed. -/
theorem srcListed_fuPg (x : Nat) {b : Nat} (hb : b < 14) : srcListed (fuPg (groupOf x)) b = true := by
  have hn : fuPg (groupOf x) = 64 + x % 16 := rfl
  have hcount : srcCount (64 + x % 16) = 14 := by rw [srcCount, if_neg (by omega), if_pos (by omega)]
  rw [srcListed, hn, hcount]
  exact decide_eq_true (by omega)

end

/-- Settles O38. Beside R187 its clauses rest on R185, R333 and R490. -/
theorem satchelReadsAnswerOrStall : Obligations.SatchelReadsAnswerOrStall := by
  unfold Obligations.SatchelReadsAnswerOrStall
  dsimp only
  refine ⟨?sampled, ?ends, ?limit, ?noLimit⟩
  case sampled =>
    intro x fmt slots s hs hready hsamp hread
    have hdo := doSatRead_sampled (fmt := fmt) (slots := slots) hready hsamp hread
    refine ⟨fun (hex : swapPending s x = false) hfilled => ?_, fun (h : swapPending s x = true ∨ _) => ?_⟩
    · have hif := hdo.trans (if_pos (by simp [hex, portSlots, hfilled]))
      refine ⟨fun hn => ?_, fun hn => steady_setRead hs (hif.trans (if_neg hn))⟩
      have hans := hif.trans (if_pos hn)
      exact ⟨_, steady_eq _ hs, (congrArg (satDriven · x) hans).trans (satDeliver_drives _ _ _ _ _ _),
        (congrArg State.sats hans).trans (satDeliver_keeps _ _ _ _ _ _).1⟩
    · refine steady_setRead hs (hdo.trans (if_neg ?_))
      rcases h with h | h
      · simp [h]
      · simp [portSlots, h]
  case ends =>
    intro x r s hs ha hh hread
    refine ⟨fun d hd => ?_, fun hr hm hn => ?_, fun hr hm hn => ?_, fun hr hm => ?_⟩
    · have hdo := doStallEnd_timed ha hh hread hd
      exact ⟨fun hle => steady_deliverHeld hs (hdo.trans (if_pos hle)),
        fun hlt => steady_unchanged hs (hdo.trans (if_neg (by omega)))⟩
    · exact steady_deliverHeld hs ((doStallEnd_met ha hh hread hr hm).trans (if_pos hn))
    · exact steady_setRead hs ((doStallEnd_met ha hh hread hr hm).trans (if_neg hn))
    · exact steady_unchanged hs (doStallEnd_unmet ha hh hread hr hm)
  case limit =>
    intro x r s hs hx hread hlim hlate
    have hdo := doStallLimit_reached hread ⟨hlim, hlate⟩
    obtain ⟨hsats, hout, hsafe⟩ :=
      (EventShape.raise (satAbandon s x r) (fuPg (groupOf x)) 12 (stallSlot s x r) 0 none false).satchels
    have hnone : ((calm (doStallLimit x) s).sat x).read = none := by
      rw [calm_sat, hdo, sat_congr hsats, satAbandon, sat_setSat_same]
    refine ⟨_, steady_eq _ hs, hnone, ?out, ?stall, ?event⟩
    case out => exact (congrArg (satDriven · x) hdo).trans ((satDriven_congr hout x).trans (satDriven_setSatOut s x _))
    case stall =>
      rw [stalled_of_no_read hnone, calm_safe, hdo]
      exact hsafe
    case event =>
      rw [calm_rg, hdo]
      exact raise_sets _ _ _ _ _ (srcListed_fuPg x (by decide)) (by decide)
  case noLimit =>
    intro x s hs h
    exact steady_unchanged hs (doStallLimit_idle h)

/-! ### Swap commands (R194, R196) -/

section
variable {s : State} {x : Nat}

/-- A swap command sampled outside sequencer-led mode: counted while one is pending, else remembered. -/
theorem doSwapCommand_sampled (hready : slotReady s x = true) (hsamp : sampling s = true) (hst : stalled s x = false)
    (hmode : swapMode s x ≠ 1) : doSwapCommand x s = if (s.sat x).swap.isSome then bump s .satStat x 31 24
      else s.setSat x { s.sat x with swap := some s.run, ready := false } := by
  unfold doSwapCommand
  exact if_neg (by simp [hready, hsamp, hst, hmode])

/-! ### What a chain notes of an exchange (R197, R199, R201) -/

/-- The chain of a port is one of eight, and its members are matrix ports. -/
theorem chainOf_some {c : Chain} {k : Nat} (h : chainOf s x = some (c, k)) : x < 16 ∧ c.n < 8 := by
  unfold chainOf at h
  split at h
  · cases h
  · refine ⟨by omega, ?_⟩
    obtain ⟨n, hn, hc⟩ := List.exists_of_findSome?_eq_some h
    obtain ⟨d, hd, hk⟩ := Option.bind_eq_some_iff.mp hc
    have hdn : d.n = n := by
      unfold chainIn at hd
      dsimp only at hd
      split at hd
      · injection hd with hd
        exact hd ▸ rfl
      · cases hd
    dsimp only at hk
    split at hk
    · injection hk with hk
      injection hk with hk
      exact hk ▸ hdn ▸ List.mem_range.mp hn
    · cases hk

/-- A satchel but for its deafness to hops. -/
def Sat.hearing (v : Sat) : Sat := { v with deaf := false }

/-- A chain's note of an exchange leaves every satchel but for its deafness, and no register but the chain's own. -/
theorem chainNote_keeps (s : State) (x y : Nat) : ((chainNote s x).sat y).hearing = (s.sat y).hearing ∧
    rg (chainNote s x) .satSwaps x = rg s .satSwaps x := by
  unfold chainNote
  split
  next c hc =>
    obtain ⟨hx, hn⟩ := chainOf_some hc
    refine ⟨foldl_keeps (fun u : State => (u.sat y).hearing) (fun u k => ?_) _ _,
      (rg_congr (foldl_keeps State.regs (fun u k => ?_) _ _) _ _).trans
        (rg_bump_other _ _ _ _ (RegId.key_ne (by omega) (by omega) (.inl nofun)))⟩
    · dsimp only
      split
      · rfl
      · rw [sat_setSat]
        split
        next h => rw [← h]; rfl
        · rfl
    · dsimp only
      split <;> rfl
  next c k hc =>
    obtain ⟨hx, hn⟩ := chainOf_some hc
    dsimp only
    split
    · exact ⟨rfl, rg_setRf_other _ _ _ _ (RegId.key_ne (by omega) (by omega) (.inl nofun))⟩
    · exact ⟨rfl, rfl⟩
  · exact ⟨rfl, rfl⟩

/-! ### The exchange (R194, R195) -/

/-- The satchel of an exchange: the halves in their new roles, the new back half empty, no swap pending. -/
def exchangedSat (v : Sat) : Sat :=
  { v.empty v.front with
    front := !v.front, swap := none, jobs := v.jobs.filter fun j => j.half != v.front,
    read := v.read.map fun r => if r.exch then { r with exch := false, half := !v.front } else r }

@[simp] theorem filled_exchangedSat_back (v : Sat) (slot : Nat) : (exchangedSat v).filled v.front slot = false := by
  cases h : v.front <;> simp [exchangedSat, Sat.empty, Sat.filled, Sat.fill, h]

@[simp] theorem filled_exchangedSat_front (v : Sat) (slot : Nat) : (exchangedSat v).filled (!v.front) slot = v.filled v.back slot := by
  cases h : v.front <;> simp [exchangedSat, Sat.empty, Sat.filled, Sat.fill, Sat.back, h]

/-- An exchange that is due turns its satchel's halves and is counted, whatever the chain and the sequencer note of it. -/
theorem doExchange_due (h : exchangeDue s x = true) :
    ((doExchange x s).sat x).hearing = (exchangedSat (s.sat x)).hearing ∧
      rg (doExchange x s) .satSwaps x = bumpFld (rg s .satSwaps x) 31 0 1 := by
  obtain ⟨hsat, hrg⟩ := chainNote_keeps (bump (s.setSat x (exchangedSat (s.sat x))) .satSwaps x 31 0) x x
  have hparts : (doExchange x s).sats = (chainNote (bump (s.setSat x (exchangedSat (s.sat x))) .satSwaps x 31 0) x).sats ∧
      (doExchange x s).regs = (chainNote (bump (s.setSat x (exchangedSat (s.sat x))) .satSwaps x 31 0) x).regs := by
    unfold doExchange
    rw [if_neg (by simp [h])]
    dsimp only
    split <;> exact ⟨rfl, rfl⟩
  refine ⟨?_, ?_⟩
  · rw [sat_congr hparts.1, hsat]
    exact congrArg Sat.hearing (sat_setSat_same s x _)
  · rw [rg_congr hparts.2, hrg, rg_bump_same]
    rfl

end

/-- Settles O39: R194 to R196, outside sequencer-led mode for the command. -/
theorem halvesExchange : Obligations.HalvesExchange := by
  unfold Obligations.HalvesExchange
  refine ⟨?command, ?exchange⟩
  case command =>
    intro x s hs hready hsamp hst hmode
    have hdo := doSwapCommand_sampled hready hsamp hst hmode
    refine ⟨fun hnone => ?_, fun hsome => ?_⟩
    · have hnew := hdo.trans (if_neg (by simp [hnone]))
      have hsat := (congrArg (State.sat · x) hnew).trans (sat_setSat_same s x _)
      exact ⟨_, steady_eq _ hs, (congrArg Sat.swap hsat :), (congrArg Sat.front hsat :), .of_regs [] (congrArg State.regs hnew :)⟩
    · have hdup := hdo.trans (if_pos (Option.isSome_iff_ne_none.mpr hsome))
      refine ⟨_, steady_eq _ hs, (congrArg (fun u => (u.sat x).swap) hdup :), ?_, ?_⟩
      · rw [calm_rf, hdup]
        exact rf_bump_same s .satStat x 31 24 1 (by decide) (by decide)
      · exact fun id i hi he => (congrArg (rg · id i) hdup).trans (RegsKept.bump s .satStat x 31 24 1 id i hi he)
  case exchange =>
    intro x s hs hdue
    obtain ⟨hsat, hswaps⟩ := doExchange_due hdue
    have hfront : ((doExchange x s).sat x).front = !(s.sat x).front := congrArg Sat.front hsat
    have hfilled : ∀ half slot, ((doExchange x s).sat x).filled half slot = (exchangedSat (s.sat x)).filled half slot :=
      fun half slot => (congrArg (Sat.filled · half slot) hsat :)
    refine ⟨_, steady_eq _ hs, hfront, congrArg Sat.swap hsat, fun slot => ?_, fun slot => ?_, ?_⟩
    · rw [calm_sat, Sat.back, hfront, Bool.not_not, hfilled, filled_exchangedSat_back]
    · rw [calm_sat, hfront, hfilled, filled_exchangedSat_front]
    · have hcount := fld_bumpFld_same (rg s .satSwaps x) 31 0 1 (by decide) (by decide)
      have hword : ∀ w : Word, fld w 31 0 = w.toNat := fun w => Nat.mod_eq_of_lt w.isLt
      rw [hword, hword] at hcount
      rw [calm_rg, hswaps, hcount]

end Sys2Proof.Machine
end

section
/-! Writes of the satchel registers and launches (R189, R193, R205). -/

namespace Sys2Proof.Machine

@[simp] theorem calm_agent (f : State → State) (s : State) (a : Nat) : (calm f s).agent a = (f s).agent a := rfl

/-- An accepted write that answers OKAY at once leaves the registers and the agents of its work. -/
theorem ctlWrite_leaves {s u : State} {w : Who} (hs : Running s) (hw : FullView w) (hg : Granted s w) {id : RegId} {i : Nat} {v : Word}
    (hi : i < id.size) (hb : id ∉ [.sboxData, .sboxSet, .sboxClr]) (he : writeReg w id i v (acting s (s.clk + 1)) = ok w u) :
    (ctlWrite w id i v s).regs = u.regs ∧ (ctlWrite w id i v s).agents = u.agents := by
  rw [ctlWrite_does hs hw hg hi hb he]
  exact ⟨rfl, rfl⟩

/-- A mask that holds a field leaves it. -/
theorem fld_and_mask (w m : Word) {hi lo : Nat} (h : ∀ k < hi + 1 - lo, m.getLsbD (lo + k) = true) :
    fld (w &&& m) hi lo = fld w hi lo := by
  apply Nat.eq_of_testBit_eq
  intro k
  rw [fld_testBit, fld_testBit, BitVec.getLsbD_and]
  by_cases hk : k < hi + 1 - lo
  · simp [hk, h k hk]
  · simp [hk]

/-- What a fold's step at a member of the list brings about, and every step keeps, holds after the fold. -/
theorem foldl_reaches {α β : Type} {f : β → α → β} {P : β → Prop} {a : α} : ∀ {l : List α}, a ∈ l → (∀ b, P (f b a)) →
    (∀ b c, P b → P (f b c)) → ∀ b, P (l.foldl f b)
  | c :: l, ha, hreach, hkeep, b => by
    rcases List.mem_cons.mp ha with rfl | ha
    · exact List.foldlRecOn l f (hreach b) fun b' hb c _ => hkeep b' c hb
    · exact foldl_reaches ha hreach hkeep (f b c)

/-! ### SAT[x].CTRL (R193, R198) -/

theorem writeReg_satCtrl (w : Who) (x : Nat) (v : Word) (s : State) : writeReg w .satCtrl x v s = ok w (doSwapMode x v s) :=
  if_neg (by simp [writeRefused, starts])

/-- Outside a chain every writable bit is stored. -/
theorem doSwapMode_unchained {s : State} {x : Nat} (v : Word) (h : (chainOf s x).isSome = false) :
    doSwapMode x v s = setRg s .satCtrl x (v &&& RegId.satCtrl.row.rw) := by
  unfold doSwapMode
  exact congrArg (setRg s .satCtrl x) (if_neg (by simp [h]))

/-! ### Stall counters (R205) -/

/-- The counters of stalls: the low words and the high words. -/
def stallRegs : List RegId := [.satStallLo, .satStallHi]

theorem writeReg_satStallClr (w : Who) (x : Nat) {v : Word} (s : State) (hgo : bitOf v 31 = true) :
    writeReg w .satStallClr x v s = ok w (stallCmd x v s) := by
  refine (if_neg (by simp [writeRefused, starts])).trans (congrArg (ok w) ?_)
  exact if_pos hgo

/-- The words of STALL_CLR name their cause. -/
theorem stallWord_fields : ∀ k < 7, bitOf (wd (2 ^ 31 + k % 8)) 31 = true ∧ bitOf (wd (2 ^ 31 + k % 8)) 3 = false ∧
    fld (wd (2 ^ 31 + k % 8)) 2 0 = k := by decide

theorem stallAllWord_fields : bitOf (wd (2 ^ 31 + 8)) 31 = true ∧ bitOf (wd (2 ^ 31 + 8)) 3 = true := by decide

section
variable {x k : Nat}

theorem stallIx_lt (hx : x < 32) (hk : k < 7) : stallIx x k < 1048576 := by
  unfold stallIx
  omega

theorem doStallClr_cause (hk : k < 7) (s : State) :
    doStallClr x k s = setRg (setRg s .satStallLo (stallIx x k) 0) .satStallHi (stallIx x k) 0 := if_pos hk

/-- Clearing a cause clears its own counter and leaves every other register. -/
theorem doStallClr_clears (hx : x < 32) (hk : k < 7) (s : State) : (∀ id ∈ stallRegs, rg (doStallClr x k s) id (stallIx x k) = 0) ∧
    RegsKept [(.satStallLo, stallIx x k), (.satStallHi, stallIx x k)] s (doStallClr x k s) := by
  have hlt := stallIx_lt hx hk
  rw [doStallClr_cause hk]
  refine ⟨?_, (RegsKept.setRg s .satStallLo (stallIx x k) 0).trans (.setRg _ .satStallHi (stallIx x k) 0)⟩
  simp only [stallRegs, List.forall_mem_cons, List.not_mem_nil, false_imp_iff, implies_true, and_true]
  have hne : RegId.satStallHi ≠ .satStallLo := nofun
  exact ⟨(rg_setRg_other _ _ (RegId.key_ne hlt hlt (.inl hne))).trans (rg_setRg_same _ _ _ _), rg_setRg_same _ _ _ _⟩

/-- A counter that reads 0 reads 0 after a cause is cleared. -/
theorem doStallClr_zero (hx : x < 32) (hk : k < 7) {id : RegId} (hid : id ∈ stallRegs) {s : State} (j : Nat)
    (h : rg s id (stallIx x k) = 0) : rg (doStallClr x j s) id (stallIx x k) = 0 := by
  by_cases hj : j < 7
  · obtain ⟨hclear, hkept⟩ := doStallClr_clears hx hj s
    by_cases hjk : j = k
    · exact hjk ▸ hclear id hid
    · have hne : stallIx x j ≠ stallIx x k := by
        unfold stallIx
        omega
      refine (hkept id _ (stallIx_lt hx hk) ?_).trans h
      have hkeys : ∀ a b : RegId, a.key (stallIx x j) ≠ b.key (stallIx x k) := fun _ _ =>
        RegId.key_ne (stallIx_lt hx hj) (stallIx_lt hx hk) (.inr hne)
      simp only [List.forall_mem_cons, List.not_mem_nil, false_imp_iff, implies_true, and_true]
      exact ⟨hkeys _ _, hkeys _ _⟩
  · exact (congrArg (rg · id (stallIx x k)) (if_neg hj)).trans h

/-- Clearing all causes of a port clears each of its counters. -/
theorem doStallClrAll_clears (hx : x < 32) {id : RegId} (hid : id ∈ stallRegs) (hk : k < 7) (s : State) :
    rg (doStallClrAll x s) id (stallIx x k) = 0 :=
  foldl_reaches (P := fun u => rg u id (stallIx x k) = 0) (List.mem_range.mpr hk) (fun u => (doStallClr_clears hx hk u).1 id hid)
    (fun _ j => doStallClr_zero hx hk hid j) s

/-- Clearing all causes of a port leaves the registers that count no stalls. -/
theorem doStallClrAll_keeps (hx : x < 32) {id : RegId} (hid : id ∉ stallRegs) {i : Nat} (hi : i < 1048576) (s : State) :
    rg (doStallClrAll x s) id i = rg s id i := by
  refine foldl_keeps (fun u => rg u id i) (fun u j => ?_) (List.range 7) s
  by_cases hj : j < 7
  · refine (doStallClr_clears hx hj u).2 id i hi ?_
    simp only [stallRegs, List.mem_cons, List.not_mem_nil, or_false, not_or] at hid
    simp only [List.forall_mem_cons, List.not_mem_nil, false_imp_iff, implies_true, and_true]
    exact ⟨RegId.key_ne (stallIx_lt hx hj) hi (.inl (Ne.symm hid.1)), RegId.key_ne (stallIx_lt hx hj) hi (.inl (Ne.symm hid.2))⟩
  · exact congrArg (rg · id i) (if_neg hj)

end

/-! ### Launches (R189, R490, R523, R531) -/

/-- A requester of the full view names its task itself. -/
theorem forcedTask_full {w : Who} (h : FullView w) (s : State) (v : Nat) : forcedTask s w v = v := by
  unfold forcedTask
  rcases h with h | ⟨-, h, -⟩ <;> simp [h]

/-- The word of a launch names its start and its task. -/
theorem launchWord_fields {start task : Nat} (hstart : start < 16384) (htask : task < 1024) :
    let v := wd (2 ^ 31 + start % 16384 + task % 1024 * 16384)
    bitOf v 31 = true ∧ fld v 13 0 = start ∧ fld v 23 14 = task := by
  have hlt : 2 ^ 31 + start % 16384 + task % 1024 * 16384 < 2 ^ 32 := by omega
  have hnat : (wd (2 ^ 31 + start % 16384 + task % 1024 * 16384)).toNat = 2 ^ 31 + start % 16384 + task % 1024 * 16384 :=
    Nat.mod_eq_of_lt hlt
  dsimp only [bitOf, BitVec.getLsbD, fld]
  rw [hnat, Nat.testBit_eq_decide_div_mod_eq, Nat.shiftRight_eq_div_pow, Nat.shiftRight_eq_div_pow]
  exact ⟨decide_eq_true (by omega), by omega, by omega⟩

theorem writeReg_fsLaunch {w : Who} (hw : FullView w) (x : Nat) {v : Word} {s : State} (hsafe : s.safe = false)
    (hcfg : bitOf (rg s .cfgStat) 6 = false) (hgo : bitOf v 31 = true) :
    writeReg w .fsLaunch x v s = ok w (doFsLaunch x (fld v 13 0) (fld v 23 14) s) := by
  refine (if_neg (by simp [writeRefused, hsafe, hcfg])).trans (congrArg (ok w) ?_)
  exact (if_pos hgo).trans (congrArg (doFsLaunch x _ · s) (forcedTask_full hw s _))

section
variable {s : State} {x : Nat}

/-- A launch takes the next of four places. -/
theorem doFsLaunch_room (start task : Nat) (h : (s.agent x).queue.length < 4) : doFsLaunch x start task s =
    s.setAgent x { s.agent x with queue := (s.agent x).queue ++ [⟨start, task, 0, 0, 0, 0⟩] } := if_pos h

/-- A launch too many is counted and raised. -/
theorem doFsLaunch_full (start task : Nat) (h : 4 ≤ (s.agent x).queue.length) : doFsLaunch x start task s =
    raise (bump s .fsStat x 15 8) (fuPg (groupOf x)) 11 0 0 (some task) := if_neg (by omega)

end

theorem agent_congr {s t : State} (h : t.agents = s.agents) (a : Nat) : t.agent a = s.agent a := by simp [State.agent, h]

theorem EventShape.agent {s t : State} (h : EventShape s t) (a : Nat) : t.agent a = s.agent a := by
  obtain ⟨_, _, _, _, rfl⟩ := h
  rfl

theorem fuPg_lt (x : Nat) : fuPg (groupOf x) < 1048576 := by
  have : fuPg (groupOf x) = 64 + x % 16 := rfl
  omega

/-- Settles O40: each clause is one accepted write and what its register's work leaves. -/
theorem satchelRegistersAct : Obligations.SatchelRegistersAct := by
  unfold Obligations.SatchelRegistersAct
  refine ⟨?mode, ?clear, ?clearAll, ?launch⟩
  case mode =>
    intro w x v s hs hw hg hx hchain
    have hwrite : writeReg w .satCtrl x v (acting s (s.clk + 1)) = _ :=
      (writeReg_satCtrl w x v _).trans (congrArg (ok w) (doSwapMode_unchained v hchain))
    obtain ⟨hregs, -⟩ := ctlWrite_leaves hs hw hg hx (by decide) hwrite
    have hrg : rg (ctlWrite w .satCtrl x v s) .satCtrl x = v &&& RegId.satCtrl.row.rw :=
      (rg_congr hregs _ _).trans (rg_setRg_same _ _ _ _)
    refine ⟨_, steady_eq _ hs.1, ?_, ?_, ?_⟩
    · rw [calm_rf, rf, hrg, fld_and_mask _ _ (by decide)]
    · rw [calm_rf, rf, hrg, fld_and_mask _ _ (by decide)]
    · exact (RegsKept.setRg (acting s (s.clk + 1)) .satCtrl x _).of_acting hregs
  case clear =>
    intro w x k s hs hw hg hx hk
    obtain ⟨hgo, hone, hcause⟩ := stallWord_fields k hk
    have hwrite := writeReg_satStallClr w x (acting s (s.clk + 1)) hgo
    rw [stallCmd, if_neg (Bool.eq_false_iff.mp hone), hcause] at hwrite
    obtain ⟨hregs, -⟩ := ctlWrite_leaves hs hw hg hx (by decide) hwrite
    obtain ⟨hclear, hkept⟩ := doStallClr_clears hx hk (acting s (s.clk + 1))
    exact ⟨_, steady_eq _ hs.1, (rg_congr hregs _ _).trans (hclear _ (by simp [stallRegs])),
      (rg_congr hregs _ _).trans (hclear _ (by simp [stallRegs])), hkept.of_acting hregs⟩
  case clearAll =>
    intro w x s hs hw hg hx
    obtain ⟨hgo, hall⟩ := stallAllWord_fields
    have hwrite := writeReg_satStallClr w x (acting s (s.clk + 1)) hgo
    rw [stallCmd, if_pos hall] at hwrite
    obtain ⟨hregs, -⟩ := ctlWrite_leaves hs hw hg hx (by decide) hwrite
    refine ⟨_, steady_eq _ hs.1, fun k hk => ⟨?_, ?_⟩, fun id i hi hlo hhi => ?_⟩
    · exact (rg_congr hregs _ _).trans (doStallClrAll_clears hx (by simp [stallRegs]) hk _)
    · exact (rg_congr hregs _ _).trans (doStallClrAll_clears hx (by simp [stallRegs]) hk _)
    · exact (rg_congr hregs id i).trans (doStallClrAll_keeps hx (by simp [stallRegs, hlo, hhi]) hi _)
  case launch =>
    intro w x start task s hs hsafe hcfg hw hg hx hstart htask
    obtain ⟨hgo, hs0, ht0⟩ := launchWord_fields hstart htask
    have hwrite := writeReg_fsLaunch (s := acting s (s.clk + 1)) hw x hsafe hcfg hgo
    rw [hs0, ht0] at hwrite
    refine ⟨fun hroom => ?_, fun hfull => ?_⟩
    · obtain ⟨hregs, hagents⟩ :=
        ctlWrite_leaves hs hw hg hx (by decide) (hwrite.trans (congrArg (ok w) (doFsLaunch_room start task hroom)))
      have hagent := (agent_congr hagents x).trans (agent_setAgent_same _ x _)
      exact ⟨_, _, steady_eq _ hs.1, (congrArg Agent.queue hagent :), rfl, rfl, .of_regs [] hregs⟩
    · obtain ⟨hregs, hagents⟩ :=
        ctlWrite_leaves hs hw hg hx (by decide) (hwrite.trans (congrArg (ok w) (doFsLaunch_full start task hfull)))
      have hcount := rf_bump_same (acting s (s.clk + 1)) .fsStat x 15 8 1 (by decide) (by decide)
      refine ⟨_, steady_eq _ hs.1, ?_, ?_, ?_⟩
      · exact congrArg Agent.queue ((agent_congr hagents x).trans ((EventShape.raise _ _ _ _ _ _ _).agent x))
      · rw [calm_rf, rf, rg_congr hregs, rg_raise _ _ _ _ _ _ (fuPg_lt x) (by omega) (by decide)]
        exact hcount
      · rw [calm_rg, rg_congr hregs]
        exact raise_sets _ _ _ _ _ (srcListed_fuPg x (by decide)) (by decide)

end Sys2Proof.Machine
end

section
/-! Fills, hops and escape records (R184, R191, R192, R199, R331): what an issue takes, what a landing fills, what its headers' settling
leaves. -/

namespace Sys2Proof.Machine

@[simp] theorem calm_hops (f : State → State) (s : State) : (calm f s).hops = (f s).hops := rfl
@[simp] theorem calm_pieces (f : State → State) (s : State) : (calm f s).pieces = (f s).pieces := rfl

/-! ### Fill bits (R184) -/

section
variable (v : Sat) (half : Bool) (slot : Nat)

@[simp] theorem note_front (src : Nat) (gs : List Nat) : (v.note half slot src gs).front = v.front := by cases half <;> rfl

@[simp] theorem note_fills (src : Nat) (gs : List Nat) : (v.note half slot src gs).fills = v.fills := by cases half <;> rfl

@[simp] theorem markEsc_front (gs : List Nat) : (v.markEsc half gs).front = v.front := by cases half <;> rfl

@[simp] theorem markEsc_fill (gs : List Nat) : (v.markEsc half gs).fill = v.fill := by cases half <;> rfl

@[simp] theorem take_fills (gs : List Nat) : (v.take half gs).fills = v.fills := by cases half <;> rfl

@[simp] theorem take_fill (gs : List Nat) : (v.take half gs).fill = v.fill := by cases half <;> rfl

/-- The mask of a slot holds its bit only. -/
theorem getLsbD_slotMask {k : Nat} (hk : k < 1024) : (BitVec.ofNat 1024 (2 ^ slot)).getLsbD k = decide (slot = k) := by
  rw [BitVec.getLsbD_ofNat, Nat.testBit_two_pow, decide_eq_true hk, Bool.true_and]

theorem fill_note (src : Nat) (gs : List Nat) :
    (v.note half slot src gs).fill half = v.fill half ||| BitVec.ofNat 1024 (2 ^ slot) := by cases half <;> rfl

/-- A note sets the bit of its slot in its half. -/
theorem filled_note (src : Nat) (gs : List Nat) {k : Nat} (hk : k < 1024) :
    (v.note half slot src gs).filled half k = (v.filled half k || decide (slot = k)) := by
  rw [Sat.filled, fill_note, BitVec.getLsbD_or, getLsbD_slotMask slot hk, Sat.filled]

end

/-! ### What the settling of headers leaves (R329, R330) -/

/-- The pieces, the read lanes, and satchel `x`'s fills and fill bits stand. -/
def FillsStand (x : Nat) (s t : State) : Prop :=
  t.pieces = s.pieces ∧ t.rdLanes = s.rdLanes ∧ (t.sat x).fills = (s.sat x).fills ∧ (t.sat x).fill = (s.sat x).fill

namespace FillsStand

section
variable {x : Nat} {s t u : State}

theorem refl (x : Nat) (s : State) : FillsStand x s s := ⟨rfl, rfl, rfl, rfl⟩

theorem trans (h1 : FillsStand x s t) (h2 : FillsStand x t u) : FillsStand x s u := by
  obtain ⟨hp, hl, hf, hb⟩ := h1
  obtain ⟨hp', hl', hf', hb'⟩ := h2
  exact ⟨hp'.trans hp, hl'.trans hl, hf'.trans hf, hb'.trans hb⟩

theorem foldl {α : Type} {f : State → α → State} (h : ∀ u a, FillsStand x u (f u a)) : ∀ (l : List α) (s : State),
    FillsStand x s (l.foldl f s)
  | [], s => .refl x s
  | a :: l, s => (h s a).trans (foldl h l (f s a))

theorem of_event (x : Nat) (h : EventShape s t) : FillsStand x s t := by
  obtain ⟨_, _, _, _, rfl⟩ := h
  exact .refl x _

theorem setSatGran (x : Nat) (s : State) (y : Nat) (half : Bool) (g : Nat) (d : Coded) :
    FillsStand x s (setSatGran s y half g d) := ⟨rfl, rfl, rfl, rfl⟩

theorem setSat {v : Sat} (hf : v.fills = (s.sat x).fills) (hb : v.fill = (s.sat x).fill) : FillsStand x s (s.setSat x v) := by
  refine ⟨rfl, rfl, ?_, ?_⟩ <;> rw [sat_setSat_same] <;> assumption

theorem faultTask (x : Nat) (s : State) (task agent start off cause detail addr space : Nat) :
    FillsStand x s (faultTask s task agent start off cause detail addr space) := by
  obtain ⟨_, _, h⟩ := faultTask_shape s task agent start off cause detail addr space
  rw [h]
  exact .refl x s

theorem putSatWord (s : State) (x : Nat) (half : Bool) (off w : Nat) : FillsStand x s (putSatWord s x half off w) := by
  unfold Machine.putSatWord
  exact .foldl (fun u _ => .setSatGran x u _ _ _ _) _ s

theorem escFault (s : State) (x task start off addr : Nat) : FillsStand x s (escFault s x task start off addr) :=
  (FillsStand.of_event x ((EventShape.countFmtFault s x 8).trans (.raise _ _ _ _ _ _ _))).trans (.faultTask x _ _ _ _ _ _ _ _ _)

theorem examine (x : Nat) (f : Fill) (p : Prof) (k : Blk) (task start off : Nat) (s : State) (b : Nat) :
    FillsStand x s (examine x f p k task start off s b) := by
  unfold Machine.examine
  dsimp only
  split
  · exact .refl x s
  · split
    · split
      · exact .escFault _ _ _ _ _ _
      · refine FillsStand.trans ?_ (.putSatWord _ x _ _ _)
        refine FillsStand.trans ?_ (.of_event x (.bump _ _ _ _ _ _))
        exact .setSat (take_fills (s.sat x) _ _) (take_fill (s.sat x) _ _)
    · exact .escFault _ _ _ _ _ _

theorem sendHops (s : State) (x slot src : Nat) (gs : List Nat) (half : Bool) (escs : List Nat) :
    FillsStand x s (sendHops s x slot src gs half escs) := by
  unfold Machine.sendHops
  split
  · split <;> exact .refl x _
  · exact .refl x s

end

end FillsStand

/-! ### Landings (R184, R192) -/

/-- Dropping a piece removes it. -/
theorem piece_dropPiece (s : State) (sq : Nat) : (dropPiece s sq).piece sq = none := by
  simp [State.piece, dropPiece, List.find?_eq_none]

section
variable {s : State} {x : Nat} {f : Fill} {p : Piece}

/-- A stripe that lands fills its slot, and its piece is complete. -/
theorem landStripe_fills (s : State) (x : Nat) (p : Piece) (cells : List Coded) (hslot : f.slot < 1024) :
    let t := landStripe s x f p cells
    (t.sat x).filled f.half f.slot = true ∧ t.piece p.sq = none ∧ (t.sat x).fills = (s.sat x).fills ∧ t.rdLanes = s.rdLanes := by
  let base := if f.elem = 0 then p.dst.addr else p.dst.addr / 8 * 8
  let gs := (List.range cells.length).map fun i => base + i
  let s1 := (gs.zip cells).foldl (fun s e => setSatGran s x f.half e.1 e.2) s
  let s2 := s1.setSat x ((s1.sat x).note f.half f.slot f.addr gs)
  obtain ⟨-, hlanes1, hfills1, -⟩ : FillsStand x s s1 := .foldl (fun u _ => .setSatGran x u _ _ _ _) _ s
  have hfill2 : (s2.sat x).filled f.half f.slot = true := by
    rw [sat_setSat_same, filled_note _ _ _ _ _ hslot, decide_eq_true rfl, Bool.or_true]
  have hfills2 : (s2.sat x).fills = (s1.sat x).fills := by rw [sat_setSat_same, note_fills]
  obtain ⟨s3, hstand, hland⟩ : ∃ s3, FillsStand x s2 s3 ∧ landStripe s x f p cells = dropPiece s3 p.sq := by
    refine ⟨_, ?_, rfl⟩
    refine FillsStand.trans ?_ (.sendHops _ _ _ _ _ _ _)
    split
    · exact .foldl (fun u b => .examine _ _ _ _ _ _ _ u b) _ _
    · exact .refl x s2
  obtain ⟨-, hlanes3, hfills3, hbits3⟩ := hstand
  dsimp only
  rw [hland]
  exact ⟨(congrArg (fun b => (b f.half).getLsbD f.slot) hbits3).trans hfill2, piece_dropPiece s3 p.sq,
    hfills3.trans (hfills2.trans hfills1), hlanes3.trans hlanes1⟩

/-- A piece's fill that finds its lane readable lands its stripe once what the lane found is reported and the lane and the fill are over. -/
theorem landFill_lands {l : RdLane} (hl : fillLane s x f.id = some l) (hrst : inReset s (rstPg (groupOf x)) = false)
    (hesc : f.esc = none) (hp : s.piece f.sq = some p) (hue : laneUe l = false) :
    ∃ u, FindShape { s with rdLanes := s.rdLanes.filter fun m => decide (m ≠ l) } u ∧
      landFill x s f = landStripe (u.setSat x { u.sat x with fills := (u.sat x).fills.filter fun g => g.id != f.id }) x f p
        (landed f l) := by
  have hfind := FindShape.foundAll l.col l.finds .client (some p.task) { s with rdLanes := s.rdLanes.filter fun m => decide (m ≠ l) }
  refine ⟨_, hfind, ?_⟩
  have hpiece : ∀ v, ((foundAll { s with rdLanes := s.rdLanes.filter fun m => decide (m ≠ l) } l.col l.finds .client
      (some p.task)).setSat x v).piece f.sq = some p := by
    obtain ⟨_, _, _, _, _, h⟩ := hfind
    rw [h]
    exact fun _ => hp
  simp only [landFill, hl, hrst, hesc, hp, Bool.false_eq_true, if_false, Option.map_some, hpiece, hue]

/-- A fill that lands without an uncorrectable word fills its slot and completes its piece; its lane is over. -/
theorem landFill_fills {l : RdLane} (hl : fillLane s x f.id = some l) (hrst : inReset s (rstPg (groupOf x)) = false)
    (hesc : f.esc = none) (hp : s.piece f.sq = some p) (hue : laneUe l = false) (hslot : f.slot < 1024) :
    let t := landFill x s f
    (t.sat x).filled f.half f.slot = true ∧ t.piece p.sq = none ∧ (∀ g ∈ (t.sat x).fills, g.id ≠ f.id) ∧ l ∉ t.rdLanes := by
  obtain ⟨u, hu, hland⟩ := landFill_lands hl hrst hesc hp hue
  obtain ⟨-, hlanes, -⟩ := hu.lanes
  obtain ⟨hfilled, hpiece, hfills, hrd⟩ := landStripe_fills (f := f)
    (u.setSat x { u.sat x with fills := (u.sat x).fills.filter fun g => g.id != f.id }) x p (landed f l) hslot
  dsimp only
  rw [hland]
  refine ⟨hfilled, hpiece, fun g hg => ?_, fun hmem => ?_⟩
  · rw [hfills, sat_setSat_same] at hg
    simpa using (List.mem_filter.mp hg).2
  · rw [hrd, setSat_rdLanes, hlanes] at hmem
    simpa using (List.mem_filter.mp hmem).2

end

/-! ### Issues (R191, R192) -/

/-- `n` fills of port `x` have issued, each with a lane of its own, each to land at edge n+16. -/
def FillsIssued (x n : Nat) (s t : State) : Prop :=
  t.regs = s.regs ∧ t.run = s.run ∧
    (∃ fs, (t.sat x).fills = (s.sat x).fills ++ fs ∧ fs.length = n ∧ ∀ f ∈ fs, f.due = s.run + 16) ∧
    ∃ ls, t.rdLanes = s.rdLanes ++ ls ∧ ls.length = n

theorem FillsIssued.trans {x m n : Nat} {s t u : State} (h1 : FillsIssued x m s t) (h2 : FillsIssued x n t u) :
    FillsIssued x (m + n) s u := by
  obtain ⟨hregs, hrun, ⟨fs, hfs, hfn, hfd⟩, ls, hls, hln⟩ := h1
  obtain ⟨hregs', hrun', ⟨fs', hfs', hfn', hfd'⟩, ls', hls', hln'⟩ := h2
  refine ⟨hregs'.trans hregs, hrun'.trans hrun, ⟨fs ++ fs', ?_, ?_, fun f hf => ?_⟩, ls ++ ls', ?_, ?_⟩
  · rw [hfs', hfs, List.append_assoc]
  · rw [List.length_append, hfn, hfn']
  · rcases List.mem_append.mp hf with h | h
    · exact hfd f h
    · exact hrun ▸ hfd' f h
  · rw [hls', hls, List.append_assoc]
  · rw [List.length_append, hln, hln']

/-- The issue of one stripe adds one fill and one lane; what it does to its record or its piece leaves both. -/
theorem FillsIssued.issueFill (x : Nat) (s : State) (e : FillCand × Bool) : FillsIssued x 1 s (issueFill x s e) := by
  let v := s.sat x
  let g : Fill := { e.1.fill with id := v.nextId, due := s.run + 16 }
  let lane := newLane e.1.chk.col (.fill x v.nextId) x (e.1.chk.grans.map Prod.snd) (s.run + laneOffset .rd e.2 + 4)
    (s.run + laneOffset .rd e.2 + 11)
  obtain ⟨hregs, hrun, hfills, hlanes⟩ : (Machine.issueFill x s e).regs = s.regs ∧ (Machine.issueFill x s e).run = s.run ∧
      ((Machine.issueFill x s e).sat x).fills = v.fills ++ [g] ∧ (Machine.issueFill x s e).rdLanes = s.rdLanes ++ [lane] := by
    have hsat : ∀ (w : Sat) (ls : List RdLane) (ps : List Piece), w.fills = v.fills ++ [g] →
        (({ s.setSat x w with rdLanes := ls, pieces := ps } : State).sat x).fills = v.fills ++ [g] := fun w _ _ h =>
      (congrArg Sat.fills (sat_setSat_same s x w)).trans h
    unfold Machine.issueFill
    dsimp only
    split
    · exact ⟨rfl, rfl, hsat _ _ s.pieces rfl, rfl⟩
    · split
      · exact ⟨rfl, rfl, hsat _ _ _ rfl, rfl⟩
      · exact ⟨rfl, rfl, hsat _ _ s.pieces rfl, rfl⟩
  exact ⟨hregs, hrun, ⟨[g], hfills, rfl, by simp [g]⟩, [lane], hlanes, rfl⟩

theorem FillsIssued.fold (x : Nat) : ∀ (l : List (FillCand × Bool)) (s : State),
    FillsIssued x l.length s (l.foldl (Machine.issueFill x) s)
  | [], s => ⟨rfl, rfl, ⟨[], (List.append_nil _).symm, rfl, nofun⟩, [], (List.append_nil _).symm, rfl⟩
  | e :: l, s => by
    rw [List.length_cons, Nat.add_comm]
    exact (FillsIssued.issueFill x s e).trans (fold x l _)

/-- At an edge that may be sampled and takes no column read, the run of the next stripes issues, unless the first fails its checks. -/
theorem doFillIssue_runs {s : State} {x : Nat} {c : FillCand} (hsamp : sampling s = true) (hup : groupUp s (groupOf x) = true)
    (hidle : ((s.rdDir x).beats.any fun b => decide (b.at_ = s.run)) = false) (hhead : (fillCands s x).head? = some c)
    (hok : candFails s c = none) : doFillIssue x s = (fillRun s x (fillCands s x)).foldl (issueFill x) s := by
  simp only [doFillIssue, hidle, hsamp, hup, hhead, hok, Bool.not_false, Bool.and_self, Bool.not_true, Bool.false_eq_true, if_false]

/-! ### Hops (R199) -/

/-- A hop lands in the back half of its member. -/
def landHop (x : Nat) (s : State) (h : Hop) : State :=
  let half := (s.sat x).back
  let s1 := h.grans.foldl (fun s e => setSatGran s x half e.1 e.2) s
  s1.setSat x (((s1.sat x).note half h.slot h.src (h.grans.map Prod.fst)).markEsc half h.escs)

/-- The hops due at a member land, the others stay on their way. -/
theorem doHop_lands {s : State} {x : Nat} (hheld : heldEdge s = false) (hrst : inReset s (rstPg (groupOf x)) = false)
    (hdeaf : (s.sat x).deaf = false) : doHop x s = (s.hops.filter fun h => decide (h.x = x ∧ h.due ≤ s.run)).foldl (landHop x)
      { s with hops := s.hops.filter fun h => !decide (h.x = x ∧ h.due ≤ s.run) } := by
  unfold doHop
  rw [if_neg (by simp [hheld])]
  exact if_neg (by simp [hrst, hdeaf])

/-- A hop's landing keeps the other hops, the halves' roles and the fill bits, and sets its slot's. -/
theorem landHop_does (x : Nat) (s : State) (h : Hop) : (landHop x s h).hops = s.hops ∧
    ((landHop x s h).sat x).front = (s.sat x).front ∧
    ∀ k < 1024, ((landHop x s h).sat x).filled (s.sat x).back k = ((s.sat x).filled (s.sat x).back k || decide (h.slot = k)) := by
  obtain ⟨hhops, hsats⟩ := Prod.mk.inj (foldl_keeps (fun u : State => (u.hops, u.sats))
    (f := fun u (e : Nat × Coded) => setSatGran u x (s.sat x).back e.1 e.2) (fun _ _ => rfl) h.grans s)
  unfold landHop
  refine ⟨hhops, ?_, fun k hk => ?_⟩
  · rw [sat_setSat_same, markEsc_front, note_front, sat_congr hsats]
  · rw [sat_setSat_same, Sat.filled, markEsc_fill, ← Sat.filled, filled_note _ _ _ _ _ hk, sat_congr hsats]

/-! ### Escape records read again (R331) -/

/-- The time of a record's repetition has come. -/
def retryDue (s : State) (j : EscJob) : Bool := match j.due with
  | some d => decide (d ≤ s.clk)
  | none => false

/-- A record whose time has come waits no more. -/
def retried (s : State) (j : EscJob) : EscJob := if retryDue s j then { j with due := none } else j

theorem retried_due {s : State} {j : EscJob} {d : Nat} (h : (retried s j).due = some d) : s.clk < d := by
  unfold retried at h
  split at h
  · cases h
  next hdue => simpa [retryDue, h] using hdue

/-- The records of a satchel are retried, and counted. -/
theorem doEscRetry_eq (x : Nat) (s : State) : ∃ n, doEscRetry x s =
    bump (s.setSat x { s.sat x with jobs := (s.sat x).jobs.map (retried s) }) .chgRRetry x 31 0 n := ⟨_, rfl⟩

/-- Settles O41: issue and hop by induction over the stripes and the hops, landing by what its headers' settling leaves. -/
theorem fillsIssueAndLand : Obligations.FillsIssueAndLand := by
  unfold Obligations.FillsIssueAndLand
  refine ⟨?issue, ?land, ?hop, ?retry⟩
  case issue =>
    intro x c s hs hsamp hup hidle hhead hok
    have hdo := doFillIssue_runs hsamp hup hidle hhead hok
    obtain ⟨hregs, -, ⟨fs, hfs, hfn, hfd⟩, ls, hls, hln⟩ := FillsIssued.fold x (fillRun s x (fillCands s x)) s
    rw [← hdo] at hregs hfs hls
    refine ⟨_, steady_eq _ hs, ?_, ?_, fun f hf => ?_, .of_regs [] hregs⟩
    · rw [calm_sat, hfs, List.length_append, hfn]
    · rw [calm_rdLanes, hls, List.length_append, hln]
    · rw [calm_sat, hfs] at hf
      exact (List.mem_append.mp hf).imp_right (hfd f)
  case land =>
    intro x f l p s hs hheld hdue hl hrst hesc hp hue hslot
    have hdo : doFillLand x s = landFill x s f := by
      unfold doFillLand
      rw [if_neg (by simp [hheld]), hdue]
      rfl
    obtain ⟨hfilled, hpiece, hfills, hlane⟩ := landFill_fills hl hrst hesc hp hue hslot
    rw [← hdo] at hfilled hpiece hfills hlane
    exact ⟨_, steady_eq _ hs, hfilled, hpiece, hfills, hlane⟩
  case hop =>
    intro x h s hs hheld hmem hx hdue hslot hrst hdeaf
    have hdo := doHop_lands hheld hrst hdeaf
    have hhops : (doHop x s).hops = s.hops.filter fun h => !decide (h.x = x ∧ h.due ≤ s.run) := by
      rw [hdo]
      exact foldl_keeps State.hops (fun u k => (landHop_does x u k).1) _ _
    have hfront : ((doHop x s).sat x).front = (s.sat x).front := by
      rw [hdo]
      exact foldl_keeps (fun u : State => (u.sat x).front) (fun u k => (landHop_does x u k).2.1) _ _
    have hfilled : ((doHop x s).sat x).filled ((doHop x s).sat x).back h.slot = true := by
      rw [hdo]
      refine foldl_reaches (P := fun u : State => (u.sat x).filled (u.sat x).back h.slot = true)
        (List.mem_filter.mpr ⟨hmem, by simp [hx, hdue]⟩) (fun u => ?_) (fun u k hu => ?_) _
      · obtain ⟨-, hf, hb⟩ := landHop_does x u h
        rw [Sat.back, hf, ← Sat.back, hb _ hslot, decide_eq_true rfl, Bool.or_true]
      · obtain ⟨-, hf, hb⟩ := landHop_does x u k
        rw [Sat.back, hf, ← Sat.back, hb _ hslot, hu, Bool.true_or]
    refine ⟨_, steady_eq _ hs, fun k hk hkx => ?_, ?_⟩
    · rw [calm_hops, hhops] at hk
      simpa [hkx] using (List.mem_filter.mp hk).2
    · rw [Sat.back, hfront, ← Sat.back] at hfilled
      exact hfilled
  case retry =>
    intro x s hs
    obtain ⟨n, hdo⟩ := doEscRetry_eq x s
    have hjobs : ((doEscRetry x s).sat x).jobs = (s.sat x).jobs.map (retried s) := by
      rw [hdo]
      exact congrArg Sat.jobs (sat_setSat_same s x _)
    refine ⟨_, steady_eq _ hs, ?_, fun j hj d hd => ?_, ?_⟩
    · rw [calm_sat, hjobs, List.length_map]
    · rw [calm_sat, hjobs] at hj
      obtain ⟨i, -, rfl⟩ := List.mem_map.mp hj
      exact retried_due hd
    · exact (RegsKept.bump (s.setSat x _) .chgRRetry x 31 0 n).trans (m := []) (.of_regs [] (congrArg State.regs hdo :))

end Sys2Proof.Machine
end

section
/-! Page maps (R279 to R294): what a command does to its slot's banks and answers, what a COPY or CLEAR has written at its end, writes
of the inactive window, the limit of an epoch wait. -/

namespace Sys2Proof.Machine

/-! ### Entries of the page-map store (R275, R279) -/

theorem activeBank_lt (s : State) (slot : Nat) : activeBank s slot < 2 := Nat.mod_lt _ (by decide)

/-- Entries of different slots or banks stand apart. -/
theorem pmapIx_ne {n m c d i j : Nat} (hc : c < 2) (hd : d < 2) (hi : i < 4096) (hj : j < 4096) (h : (n, c) ≠ (m, d)) :
    pmapIx n c i ≠ pmapIx m d j := by
  have : ¬(n = m ∧ c = d) := fun ⟨h1, h2⟩ => h (by rw [h1, h2])
  unfold pmapIx
  omega

theorem pmapIx_ne_entry (n c : Nat) {i j : Nat} (h : i ≠ j) : pmapIx n c i ≠ pmapIx n c j := by
  unfold pmapIx
  omega

/-- An entry read through its code depends on the page-map store and its flips alone. -/
theorem loadWord_pmap_congr {s t : State} (hmaps : t.pmaps = s.pmaps) (hups : t.upsOther = s.upsOther) (j : Nat) :
    loadWord t .pmap j = loadWord s .pmap j := by
  simp only [loadWord, State.words, hmaps, hups]

/-! ### What a COPY or CLEAR writes (R291, R298) -/

/-- Entry `i` of the bank an operation reads, and of the bank it fills. -/
def sourceIx (s : State) (o : PmapOp) (i : Nat) : Nat := pmapIx o.slot (activeBank s o.slot) i
def targetIx (s : State) (o : PmapOp) (i : Nat) : Nat := pmapIx o.slot (1 - activeBank s o.slot) i

/-- The work of an operation on one entry. -/
def pmapEntry (o : PmapOp) : State → Nat → State := if o.copy then copyEntry o.slot else clearEntry o.slot

/-- Only the page-map store and the flips of its words change. -/
def PmapShape (s t : State) : Prop := ∃ p u, t = { s with pmaps := p, upsOther := u }

/-- Entry `i` of the filled bank reads 0 after a CLEAR, and after a COPY what the source entry of `s` corrects to. -/
def EntryDone (o : PmapOp) (s t : State) (i : Nat) : Prop :=
  (o.copy = false → loadWord t .pmap (targetIx s o i) = ⟨0, false, false⟩) ∧
  (o.copy = true → (loadWord s .pmap (sourceIx s o i)).ue = false →
    loadWord t .pmap (targetIx s o i) = ⟨(loadWord s .pmap (sourceIx s o i)).data, false, false⟩)

theorem PmapShape.refl (s : State) : PmapShape s s := ⟨s.pmaps, s.upsOther, rfl⟩

theorem PmapShape.trans {s t u : State} (h1 : PmapShape s t) (h2 : PmapShape t u) : PmapShape s u := by
  obtain ⟨_, _, rfl⟩ := h1
  obtain ⟨p, v, rfl⟩ := h2
  exact ⟨p, v, rfl⟩

theorem PmapShape.storeWord (s : State) (i : Nat) (v : Word) : PmapShape s (storeWord s .pmap i v) := ⟨_, _, rfl⟩

theorem PmapShape.activeBank {s t : State} (h : PmapShape s t) (slot : Nat) : activeBank t slot = activeBank s slot := by
  obtain ⟨_, _, rfl⟩ := h
  rfl

theorem sourceIx_ne_targetIx (s : State) (o : PmapOp) {i j : Nat} (hi : i < 4096) (hj : j < 4096) :
    targetIx s o i ≠ sourceIx s o j := by
  have hb := activeBank_lt s o.slot
  refine pmapIx_ne (by omega) hb hi hj fun h => ?_
  have := congrArg Prod.snd h
  dsimp only at this
  omega

section
variable (slot : Nat) (s : State) (i : Nat)

/-- An uncorrectable entry is copied as its stored bits, with its flips. -/
theorem copyEntry_raw (h : (loadWord s .pmap (pmapIx slot (activeBank s slot) i)).ue = true) : ∃ d u,
    copyEntry slot s i = { s with
      pmaps := Tab.set (fun _ => 0) s.pmaps (pmapIx slot (1 - activeBank s slot) i) d
      upsOther := Tab.set (fun _ => 0) s.upsOther (Store.pmap.site (pmapIx slot (1 - activeBank s slot) i)) u } :=
  ⟨Tab.get (fun _ => 0) s.pmaps _, Tab.get (fun _ => 0) s.upsOther _, by
    unfold copyEntry
    dsimp only
    rw [if_pos h]⟩

theorem copyEntry_read (h : (loadWord s .pmap (pmapIx slot (activeBank s slot) i)).ue = false) : copyEntry slot s i =
    storeWord s .pmap (pmapIx slot (1 - activeBank s slot) i) (loadWord s .pmap (pmapIx slot (activeBank s slot) i)).data := by
  unfold copyEntry
  dsimp only
  rw [if_neg (by simp [h])]

end

/-- The stored bits of one entry do not reach another. -/
theorem loadWord_raw_other (s : State) {i j : Nat} (d : Word) (u : BitVec 136) (h : i ≠ j) :
    loadWord { s with
      pmaps := Tab.set (fun _ => 0) s.pmaps i d
      upsOther := Tab.set (fun _ => 0) s.upsOther (Store.pmap.site i) u } .pmap j = loadWord s .pmap j := by
  have hsite : Store.pmap.site i ≠ Store.pmap.site j := by simp only [Store.site]; omega
  simp only [loadWord, State.words, Tab.get_set_other _ _ _ h, Tab.get_set_other _ _ _ hsite]

theorem loadWord_storeWord_pmap (s : State) (i j : Nat) (v : Word) :
    loadWord (storeWord s .pmap i v) .pmap j = if i = j then ⟨v, false, false⟩ else loadWord s .pmap j :=
  loadWord_storeWord s .pmap i j v (by decide) (by decide)

/-- The work on one entry fills it and leaves every other entry. -/
theorem pmapEntry_does (o : PmapOp) (s : State) (i : Nat) : PmapShape s (pmapEntry o s i) ∧
    (∀ j, targetIx s o i ≠ j → loadWord (pmapEntry o s i) .pmap j = loadWord s .pmap j) ∧ EntryDone o s (pmapEntry o s i) i := by
  have hstored : ∀ v, PmapShape s (storeWord s .pmap (targetIx s o i) v) ∧
      (∀ j, targetIx s o i ≠ j → loadWord (storeWord s .pmap (targetIx s o i) v) .pmap j = loadWord s .pmap j) ∧
      loadWord (storeWord s .pmap (targetIx s o i) v) .pmap (targetIx s o i) = ⟨v, false, false⟩ := fun v =>
    ⟨.storeWord _ _ _, fun j hj => (loadWord_storeWord_pmap _ _ _ _).trans (if_neg hj),
      (loadWord_storeWord_pmap _ _ _ _).trans (if_pos rfl)⟩
  cases hcopy : o.copy with
  | false =>
    have hdo : pmapEntry o s i = storeWord s .pmap (targetIx s o i) 0 := by
      rw [pmapEntry, if_neg (by simp [hcopy])]
      rfl
    obtain ⟨hshape, hother, hentry⟩ := hstored 0
    exact hdo ▸ ⟨hshape, hother, fun _ => hentry, by simp [hcopy]⟩
  | true =>
    have hdo : pmapEntry o s i = copyEntry o.slot s i := by rw [pmapEntry, if_pos hcopy]
    by_cases hue : (loadWord s .pmap (sourceIx s o i)).ue = true
    · obtain ⟨d, u, hraw⟩ := copyEntry_raw o.slot s i hue
      exact (hdo.trans hraw) ▸ ⟨⟨_, _, rfl⟩, fun j hj => loadWord_raw_other s d u hj, by simp [hcopy],
        fun _ h => absurd hue (by simp [h])⟩
    · obtain ⟨hshape, hother, hentry⟩ := hstored (loadWord s .pmap (sourceIx s o i)).data
      exact (hdo.trans (copyEntry_read o.slot s i (Bool.eq_false_iff.mpr hue))) ▸
        ⟨hshape, hother, by simp [hcopy], fun _ _ => hentry⟩

/-- The first `n` entries of the bank are filled; every other entry stands. -/
def PmapFilled (o : PmapOp) (n : Nat) (s t : State) : Prop :=
  PmapShape s t ∧ (∀ j, (∀ i < n, targetIx s o i ≠ j) → loadWord t .pmap j = loadWord s .pmap j) ∧ ∀ i < n, EntryDone o s t i

theorem pmapApply_succ (s : State) (o : PmapOp) {n : Nat} (h : n < 4096) :
    pmapApply s o (n + 1) = pmapEntry o (pmapApply s o n) n := by
  unfold pmapApply
  rw [Nat.min_eq_right (Nat.succ_le_of_lt h), Nat.min_eq_right (Nat.le_of_lt h), List.range_succ, List.foldl_append]
  rfl

/-- One more entry is filled: its source is of the other bank, and so as it was at the start. -/
theorem PmapFilled.succ {o : PmapOp} {n : Nat} {s t : State} (hn : n < 4096) (h : PmapFilled o n s t) :
    PmapFilled o (n + 1) s (pmapEntry o t n) := by
  obtain ⟨hshape, hother, hdone⟩ := h
  obtain ⟨eshape, eother, edone⟩ := pmapEntry_does o t n
  have htarget : targetIx t o n = targetIx s o n := by rw [targetIx, targetIx, hshape.activeBank]
  have hsource : sourceIx t o n = sourceIx s o n := by rw [sourceIx, sourceIx, hshape.activeBank]
  have hread : loadWord t .pmap (sourceIx s o n) = loadWord s .pmap (sourceIx s o n) :=
    hother _ fun i hi => sourceIx_ne_targetIx s o (Nat.lt_trans hi hn) hn
  rw [htarget] at eother
  rw [EntryDone, htarget, hsource, hread] at edone
  refine ⟨hshape.trans eshape, fun j hj => ?_, fun i hi => ?_⟩
  · exact (eother j (hj n n.lt_succ_self)).trans (hother j fun i hi => hj i (Nat.lt_trans hi n.lt_succ_self))
  · rcases Nat.lt_succ_iff_lt_or_eq.mp hi with hi | rfl
    · rw [EntryDone, eother (targetIx s o i) (pmapIx_ne_entry _ _ (Nat.ne_of_gt hi))]
      exact hdone i hi
    · exact edone

theorem pmapApply_fills (s : State) (o : PmapOp) : ∀ n ≤ 4096, PmapFilled o n s (pmapApply s o n)
  | 0, _ => ⟨.refl s, fun _ _ => rfl, fun _ hi => absurd hi (Nat.not_lt_zero _)⟩
  | n + 1, h => pmapApply_succ s o h ▸ (pmapApply_fills s o n (Nat.le_of_succ_le h)).succ h

/-! ### Commands (R281, R291 to R293) -/

/-- The word of PMAP.CMD that asks for operation `op` on slot `n`. -/
def pmapWord (op n : Nat) : Word := wd (2 ^ 31 + op * 256 + n % 64)

/-- The work of operation `op` on slot `n`. -/
def pmapRun (op n : Nat) (s : State) : State :=
  match op with
  | 0 => doPmapSwap n s
  | 1 => doPmapStart true n s
  | 2 => doPmapStart false n s
  | _ => doPmapReserved n s

/-- A command leaves its code and slot in CMD_RESULT, no other register changed, and the maps as they were; an operation under way is
the last command no more. -/
def PmapReports (n c : Nat) (s t : State) : Prop :=
  (rg t .pmapCmdResult).toNat = c + 256 * n ∧ RegsKept [(.pmapCmdResult, 0)] s t ∧
    t.pmapOp = s.pmapOp.map (fun o => { o with last := false }) ∧ t.pmaps = s.pmaps

/-- The word of SLOT.STAT at epoch `e`: the epoch, its bank. -/
def epochWord (e : Nat) : Word := BitVec.ofNat 32 (e * 65536 + e % 2)

theorem epochWord_epoch {e : Nat} (h : e < 65536) : fld (epochWord e) 31 16 = e := by
  rw [epochWord, fld_ofNat (by omega)]
  have hbank := Nat.mod_lt e Nat.two_pos
  change (e * 65536 + e % 2) / 65536 % 65536 = e
  generalize e % 2 = b at hbank
  omega

section
variable {op n c : Nat}

theorem pmapWord_fields (hop : op < 4) (hn : n < 64) :
    bitOf (pmapWord op n) 31 = true ∧ fld (pmapWord op n) 9 8 = op ∧ fld (pmapWord op n) 5 0 = n := by
  have hlt : 2 ^ 31 + op * 256 + n % 64 < 2 ^ 32 := by omega
  refine ⟨?_, (fld_ofNat hlt 9 8).trans (by omega), (fld_ofNat hlt 5 0).trans (by omega)⟩
  rw [pmapWord, wd, bitOf, BitVec.getLsbD, BitVec.toNat_ofNat, Nat.mod_eq_of_lt hlt, Nat.testBit_eq_decide_div_mod_eq]
  exact decide_eq_true (by omega)

theorem rg_pmapResult (s : State) (hn : n < 64) (hc : c < 256) : (rg (pmapResult s n c) .pmapCmdResult).toNat = c + 256 * n := by
  rw [pmapResult, rg_setRg_same, BitVec.toNat_ofNat, Nat.mod_eq_of_lt (by omega)]

theorem RegsKept.pmapResult (s : State) (n c : Nat) : RegsKept [(.pmapCmdResult, 0)] s (pmapResult s n c) :=
  (RegsKept.of_regs [] rfl).trans (.setRg { s with pmapOp := s.pmapOp.map fun o => { o with last := false } } _ _ _)

section
variable (s : State)

/-- Every operation is refused while the inactive bank is pinned (R292). -/
theorem pmapRun_pinned (op : Nat) (h : pinsOld s n ≠ 0) : pmapRun op n s = pmapResult s n 1 := by
  unfold pmapRun
  split <;> exact if_pos h

theorem doPmapSwap_busy (h : pinsOld s n = 0) (hbusy : pmapBusy s n = true) : doPmapSwap n s = pmapResult s n 2 :=
  (if_neg (not_not_intro h)).trans (if_pos hbusy)

theorem doPmapSwap_swaps (h : pinsOld s n = 0) (hidle : pmapBusy s n = false) :
    doPmapSwap n s = pmapResult (setRg s .pmapSlotStat n (epochWord ((epochOf s n + 1) % 65536))) n 0 :=
  (if_neg (not_not_intro h)).trans (if_neg (by simp [hidle]))

theorem doPmapStart_busy (copy : Bool) (h : pinsOld s n = 0) (hop : s.pmapOp ≠ none) : doPmapStart copy n s = pmapResult s n 2 :=
  (if_neg (not_not_intro h)).trans (if_pos (Option.isSome_iff_ne_none.mpr hop))

theorem doPmapStart_starts (copy : Bool) (h : pinsOld s n = 0) (hop : s.pmapOp = none) : doPmapStart copy n s =
    { pmapResult s n 4 with pmapOp := some ⟨copy, n, s.clk + (if copy then 2048 else 256), true⟩ } :=
  (if_neg (not_not_intro h)).trans (if_neg (by simp [hop]))

theorem doPmapReserved_refused (h : pinsOld s n = 0) : doPmapReserved n s = pmapResult s n 3 := if_neg (not_not_intro h)

end

/-- The epoch moves on by one; no register but the slot's STAT and CMD_RESULT changes. -/
theorem doPmapSwap_does {s : State} (hn : n < 64) (h : pinsOld s n = 0) (hidle : pmapBusy s n = false) :
    epochOf (doPmapSwap n s) n = (epochOf s n + 1) % 65536 ∧
      RegsKept [(.pmapCmdResult, 0), (.pmapSlotStat, n)] s (doPmapSwap n s) := by
  have hne : RegId.pmapCmdResult.key 0 ≠ RegId.pmapSlotStat.key n := RegId.key_ne (by omega) (by omega) (.inl nofun)
  rw [doPmapSwap_swaps s h hidle]
  refine ⟨?_, ((RegsKept.setRg s .pmapSlotStat n _).trans (.pmapResult _ n 0)).mono (by simp)⟩
  rw [epochOf, rf, pmapResult, rg_setRg_other _ _ hne]
  exact (congrArg (fld · 31 16) (rg_setRg_same s .pmapSlotStat n _)).trans (epochWord_epoch (Nat.mod_lt _ (by decide)))

theorem activeBank_swapped {s t : State} (h : epochOf t n = (epochOf s n + 1) % 65536) : activeBank t n = 1 - activeBank s n := by
  unfold activeBank
  omega

theorem writeReg_pmapCmd (w : Who) {v : Word} {s : State} (hsafe : s.safe = false) (hgo : bitOf v 31 = true) :
    writeReg w .pmapCmd 0 v s = ok w (pmapRun (fld v 9 8) (fld v 5 0) s) := by
  have hcommand : pmapCommand v s = pmapRun (fld v 9 8) (fld v 5 0) s := by
    unfold pmapCommand pmapRun
    generalize fld v 9 8 = op
    obtain _ | _ | _ | _ := op <;> rfl
  exact (if_neg (by simp [writeRefused, hsafe])).trans (congrArg (ok w) ((if_pos hgo).trans hcommand))

/-- An accepted command leaves the registers, the operation and the maps of its work. -/
theorem pmapCmd_runs {s : State} {w : Who} (hs : Running s) (hsafe : s.safe = false) (hw : FullView w) (hg : Granted s w)
    (hop : op < 4) (hn : n < 64) :
    let u := pmapRun op n (acting s (s.clk + 1))
    ∃ t, steady s (ctlWrite w .pmapCmd 0 (pmapWord op n)) = .next t ∧ t.regs = u.regs ∧ t.pmapOp = u.pmapOp ∧ t.pmaps = u.pmaps := by
  obtain ⟨hgo, hcode, hslot⟩ := pmapWord_fields hop hn
  have hwrite := writeReg_pmapCmd w (s := acting s (s.clk + 1)) hsafe hgo
  rw [hcode, hslot] at hwrite
  have hdo := ctlWrite_does hs hw hg (id := .pmapCmd) (i := 0) (by decide) (by decide) hwrite
  exact ⟨_, steady_eq _ hs.1, (congrArg State.regs hdo :), (congrArg State.pmapOp hdo :), (congrArg State.pmaps hdo :)⟩

/-- An accepted command that only answers reports its code. -/
theorem pmapCmd_reports {s : State} {w : Who} (hs : Running s) (hsafe : s.safe = false) (hw : FullView w) (hg : Granted s w)
    (hop : op < 4) (hn : n < 64) (hc : c < 256)
    (h : pmapRun op n (acting s (s.clk + 1)) = pmapResult (acting s (s.clk + 1)) n c) :
    ∃ t, steady s (ctlWrite w .pmapCmd 0 (pmapWord op n)) = .next t ∧ PmapReports n c s t := by
  obtain ⟨t, ht, hregs, hpop, hmaps⟩ := pmapCmd_runs hs hsafe hw hg hop hn
  rw [h] at hregs hpop hmaps
  exact ⟨t, ht, (congrArg BitVec.toNat (rg_congr hregs _ _)).trans (rg_pmapResult _ hn hc),
    (RegsKept.pmapResult (acting s (s.clk + 1)) n c).of_acting hregs, hpop, hmaps⟩

/-- An accepted COPY or CLEAR is under way for its time. -/
theorem pmapCmd_starts {s : State} {w : Who} (hs : Running s) (hsafe : s.safe = false) (hw : FullView w) (hg : Granted s w)
    (hn : n < 64) (copy : Bool) (hpins : pinsOld s n = 0) (hidle : s.pmapOp = none) :
    ∃ t, steady s (ctlWrite w .pmapCmd 0 (pmapWord (if copy then 1 else 2) n)) = .next t ∧
      t.pmapOp = some ⟨copy, n, s.clk + (if copy then 2048 else 256), true⟩ ∧
      (rg t .pmapCmdResult).toNat = 4 + 256 * n ∧ RegsKept [(.pmapCmdResult, 0)] s t := by
  have hrun : pmapRun (if copy then 1 else 2) n (acting s (s.clk + 1)) = doPmapStart copy n (acting s (s.clk + 1)) := by
    cases copy <;> rfl
  obtain ⟨t, ht, hregs, hpop, -⟩ := pmapCmd_runs (op := if copy then 1 else 2) hs hsafe hw hg (by split <;> omega) hn
  rw [hrun, doPmapStart_starts (acting s (s.clk + 1)) copy hpins hidle] at hregs hpop
  exact ⟨t, ht, hpop, (congrArg BitVec.toNat (rg_congr hregs _ _)).trans (rg_pmapResult _ hn (by decide)),
    (RegsKept.pmapResult (acting s (s.clk + 1)) n 4).of_acting hregs⟩

end

/-! ### The end of a COPY or CLEAR (R291, R294, R300) -/

theorem pmapRelease_idle {s : State} (h : s.pmapHeld = []) : pmapRelease s = s := by
  unfold pmapRelease
  rw [h, List.foldl_nil, ← h]

/-- With no access held the end shows the result of the last command. -/
theorem doPmapDone_ends {s : State} {o : PmapOp} (ho : s.pmapOp = some o) (hdue : o.done ≤ s.clk) (hheld : s.pmapHeld = []) :
    doPmapDone s = (if o.last then pmapResult (pmapApply { s with pmapOp := none } o 4096) o.slot 0
      else pmapApply { s with pmapOp := none } o 4096) := by
  have hdo : doPmapDone s = pmapEnds s o 4096 := by
    rw [doPmapDone, ho]
    exact if_pos hdue
  obtain ⟨⟨p, u, hshape⟩, -, -⟩ := pmapApply_fills { s with pmapOp := none } o 4096 (Nat.le_refl _)
  rw [hdo, pmapEnds, hshape]
  refine pmapRelease_idle ?_
  split <;> exact hheld

/-- The end leaves the operation's work in the maps; of the registers CMD_RESULT shows it while it is the last command. -/
theorem doPmapDone_does {s : State} {o : PmapOp} (ho : s.pmapOp = some o) (hdue : o.done ≤ s.clk) (hheld : s.pmapHeld = [])
    (hslot : o.slot < 64) : (doPmapDone s).pmapOp = none ∧
      (∀ j, loadWord (doPmapDone s) .pmap j = loadWord (pmapApply { s with pmapOp := none } o 4096) .pmap j) ∧
      RegsKept [(.pmapCmdResult, 0)] s (doPmapDone s) ∧
      (o.last = true → (rg (doPmapDone s) .pmapCmdResult).toNat = 256 * o.slot) ∧
      (o.last = false → RegsKept [] s (doPmapDone s)) := by
  obtain ⟨⟨p, u, hshape⟩, -, -⟩ := pmapApply_fills { s with pmapOp := none } o 4096 (Nat.le_refl _)
  rw [doPmapDone_ends ho hdue hheld, hshape]
  cases o.last with
  | true => exact ⟨rfl, fun _ => rfl, .pmapResult { s with pmapOp := none, pmaps := p, upsOther := u } _ _,
      fun _ => (rg_pmapResult _ hslot (by decide)).trans (Nat.zero_add _), nofun⟩
  | false => exact ⟨rfl, fun _ => rfl, .of_regs _ rfl, nofun, fun _ => .of_regs _ rfl⟩

/-! ### The inactive window (R280, R294) -/

theorem writeReg_pmapInactEnt (w : Who) {n i : Nat} (hi : i < 4096) (v : Word) (s : State) :
    writeReg w .pmapInactEnt (n * 4096 + i) v s = doInactWrite w n i v s := by
  have hslot : (n * 4096 + i) / 4096 = n := by omega
  have hentry : (n * 4096 + i) % 4096 = i := by omega
  refine (if_neg (by simp [writeRefused, starts])).trans ?_
  dsimp only
  rw [hslot, hentry]

/-- An accepted write of the window does its work, and its answer completes after the time of its page. -/
theorem inactWrite_runs {s u : State} {w : Who} {n i : Nat} {v : Word} (hs : Running s) (hw : FullView w) (hg : Granted s w)
    (hn : n < 64) (hi : i < 4096) (h : doInactWrite w n i v (acting s (s.clk + 1)) = u) :
    ∃ t, exec (.inactWrite w n i v) s = .next t ∧ t.regs = u.regs ∧ t.pmaps = u.pmaps ∧ t.upsOther = u.upsOther ∧
      t.pmapHeld = u.pmapHeld ∧
      t.answers = s.answers ++ u.answers.map (stampWrite s (RegId.pmapInactEnt.offset (n * 4096 + i))) := by
  have hsize : n * 4096 + i < RegId.pmapInactEnt.size := by
    have : RegId.pmapInactEnt.size = 262144 := by decide
    omega
  have hdo := ctlWrite_running hs hw hg hsize v (.inr (by decide))
  rw [timed_write, writeReg_pmapInactEnt w hi, h] at hdo
  have hexec : exec (.inactWrite w n i v) s = steady s (ctlWrite w .pmapInactEnt (n * 4096 + i) v) :=
    congrArg (fun k => steady s (ctlWrite w .pmapInactEnt k v)) (if_pos hi)
  exact ⟨_, hexec.trans (steady_eq _ hs.1), (congrArg State.regs hdo :), (congrArg State.pmaps hdo :),
    (congrArg State.upsOther hdo :), (congrArg State.pmapHeld hdo :), (congrArg State.answers hdo :)⟩

/-! ### The limit of an epoch wait (R290) -/

theorem EventShape.ctx {s t : State} (h : EventShape s t) (a k : Nat) : t.ctx a k = s.ctx a k := by
  obtain ⟨_, _, _, _, rfl⟩ := h
  rfl

/-- A wait as long as the limit is told, once, in the control fault unit. -/
theorem doEpochLimit_reached {a k slot e : Nat} {s : State} (hwait : (s.ctx a k).ewait = some (slot, e, false))
    (hset : rf s .pmapCtrl 0 15 0 ≠ 0) (hlate : rf s .pmapCtrl 0 15 0 * 1024 * 12 ≤ s.clk - e) : doEpochLimit a k s =
      raise (s.setCtx a k { s.ctx a k with ewait := some (slot, e, true) }) fuCtrl 3 slot 0 (some (s.ctx a k).task) := by
  unfold doEpochLimit
  dsimp only
  rw [hwait]
  exact if_pos (by simp [hset, hlate])

/-! ### The statement -/

/-- Settles O50: each command is one accepted write of PMAP.CMD; a COPY or CLEAR fills its bank by induction over the entries. -/
theorem pageMapsChange : Obligations.PageMapsChange := by
  unfold Obligations.PageMapsChange
  refine ⟨?commands, ?done, ?window, ?limit⟩
  case commands =>
    intro w n s hs hsafe hw hg hn reports
    have hreports : ∀ op c, op < 4 → c < 256 →
        pmapRun op n (acting s (s.clk + 1)) = pmapResult (acting s (s.clk + 1)) n c →
        ∃ t, steady s (ctlWrite w .pmapCmd 0 (pmapWord op n)) = .next t ∧ PmapReports n c s t := fun _ _ hop hc h =>
      pmapCmd_reports hs hsafe hw hg hop hn hc h
    refine ⟨fun hpins => ?pinned, fun hpins => ⟨fun hbusy => ?swapBusy, fun hidle => ?swap, fun hany => ?startBusy, fun hnone => ?start,
      ?reserved⟩⟩
    case pinned =>
      have hall : ∀ op < 4, ∃ t, steady s (ctlWrite w .pmapCmd 0 (pmapWord op n)) = .next t ∧ PmapReports n 1 s t := fun op hop =>
        hreports op 1 hop (by decide) (pmapRun_pinned _ op hpins)
      exact ⟨hall 0 (by decide), hall 1 (by decide), hall 2 (by decide), hall 3 (by decide)⟩
    case swapBusy => exact hreports 0 2 (by decide) (by decide) (doPmapSwap_busy _ hpins hbusy)
    case swap =>
      obtain ⟨t, ht, hregs, -, hmaps⟩ := pmapCmd_runs (op := 0) hs hsafe hw hg (by decide) hn
      obtain ⟨hepoch, hkept⟩ := doPmapSwap_does (s := acting s (s.clk + 1)) hn hpins hidle
      have hswapped : epochOf t n = (epochOf s n + 1) % 65536 := (congrArg (fld · 31 16) (rg_congr hregs _ _)).trans hepoch
      have hdo := doPmapSwap_swaps (acting s (s.clk + 1)) hpins hidle
      refine ⟨t, ht, hswapped, activeBank_swapped hswapped, ?_, hmaps.trans (congrArg State.pmaps hdo :), hkept.of_acting hregs⟩
      rw [rg_congr (hregs.trans (congrArg State.regs hdo)), rg_pmapResult _ hn (by decide), Nat.zero_add]
    case startBusy =>
      exact ⟨hreports 1 2 (by decide) (by decide) (doPmapStart_busy _ true hpins hany),
        hreports 2 2 (by decide) (by decide) (doPmapStart_busy _ false hpins hany)⟩
    case start =>
      exact ⟨pmapCmd_starts hs hsafe hw hg hn true hpins hnone, pmapCmd_starts hs hsafe hw hg hn false hpins hnone⟩
    case reserved => exact hreports 3 3 (by decide) (by decide) (doPmapReserved_refused _ hpins)
  case done =>
    intro o s hs ho hdue hheld hslot b
    obtain ⟨hnone, hmaps, hregs, hlast, hearlier⟩ := doPmapDone_does ho hdue hheld hslot
    obtain ⟨-, hother, hfilled⟩ := pmapApply_fills { s with pmapOp := none } o 4096 (Nat.le_refl _)
    refine ⟨_, steady_eq _ hs, hnone, hregs, hlast, hearlier, fun i hi => ?_, fun n c i hn hc hi hne => ?_⟩
    · obtain ⟨hclear, hcopy⟩ := hfilled i hi
      exact ⟨fun h => (hmaps _).trans (hclear h), fun h hue => (hmaps _).trans (hcopy h hue)⟩
    · have htarget : 1 - activeBank s o.slot < 2 := by omega
      exact (hmaps _).trans (hother _ fun j hj => pmapIx_ne htarget hc hj hi hne.symm)
  case window =>
    intro w n i v s hs hw hg hn hi dt
    refine ⟨fun hbusy => ?held, fun hidle hpins => ?pinned, fun hidle hpins => ?written⟩
    case held =>
      obtain ⟨t, ht, hregs, hmaps, -, hheld, hans⟩ := inactWrite_runs hs hw hg hn hi (v := v) (if_pos hbusy)
      exact ⟨t, ht, hheld, hmaps, hans.trans (List.append_nil _), .of_regs [] hregs⟩
    case pinned =>
      obtain ⟨t, ht, hregs, hmaps, -, -, hans⟩ := inactWrite_runs hs hw hg hn hi (v := v)
        ((if_neg (ne_true_of_eq_false hidle)).trans (if_pos hpins))
      obtain ⟨r, a, hshape⟩ := answerWith_shape (bump (acting s (s.clk + 1)) .pmapStat 0 31 16) w 0 true
      have hcount := RegsKept.answerWith (bump (acting s (s.clk + 1)) .pmapStat 0 31 16) w 0 true .pmapStat 0 (by decide)
        (List.forall_mem_singleton.mpr (RegId.key_ne (by decide) (by decide) (.inl (by decide))))
      rw [answerWith_answers] at hans
      refine ⟨t, ht, ⟨_, _, hans⟩, hmaps.trans (congrArg State.pmaps hshape :), ?_⟩
      rw [rf, rg_congr hregs, hcount]
      exact rf_bump_same _ _ _ _ _ _ (by decide) (by decide)
    case written =>
      obtain ⟨t, ht, hregs, hmaps, hups, -, hans⟩ := inactWrite_runs hs hw hg hn hi (v := v)
        ((if_neg (ne_true_of_eq_false hidle)).trans ((if_neg (not_not_intro hpins)).trans (answerWith_ok _ _ _ _ (.inl rfl))))
      refine ⟨t, ht, ⟨_, _, hans⟩, ?_, .of_regs [] hregs⟩
      exact (loadWord_pmap_congr hmaps hups _).trans ((loadWord_storeWord_pmap _ _ _ _).trans (if_pos rfl))
  case limit =>
    intro a k slot e s hs hwait hset hlate
    have hdo := doEpochLimit_reached hwait hset hlate
    have hctx := (EventShape.raise (s.setCtx a k { s.ctx a k with ewait := some (slot, e, true) }) fuCtrl 3 slot 0
      (some (s.ctx a k).task) false).ctx a k
    refine ⟨_, steady_eq _ hs, ?_, ?_⟩
    · exact (congrArg (fun u : State => (u.ctx a k).ewait) hdo).trans
        ((congrArg Ctx.ewait hctx).trans (congrArg Ctx.ewait (ctx_setCtx_same s a k _)))
    · rw [calm_rg, hdo]
      exact raise_sets _ _ _ _ _ (by decide) (by decide)

end Sys2Proof.Machine
end

section
/-! Seeds and counters of Changers and Tally units, records and their reads (R321, R338, R350 to R352, R355): what a seed loads, what a
clear of counters clears, which words a record's write leaves, what a vector engine reads. -/

namespace Sys2Proof.Machine

/-! ### Seeds (R321) -/

theorem writeReg_chgSrSeed (w : Who) (x : Nat) (v : Word) (s : State) : writeReg w .chgSrSeed x v s = ok w (doSrSeed x v s) :=
  if_neg (by simp [writeRefused, starts])

/-- A seed stands in its register and, with 1 for 0, in the LFSR; no other register is written. -/
theorem doSrSeed_loads (x : Nat) (v : Word) (s : State) (hx : x < 32) : rg (doSrSeed x v s) .chgSrSeed x = v ∧
    rg (doSrSeed x v s) .chgSrState x = (if v = 0 then 1 else v) ∧
    RegsKept [(.chgSrSeed, x), (.chgSrState, x)] s (doSrSeed x v s) := by
  have hapart : RegId.chgSrState.key x ≠ RegId.chgSrSeed.key x := RegId.key_ne (by omega) (by omega) (.inl nofun)
  exact ⟨(rg_setRg_other _ _ hapart).trans (rg_setRg_same _ _ _ _), rg_setRg_same _ _ _ _,
    (RegsKept.setRg s .chgSrSeed x v).trans (.setRg _ .chgSrState x _)⟩

/-! ### Counter clears (R338, R355) -/

/-- Register `x` of each family of a list cleared, in turn. -/
def clearRegs (l : List RegId) (x : Nat) (s : State) : State := l.foldl (fun s id => setRg s id x 0) s

/-- The counters of a Changer, SENT_LAST among them. -/
def changerCounters : List RegId := [.chgQBlocks, .chgQSat, .chgQFlush, .chgQEsc, .chgQRefused, .chgQNan, .chgQMaxerr, .chgREsc,
  .chgRRetry, .chgRSat, .chgSentCnt, .chgSentLast, .chgFmtFaults]

/-- The counters that a clear of a Tally unit reaches. -/
def tallyClearedCounters : List RegId := [.tallyRows, .tallyClamps, .tallyParts, .tallyIgnored, .tallyEcc]

theorem doChangerClr_eq (x : Nat) (s : State) : doChangerClr x s = clearRegs changerCounters x s := rfl

theorem doTallyClr_eq (x : Nat) (s : State) : doTallyClr x s = clearRegs tallyClearedCounters x s := rfl

/-- Every register of the list reads 0 after the clear: its own step clears it, and no step sets it. -/
theorem rg_clearRegs {l : List RegId} {x : Nat} (hx : x < 1048576) {id : RegId} (hid : id ∈ l) (s : State) :
    rg (clearRegs l x s) id x = 0 := by
  refine foldl_reaches (P := fun u => rg u id x = 0) hid (fun u => rg_setRg_same u id x 0) (fun u c hzero => ?_) s
  by_cases hc : c = id
  · exact hc ▸ rg_setRg_same u c x 0
  · exact (rg_setRg_other u 0 (RegId.key_ne hx hx (.inl hc))).trans hzero

/-- No register outside the list is written. -/
theorem RegsKept.clearRegs (x : Nat) : ∀ (l : List RegId) (s : State), RegsKept (l.map fun id => (id, x)) s (clearRegs l x s)
  | [], s => .refl _ s
  | id :: l, s => (RegsKept.setRg s id x 0).trans (clearRegs x l (Machine.setRg s id x 0))

/-- The word of a clear command: GO alone. -/
def clearWord : Word := wd (2 ^ 31)

theorem clearWord_go : bitOf clearWord 31 = true := by decide

theorem writeReg_chgCntClr (w : Who) (x : Nat) (s : State) :
    writeReg w .chgCntClr x clearWord s = ok w (clearRegs changerCounters x s) := by
  rw [← doChangerClr_eq]
  refine (if_neg (by simp [writeRefused, starts])).trans (congrArg (ok w) ?_)
  exact if_pos (e := s) clearWord_go

theorem writeReg_tallyCntClr (w : Who) (x : Nat) (s : State) :
    writeReg w .tallyCntClr x clearWord s = ok w (clearRegs tallyClearedCounters x s) := by
  rw [← doTallyClr_eq]
  refine (if_neg (by simp [writeRefused, starts])).trans (congrArg (ok w) ?_)
  exact if_pos (e := s) clearWord_go

/-- An accepted clear command clears its counters and no other register. -/
theorem clearCommand_runs {s : State} {w : Who} (hs : Running s) (hw : FullView w) (hg : Granted s w) {id : RegId} {x : Nat}
    {l : List RegId} (hx : x < id.size) (hlt : x < 1048576) (hb : id ∉ [.sboxData, .sboxSet, .sboxClr])
    (hwrite : writeReg w id x clearWord (acting s (s.clk + 1)) = ok w (clearRegs l x (acting s (s.clk + 1)))) :
    ∃ t, steady s (ctlWrite w id x clearWord) = .next t ∧ (∀ id ∈ l, rg t id x = 0) ∧ RegsKept (l.map fun id => (id, x)) s t := by
  obtain ⟨hregs, -⟩ := ctlWrite_leaves hs hw hg hx hb hwrite
  exact ⟨_, steady_eq _ hs.1, fun _ hid => (rg_congr hregs _ _).trans (rg_clearRegs hlt hid _),
    (RegsKept.clearRegs x l _).of_acting hregs⟩

/-! ### Records (R350, R351) -/

theorem loadWord_storeWord_tally (s : State) (i j : Nat) (v : Word) :
    loadWord (storeWord s .tally i v) .tally j = if i = j then ⟨v, false, false⟩ else loadWord s .tally j :=
  loadWord_storeWord s .tally i j v (by decide) (by decide)

/-- The last word of a record is written after those before it. -/
theorem writeRecord_append (s : State) (x : Nat) (due : Option Nat) (i : Nat) (ws : List Word) (v : Word) :
    writeRecord s x ⟨due, i, ws ++ [v]⟩ = storeWord (writeRecord s x ⟨due, i, ws⟩) .tally (tallyWord x i ws.length) v := by
  simp [writeRecord, List.range_succ, List.zip_append]

/-- A record's write leaves each of its words in the unit's buffer, with fresh check bits: by induction over the words, the last one
at an address of its own. -/
theorem loadWord_writeRecord (s : State) (x : Nat) (due : Option Nat) (i : Nat) (ws : List Word) {j : Nat} {v : Word}
    (h : ws[j]? = some v) : loadWord (writeRecord s x ⟨due, i, ws⟩) .tally (tallyWord x i j) = ⟨v, false, false⟩ := by
  obtain ⟨rs, rfl⟩ : ∃ rs, ws = List.reverse rs := ⟨ws.reverse, ws.reverse_reverse.symm⟩
  induction rs with
  | nil => exact absurd h nofun
  | cons w rs ih =>
    rw [List.reverse_cons] at h ⊢
    rw [writeRecord_append, loadWord_storeWord_tally]
    by_cases hj : j = rs.reverse.length
    · have hv : w = v := Option.some.inj ((List.getElem?_concat_length ..).symm.trans (hj ▸ h))
      rw [if_pos (hj ▸ rfl), hv]
    · have hapart : tallyWord x i rs.reverse.length ≠ tallyWord x i j := by unfold tallyWord; omega
      rw [if_neg hapart]
      have hlt : j < (rs.reverse ++ [w]).length := (List.getElem?_eq_some_iff.mp h).1
      rw [List.length_append, List.length_singleton] at hlt
      exact ih (by rwa [List.getElem?_append_left (by omega)] at h)

/-- A record's write reaches neither the units' rows nor a register. -/
theorem writeRecord_keeps (s : State) (x : Nat) (p : TallyPend) :
    (writeRecord s x p).tallies = s.tallies ∧ (writeRecord s x p).regs = s.regs :=
  Prod.mk.inj (foldl_keeps (fun u : State => (u.tallies, u.regs))
    (f := fun u (e : Nat × Word) => storeWord u .tally (tallyWord x p.index e.1) e.2) (fun _ _ => rfl) _ s)

/-- A record's edge has come. -/
def pendDue (s : State) (p : TallyPend) : Bool := match p.due with | some d => decide (d ≤ s.run) | none => false

/-- The records due are off the unit's list. -/
def recordsLeft (s : State) (x : Nat) : State :=
  s.setTally x { s.tally x with pend := (s.tally x).pend.filter fun p => !pendDue s p }

theorem doTallyWrite_eq (x : Nat) (s : State) : doTallyWrite x s =
    ((s.tally x).pend.filter (pendDue s)).foldl (fun s p => writeRecord s x p) (recordsLeft s x) := rfl

/-- The records due leave the unit, and no register is written. -/
theorem doTallyWrite_keeps (x : Nat) (s : State) :
    ((doTallyWrite x s).tally x).pend = ((s.tally x).pend.filter fun p => !pendDue s p) ∧ (doTallyWrite x s).regs = s.regs := by
  obtain ⟨htallies, hregs⟩ := Prod.mk.inj (foldl_keeps (fun u : State => (u.tallies, u.regs))
    (fun u p => Prod.ext (writeRecord_keeps u x p).1 (writeRecord_keeps u x p).2) ((s.tally x).pend.filter (pendDue s))
    (recordsLeft s x))
  rw [doTallyWrite_eq]
  refine ⟨?_, hregs⟩
  have hunit := congrArg (fun t => (Tab.get (fun _ => freshTally) t x).pend) htallies
  exact hunit.trans (congrArg Tally.pend (tally_setTally_same s x _))

/-- Of the records due the last one is written last, so that all its words stand. -/
theorem doTallyWrite_last {x : Nat} {s : State} {p : TallyPend} (h : ((s.tally x).pend.filter (pendDue s)).getLast? = some p)
    {j : Nat} {v : Word} (hv : p.words[j]? = some v) :
    loadWord (doTallyWrite x s) .tally (tallyWord x p.index j) = ⟨v, false, false⟩ := by
  obtain ⟨before, hsplit⟩ := List.getLast?_eq_some_iff.mp h
  rw [doTallyWrite_eq, hsplit, List.foldl_append]
  exact loadWord_writeRecord _ x p.due p.index p.words hv

/-! ### Reads of a vector engine (R352) -/

/-- What a read finds reaches an event's parts alone. -/
theorem EventShape.countTally (s : State) (x ce ue loc : Nat) : EventShape s (countTally s x ce ue loc) := by
  have hcount := (EventShape.bump s .tallyEcc x 15 0 ce).trans (.bump _ .tallyEcc x 31 16 ue)
  unfold Machine.countTally
  dsimp only
  split
  · exact hcount
  · exact hcount.trans (.raise _ _ _ _ _ _ _)

/-- Where no word is uncorrectable only the unit's error counter is written. -/
theorem RegsKept.countTally (s : State) (x ce loc : Nat) : RegsKept [(.tallyEcc, x)] s (countTally s x ce 0 loc) :=
  ((RegsKept.bump s .tallyEcc x 15 0 ce).trans (.bump _ .tallyEcc x 31 16 0)).mono (by simp)

/-- The unit that a vector engine selects. -/
def tallyUnit (g : Nat) (sel : Bool) : Nat := if sel then 16 + g else g

/-- The words of sixteen records from `idx` on. -/
def recordSpan (x idx : Nat) : List Nat := (List.range 128).map fun j => tallyWord x (idx + j / 8) (j % 8)

/-- What a vector engine is driven: the records, or zeros and status 0x7 where a word is uncorrectable. -/
def tallyDriven (s : State) (ue : Nat) (ws : List Word) : SatOut :=
  ⟨s.run + 2, [if ue = 0 then 0 else 7], if ue = 0 then wordsToRows 8 ws else List.replicate 8 0⟩

/-- The findings counted, the unit's edge noted and the port driven. -/
def tallyServed (s : State) (g x : Nat) (ws : List Word) (ce ue loc : Nat) : State :=
  let u := countTally s x ce ue loc
  { setLast u (lastTallyV x) with tallyOut := Tab.set (fun _ => ⟨0, [], []⟩) u.tallyOut g (tallyDriven s ue ws) }

section
variable {s : State} {g idx ce ue loc : Nat} {sel : Bool} {ws : List Word}

theorem doTallyRead_sampled (hready : slotReady s (16 + g) = true) (hsamp : sampling s = true)
    (hread : readTally s (recordSpan (tallyUnit g sel) idx) = (ws, ce, ue, loc)) :
    doTallyRead g sel idx s = tallyServed s g (tallyUnit g sel) ws ce ue loc := by
  simp only [tallyUnit, recordSpan] at hread
  unfold doTallyRead
  rw [if_neg (by simp [hready, hsamp])]
  dsimp only
  rw [hread]
  rfl

/-- A sampled read drives the port and leaves the tally buffers. -/
theorem doTallyRead_drives (hready : slotReady s (16 + g) = true) (hsamp : sampling s = true)
    (hread : readTally s (recordSpan (tallyUnit g sel) idx) = (ws, ce, ue, loc)) :
    (doTallyRead g sel idx s).tallyMem = s.tallyMem ∧
      Tab.get (fun _ => ⟨0, [], []⟩) (doTallyRead g sel idx s).tallyOut g = tallyDriven s ue ws := by
  obtain ⟨r, f, w, a, hshape⟩ := EventShape.countTally s (tallyUnit g sel) ce ue loc
  rw [doTallyRead_sampled hready hsamp hread]
  exact ⟨(congrArg State.tallyMem hshape :), Tab.get_set_same (fun _ => ⟨0, [], []⟩) _ g (tallyDriven s ue ws)⟩

/-- A sampled read that finds no uncorrectable word writes the unit's error counter alone. -/
theorem RegsKept.doTallyRead (hready : slotReady s (16 + g) = true) (hsamp : sampling s = true)
    (hread : readTally s (recordSpan (tallyUnit g sel) idx) = (ws, ce, 0, loc)) :
    RegsKept [(.tallyEcc, tallyUnit g sel)] s (doTallyRead g sel idx s) := by
  rw [doTallyRead_sampled hready hsamp hread]
  exact .countTally s (tallyUnit g sel) ce loc

end

/-! ### The statement -/

/-- Settles O51: seeds and clears are accepted writes of one register, a record's words are stored one after another, and a read's
findings are an event. -/
theorem changerAndTallyCommands : Obligations.ChangerAndTallyCommands := by
  unfold Obligations.ChangerAndTallyCommands
  refine ⟨fun w x v s hs hw hg hx => ⟨?seed, ?changer, ?tally⟩, ?record, ?read⟩
  case seed =>
    obtain ⟨hregs, -⟩ := ctlWrite_leaves hs hw hg hx (by decide) (writeReg_chgSrSeed w x v (acting s (s.clk + 1)))
    obtain ⟨hseed, hlfsr, hkept⟩ := doSrSeed_loads x v (acting s (s.clk + 1)) hx
    exact ⟨_, steady_eq _ hs.1, (rg_congr hregs _ _).trans hseed, (rg_congr hregs _ _).trans hlfsr, hkept.of_acting hregs⟩
  case changer => exact clearCommand_runs hs hw hg hx (by omega) (by decide) (writeReg_chgCntClr w x _)
  case tally => exact clearCommand_runs hs hw hg hx (by omega) (by decide) (writeReg_tallyCntClr w x _)
  case record =>
    intro x p s hs due hlast _
    obtain ⟨hpend, hregs⟩ := doTallyWrite_keeps x s
    exact ⟨_, steady_eq _ hs, hpend, fun j v hv => doTallyWrite_last hlast hv, .of_regs [] hregs⟩
  case read =>
    intro g idx ce ue loc sel ws s hs hready hsamp _ hread
    obtain ⟨hmem, hout⟩ := doTallyRead_drives hready hsamp hread
    exact ⟨_, steady_eq _ hs, hmem, hout, fun hue => RegsKept.doTallyRead hready hsamp (hue ▸ hread)⟩

end Sys2Proof.Machine
end

section
/-! Bells (R356, R374 to R381, R385, R389): the register commands that submit operations, reads of TKRES, and what an operation that
completes leaves of its bell, of TKRES, of the counters of refused rings and of a waiting context. -/

namespace Sys2Proof.Machine

/-! ### Submission (R375, R379 to R381) -/

/-- One more operation waits for its edge. -/
def withOp (s : State) (o : BellOp) : State := { s with bellOps := s.bellOps ++ [o] }

/-- The command has submitted `o`: no bell, no register and no answer changes. -/
def Submitted (o : BellOp) (s t : State) : Prop :=
  t.bellOps = s.bellOps ++ [o] ∧ t.bells = s.bells ∧ t.answers = s.answers ∧ RegsKept [] s t

/-- The word written to RING or TAKE, and the one written to INIT. -/
def tokenWord (b : Bool) (scope cnt : Nat) : Word := wd (2 ^ 31 + cnt % 256 + 256 * b2n b + scope % 4 * 512)
def bellInitWord (b : Bool) (cnt : Nat) : Word := wd (2 ^ 31 + cnt % 65536 + 65536 * b2n b)

theorem b2n_true : b2n true = 1 := rfl
theorem b2n_false : b2n false = 0 := rfl
theorem b2n_le_one (b : Bool) : b2n b ≤ 1 := by cases b <;> decide

theorem decide_b2n_eq_one (b : Bool) : decide (b2n b = 1) = b := by cases b <;> rfl

theorem bitOf_ofNat {n : Nat} (h : n < 2 ^ 32) (i : Nat) : bitOf (BitVec.ofNat 32 n) i = decide (n / 2 ^ i % 2 = 1) := by
  rw [bitOf, BitVec.getLsbD, BitVec.toNat_ofNat, Nat.mod_eq_of_lt h, Nat.testBit_eq_decide_div_mod_eq]

theorem tokenWord_fields (b : Bool) {scope cnt : Nat} (hscope : scope < 4) (hcnt : cnt < 256) :
    bitOf (tokenWord b scope cnt) 31 = true ∧ bitOf (tokenWord b scope cnt) 8 = b ∧ fld (tokenWord b scope cnt) 10 9 = scope ∧
      fld (tokenWord b scope cnt) 7 0 = cnt := by
  have hb := b2n_le_one b
  have hlt : 2 ^ 31 + cnt % 256 + 256 * b2n b + scope % 4 * 512 < 2 ^ 32 := by omega
  refine ⟨(bitOf_ofNat hlt 31).trans (decide_eq_true (by omega)), (bitOf_ofNat hlt 8).trans ?_,
    (fld_ofNat hlt 10 9).trans (by omega), (fld_ofNat hlt 7 0).trans (by omega)⟩
  have hbit : (2 ^ 31 + cnt % 256 + 256 * b2n b + scope % 4 * 512) / 2 ^ 8 % 2 = b2n b := by omega
  rw [hbit, decide_b2n_eq_one]

theorem bellInitWord_fields (b : Bool) {cnt : Nat} (hcnt : cnt < 65536) :
    bitOf (bellInitWord b cnt) 31 = true ∧ bitOf (bellInitWord b cnt) 16 = b ∧ fld (bellInitWord b cnt) 15 0 = cnt := by
  have hb := b2n_le_one b
  have hlt : 2 ^ 31 + cnt % 65536 + 65536 * b2n b < 2 ^ 32 := by omega
  refine ⟨(bitOf_ofNat hlt 31).trans (decide_eq_true (by omega)), (bitOf_ofNat hlt 16).trans ?_,
    (fld_ofNat hlt 15 0).trans (by omega)⟩
  have hbit : (2 ^ 31 + cnt % 65536 + 65536 * b2n b) / 2 ^ 16 % 2 = b2n b := by omega
  rw [hbit, decide_b2n_eq_one]

section
variable (w : Who) (n : Nat) (b : Bool) {scope cnt : Nat} (s : State)

theorem bellWrite_tokens (f : Who → Nat → Bool → Nat → Nat → State → State) (hscope : scope < 4) (hpos : 0 < cnt)
    (hcnt : cnt < 256) : bellWrite w n (tokenWord b scope cnt) f s = f w n b scope cnt s := by
  obtain ⟨hgo, hbell, hsc, htok⟩ := tokenWord_fields b hscope hcnt
  rw [bellWrite, hgo, hbell, hsc, htok]
  exact if_pos (by simp; omega)

theorem writeReg_bellRing (hscope : scope < 4) (hpos : 0 < cnt) (hcnt : cnt < 256) :
    writeReg w .bellRing n (tokenWord b scope cnt) s = doBellRing w n b scope cnt s :=
  (if_neg (by simp [writeRefused, starts])).trans (bellWrite_tokens w n b s doBellRing hscope hpos hcnt)

theorem writeReg_bellTake (hscope : scope < 4) (hpos : 0 < cnt) (hcnt : cnt < 256) :
    writeReg w .bellTake n (tokenWord b scope cnt) s = doBellTake w n b scope cnt s :=
  (if_neg (by simp [writeRefused, starts])).trans (bellWrite_tokens w n b s doBellTake hscope hpos hcnt)

theorem writeReg_bellInit (hcnt : cnt < 65536) :
    writeReg w .bellInit n (bellInitWord b cnt) s = doBellInit w n b cnt s := by
  obtain ⟨hgo, hbell, htok⟩ := bellInitWord_fields b hcnt
  have hwrite : writeReg w .bellInit n (bellInitWord b cnt) s =
      doBellInit w n (bitOf (bellInitWord b cnt) 16) (fld (bellInitWord b cnt) 15 0) s :=
    (if_neg (by simp [writeRefused, starts])).trans (if_pos hgo)
  rw [hwrite, hbell, htok]

end

/-- An accepted write whose work is to submit an operation submits it, and is not yet answered. -/
theorem ctlWrite_submits {s : State} {w : Who} (hs : Running s) (hw : FullView w) (hg : Granted s w) {id : RegId} {i : Nat} {v : Word}
    {o : BellOp} (hi : i < id.size) (hb : id ∉ [.sboxData, .sboxSet, .sboxClr])
    (hwrite : writeReg w id i v (acting s (s.clk + 1)) = withOp (acting s (s.clk + 1)) o) :
    ∃ t, steady s (ctlWrite w id i v) = .next t ∧ Submitted o s t := by
  have hdo := ctlWrite_running hs hw hg hi v (.inr hb)
  rw [timed_write, hwrite] at hdo
  exact ⟨_, steady_eq _ hs.1, (congrArg State.bellOps hdo :), (congrArg State.bells hdo :),
    (congrArg State.answers hdo).trans (List.append_nil _), .of_regs [] (congrArg State.regs hdo :)⟩

/-! ### Reads of TKRES (R380) -/

/-- A take of processor `i` is under way. -/
def takeBusy (s : State) (i : Nat) : Bool := s.bellOps.any fun o => decide (o.kind = .take ∧ o.orig = 288 + i)

theorem doTkresRead_idle (w : Who) {i : Nat} {s : State} (h : takeBusy s i = false) :
    doTkresRead w i s = answerWith s w (rg s .bellTkres i) false := if_neg (ne_true_of_eq_false h)

theorem doTkresRead_busy (w : Who) {i : Nat} {s : State} (h : takeBusy s i = true) :
    doTkresRead w i s = { s with tkHeld := s.tkHeld ++ [⟨w, i⟩] } := if_pos h

/-- An accepted read of TKRES does its work, and its answer completes after the time of its page. -/
theorem tkresRead_runs {s u : State} {w : Who} {i : Nat} (hs : Running s) (hw : FullView w) (hg : Granted s w) (hi : i < 18)
    (h : doTkresRead w i (acting s (s.clk + 1)) = u) :
    ∃ t, exec (.tkresRead w i) s = .next t ∧ t.regs = u.regs ∧ t.tkHeld = u.tkHeld ∧
      t.answers = s.answers ++ u.answers.map fun a => { a with
        due := s.clk + answerTime (RegId.bellTkres.offset i), sub := pageNo (RegId.bellTkres.offset i), write := false } := by
  have hdo : ctlRead w .bellTkres i s = timed (RegId.bellTkres.offset i) (pageNo (RegId.bellTkres.offset i)) false
      (doTkresRead w i) { s with gate := s.clk + 1 } := ctlRead_running hs hw hg hi (.inr (by decide))
  subst h
  exact ⟨_, steady_eq _ hs.1, (congrArg State.regs hdo :), (congrArg State.tkHeld hdo :), (congrArg State.answers hdo :)⟩

/-! ### What follows the operations of an edge (R228, R380) -/

/-- Only the operations under way, the held reads of TKRES and the answers change, and no answer is taken back. -/
def BellRest (s t : State) : Prop := ∃ o h l, t = { s with bellOps := o, tkHeld := h, answers := s.answers ++ l }

theorem BellRest.answered (s : State) (w : Who) (v : Word) : BellRest s (answerWith s w v false) :=
  ⟨_, _, _, answerWith_ok s w v false (.inl rfl)⟩

theorem BellRest.trans {s t u : State} (h1 : BellRest s t) (h2 : BellRest t u) : BellRest s u := by
  obtain ⟨_, _, l, rfl⟩ := h1
  obtain ⟨o, h, m, rfl⟩ := h2
  exact ⟨o, h, l ++ m, by rw [List.append_assoc]⟩

theorem BellRest.waitMet (s : State) : BellRest s (waitMet s) := ⟨_, s.tkHeld, [], by rw [List.append_nil]; rfl⟩

theorem BellRest.releaseTk (s : State) : BellRest s (releaseTk s) :=
  List.foldlRecOn (motive := BellRest s) _ _ ⟨s.bellOps, _, [], by rw [List.append_nil]⟩
    fun t ht h _ => ht.trans (.answered t h.who (rg t .bellTkres h.t))

/-! ### An operation alone at its edge (R376) -/

/-- The operation's edge has come. -/
def bellDue (s : State) (o : BellOp) : Bool := match o.due with | some d => decide (d ≤ s.clk) | none => false

/-- The operations due are off the list. -/
def opsTaken (s : State) : State := { s with bellOps := s.bellOps.filter fun o => !bellDue s o }

theorem doBellComplete_single {s : State} {o : BellOp} (h : s.bellOps.filter (bellDue s) = [o]) :
    doBellComplete s = releaseTk (waitMet (applyOp (opsTaken s) o)) := by
  have hall : doBellComplete s = if ((s.bellOps.filter (bellDue s)).foldl (fun l o => insertOp o l) []).isEmpty then s else
      releaseTk (waitMet (((s.bellOps.filter (bellDue s)).foldl (fun l o => insertOp o l) []).foldl applyOp (opsTaken s))) := rfl
  have hops : (s.bellOps.filter (bellDue s)).foldl (fun l o => insertOp o l) [] = [o] := by
    rw [h]
    rfl
  rw [hall, hops, List.foldl_cons, List.foldl_nil]
  exact if_neg Bool.false_ne_true

/-- What an operation of each kind does outside the safe state. -/
def bellWork : BellKind → State → BellOp → State
  | .ring => applyRing
  | .take => applyTake
  | .wait => applyWait
  | .init => applyInit

theorem applyOp_awake {s : State} {o : BellOp} {k : BellKind} (h : s.safe = false) (hkind : o.kind = k) :
    applyOp s o = bellWork k s o := by
  subst hkind
  refine (if_neg (ne_true_of_eq_false h)).trans ?_
  cases o.kind <;> rfl

/-- What work `u` left on the bells, the registers and the contexts stands in `t`, and its answers are among those of `t`. -/
def BellsLeft (u t : State) : Prop := t.bells = u.bells ∧ t.regs = u.regs ∧ t.ctxs = u.ctxs ∧ ∀ a ∈ u.answers, a ∈ t.answers

/-- The one operation due is applied, and what follows leaves its work. -/
theorem bellComplete_applies {s : State} {o : BellOp} (hs : Within s) (hsafe : s.safe = false)
    (hdue : s.bellOps.filter (bellDue s) = [o]) {k : BellKind} (hkind : o.kind = k) :
    ∃ t, exec .bellComplete s = .next t ∧ BellsLeft (bellWork k (opsTaken s) o) t := by
  obtain ⟨ops, held, l, hrest⟩ := (BellRest.waitMet (applyOp (opsTaken s) o)).trans (.releaseTk _)
  have hdo := (doBellComplete_single hdue).trans hrest
  rw [applyOp_awake (s := opsTaken s) hsafe hkind] at hdo
  exact ⟨_, steady_eq _ hs, (congrArg State.bells hdo :), (congrArg State.regs hdo :), (congrArg State.ctxs hdo :),
    fun a ha => (congrArg State.answers hdo :) ▸ List.mem_append_left l ha⟩

/-! ### The parts of an operation (R374, R385, R389) -/

/-- The tokens that a bell's word reads. -/
def bellTokens (s : State) (b : Nat) : Nat := (bellCount s b).data.toNat % 65536

/-- The state after a read of a bell's word that its code could correct. -/
def bellSeen (s : State) (b : Nat) : State := if (bellCount s b).ce then bump s .bellEcc 0 15 0 else s

theorem readBell_readable {s : State} {b : Nat} (h : (bellCount s b).ue = false) :
    readBell s b = (bellSeen s b, bellTokens s b, false) := by
  simp only [readBell, bellSeen, bellTokens, h, Bool.false_eq_true, if_false]

theorem EventShape.bellSeen (s : State) (b : Nat) : EventShape s (bellSeen s b) := by
  unfold Machine.bellSeen
  split
  · exact .bump _ _ _ _ _ _
  · exact .refl s

theorem rg_bellSeen (s : State) (b : Nat) {id : RegId} {i : Nat} (hi : i < 1048576) (hid : id ≠ .bellEcc) :
    rg (bellSeen s b) id i = rg s id i := by
  unfold bellSeen
  split
  · exact rg_bump_other _ _ _ _ (RegId.key_ne (by decide) hi (.inl hid.symm))
  · rfl

/-- An event leaves the bells, the contexts and the time. -/
theorem EventShape.aroundBells {s t : State} (h : EventShape s t) :
    t.bells = s.bells ∧ t.ctxs = s.ctxs ∧ t.clk = s.clk := by
  obtain ⟨_, _, _, _, rfl⟩ := h
  exact ⟨rfl, rfl, rfl⟩

/-- The record of a mismatch unless one stands, and its pulse where enabled. -/
def mismatchLatched (s : State) (v : Word) : State := if bitOf (rg s .bellMmLast) 31 then s else setRg s .bellMmLast 0 v
def mismatchPulsed (s : State) : State := if bitOf (rg s .bellCtrl) 0 then pulse s 329 else s

theorem scopeCheck_cases (s : State) (b taker scope : Nat) : scopeCheck s b taker scope = s ∨
    ∃ v, scopeCheck s b taker scope = mismatchPulsed (mismatchLatched (bump s .bellMismatch 0 31 0) v) := by
  unfold scopeCheck
  extract_lets
  split
  · exact .inr ⟨_, rfl⟩
  · exact .inl rfl

/-- A scope check reaches neither the bells nor the contexts. -/
theorem scopeCheck_keeps (s : State) (b taker scope : Nat) :
    (scopeCheck s b taker scope).bells = s.bells ∧ (scopeCheck s b taker scope).ctxs = s.ctxs := by
  rcases scopeCheck_cases s b taker scope with h | ⟨v, h⟩ <;> rw [h]
  · exact ⟨rfl, rfl⟩
  · unfold mismatchPulsed mismatchLatched
    simp only [apply_ite State.bells, apply_ite State.ctxs, pulse_bells, pulse_ctxs, setRg_bells, setRg_ctxs, bump_bells, bump_ctxs,
      ite_self, and_self]

/-- The answer of an operation reaches the answers and MGMT.ERR. -/
theorem bellAnswer_keeps (s : State) (o : BellOp) (err : Bool) :
    (bellAnswer s o err).bells = s.bells ∧ (bellAnswer s o err).ctxs = s.ctxs ∧
      RegsKept [(.mgmtErr, 0)] s (bellAnswer s o err) := by
  unfold bellAnswer
  split
  · rename_i w _
    obtain ⟨_, _, hshape⟩ := answerWith_shape s w 0 err
    exact ⟨(congrArg State.bells hshape :), (congrArg State.ctxs hshape :), .answerWith s w 0 err⟩
  · exact ⟨rfl, rfl, .refl _ s⟩

theorem rg_bellAnswer (s : State) (o : BellOp) (err : Bool) {id : RegId} {i : Nat} (hi : i < 1048576) (hid : id ≠ .mgmtErr) :
    rg (bellAnswer s o err) id i = rg s id i := by
  obtain ⟨-, -, hkept⟩ := bellAnswer_keeps s o err
  exact hkept id i hi (List.forall_mem_singleton.mpr (RegId.key_ne (by decide) hi (.inl hid.symm)))

theorem bellAnswer_ok_regs (s : State) (o : BellOp) : (bellAnswer s o false).regs = s.regs := by
  unfold bellAnswer
  split
  · rename_i w _
    exact (congrArg State.regs (answerWith_ok s w 0 false (.inl rfl)) :)
  · rfl

theorem mem_bellAnswer {s : State} {o : BellOp} {w : Who} (h : o.who = some w) (err : Bool) :
    ⟨w, 0, err, s.clk, 0, false, false⟩ ∈ (bellAnswer s o err).answers := by
  rw [bellAnswer, h]
  exact answerWith_answers s w 0 err ▸ List.mem_append_right _ List.mem_cons_self

/-- What a take leaves in TKRES. -/
theorem rg_putTkres (s : State) (o : BellOp) (n : Nat) (taken : Bool) :
    rg (putTkres s o n taken) .bellTkres (o.orig - 288) = BitVec.ofNat 32 (n + 65536 * b2n taken + 2 ^ 31) :=
  rg_setRg_same _ _ _ _

theorem putTkres_bells (s : State) (o : BellOp) (n : Nat) (taken : Bool) : (putTkres s o n taken).bells = s.bells :=
  setRg_bells _ _ _ _

theorem bell_congr {s t : State} (h : t.bells = s.bells) (b : Nat) : t.bell b = s.bell b :=
  congrArg (fun l => Tab.get (fun _ => freshBell) l b) h

theorem ctx_congr {s t : State} (h : t.ctxs = s.ctxs) (a k : Nat) : t.ctx a k = s.ctx a k :=
  congrArg (fun l => Tab.get (fun _ => idleCtx) l (a * 2 + k)) h

@[simp] theorem setCount_ctxs (s : State) (b n : Nat) : (setCount s b n).ctxs = s.ctxs := rfl

theorem bell_setCount_count (s : State) (b n : Nat) : ((setCount s b n).bell b).count = n :=
  congrArg Bell.count (bell_setBell_same s b { s.bell b with count := n })

/-! ### Operations (R375 to R377, R380, R381) -/

/-- The tokens an operation asks for leave its bell, and the taker's scope is checked. -/
def tokensTaken (s : State) (o : BellOp) : State :=
  scopeCheck (setCount (bellSeen s o.bell) o.bell (bellTokens s o.bell - o.n)) o.bell o.orig o.scope

theorem tokensTaken_count (s : State) (o : BellOp) : ((tokensTaken s o).bell o.bell).count = bellTokens s o.bell - o.n :=
  (congrArg Bell.count (bell_congr (scopeCheck_keeps _ _ _ _).1 _)).trans (bell_setCount_count _ _ _)

theorem tokensTaken_ctxs (s : State) (o : BellOp) : (tokensTaken s o).ctxs = s.ctxs := by
  obtain ⟨-, hctxs, -⟩ := (EventShape.bellSeen s o.bell).aroundBells
  rw [tokensTaken, (scopeCheck_keeps _ _ _ _).2, setCount_ctxs, hctxs]

/-- A ring that would pass 65 535 is counted and told to the control fault unit. -/
def ringOverflow (s : State) (o : BellOp) : State :=
  raise (setRf (bump s .bellOvf 0 15 0) .bellOvf 0 26 16 o.bell) fuCtrl 2 o.bell 0 o.task

theorem ringOverflow_shape (s : State) (o : BellOp) : EventShape s (ringOverflow s o) :=
  ((EventShape.bump _ _ _ _ _ _).trans (.setRg _ _ _ _)).trans (.raise _ _ _ _ _ _ _)

/-- An overflow stands in the unit's STAT, and in the count of refused rings. -/
theorem ringOverflow_counts (s : State) (o : BellOp) : bitOf (rg (ringOverflow s o) .fuStat 82) 2 = true ∧
    rf (ringOverflow s o) .bellOvf 0 15 0 = min 65535 (rf s .bellOvf 0 15 0 + 1) := by
  refine ⟨raise_sets _ _ _ _ _ (by decide) (by decide), ?_⟩
  rw [rf, ringOverflow, rg_raise _ _ _ _ _ _ (by decide) (by decide) (by decide), rg_setRf_same,
    fld_setFld_other _ _ _ _ _ _ (.inl (by decide))]
  exact rf_bump_same _ _ _ _ _ _ (by decide) (by decide)

section
variable {s : State} {o : BellOp}

theorem applyInit_sets : (applyInit s o).bell o.bell = ⟨o.n, 0, 0, none, false⟩ :=
  (bell_congr (bellAnswer_keeps _ o false).1 _).trans (bell_setBell_same _ _ _)

variable (hue : (bellCount s o.bell).ue = false)
include hue

theorem applyRing_adds (h : bellTokens s o.bell + o.n ≤ 65535) :
    (applyRing s o).bell o.bell = ⟨bellTokens s o.bell + o.n, o.orig, o.scope, o.task, true⟩ := by
  have hdo : applyRing s o = bellAnswer ((setCount (bellSeen s o.bell) o.bell (bellTokens s o.bell + o.n)).setBell o.bell
      ⟨bellTokens s o.bell + o.n, o.orig, o.scope, o.task, true⟩) o false := by
    unfold applyRing
    rw [readBell_readable hue]
    exact if_neg (Nat.not_lt.mpr h)
  rw [hdo]
  exact (bell_congr (bellAnswer_keeps _ o false).1 _).trans (bell_setBell_same _ _ _)

/-- A refused ring leaves the bells and the contexts; it is counted, told, and answered SLVERR. -/
theorem applyRing_overflows (h : 65535 < bellTokens s o.bell + o.n) :
    (applyRing s o).bells = s.bells ∧ (applyRing s o).ctxs = s.ctxs ∧ bitOf (rg (applyRing s o) .fuStat 82) 2 = true ∧
      rf (applyRing s o) .bellOvf 0 15 0 = min 65535 (rf s .bellOvf 0 15 0 + 1) ∧
      ∀ w, o.who = some w → ⟨w, 0, true, s.clk, 0, false, false⟩ ∈ (applyRing s o).answers := by
  have hdo : applyRing s o = bellAnswer (ringOverflow (bellSeen s o.bell) o) o true := by
    unfold applyRing
    rw [readBell_readable hue]
    exact if_pos h
  obtain ⟨hbells, hctxs, hclk⟩ := ((EventShape.bellSeen s o.bell).trans (ringOverflow_shape _ o)).aroundBells
  obtain ⟨abells, actxs, -⟩ := bellAnswer_keeps (ringOverflow (bellSeen s o.bell) o) o true
  obtain ⟨hstat, hovf⟩ := ringOverflow_counts (bellSeen s o.bell) o
  rw [hdo]
  refine ⟨abells.trans hbells, actxs.trans hctxs, ?stat, ?count, fun w hw => hclk ▸ mem_bellAnswer hw true⟩
  case stat => rw [rg_bellAnswer (id := .fuStat) _ _ _ (by decide) nofun, hstat]
  case count =>
    rw [rf, rf, rg_bellSeen (id := .bellOvf) s o.bell (by decide) nofun] at hovf
    rw [rf, rg_bellAnswer (id := .bellOvf) _ _ _ (by decide) nofun]
    exact hovf

/-- A take that finds its tokens removes them and says so in TKRES. -/
theorem applyTake_takes (h : o.n ≤ bellTokens s o.bell) : ((applyTake s o).bell o.bell).count = bellTokens s o.bell - o.n ∧
    rg (applyTake s o) .bellTkres (o.orig - 288) = BitVec.ofNat 32 (bellTokens s o.bell - o.n + 65536 + 2 ^ 31) := by
  have hdo : applyTake s o = bellAnswer (putTkres (tokensTaken s o) o (bellTokens s o.bell - o.n) true) o false := by
    unfold applyTake
    rw [readBell_readable hue]
    exact if_pos (by simp [h])
  rw [hdo]
  refine ⟨?count, ?result⟩
  case count =>
    rw [bell_congr (bellAnswer_keeps _ o false).1, bell_congr (putTkres_bells _ _ _ _), tokensTaken_count]
  case result => rw [rg_congr (bellAnswer_ok_regs _ o), rg_putTkres, b2n_true, Nat.mul_one 65536]

/-- A take that finds too few leaves the bells and tells the count. -/
theorem applyTake_short (h : bellTokens s o.bell < o.n) : (applyTake s o).bells = s.bells ∧
    rg (applyTake s o) .bellTkres (o.orig - 288) = BitVec.ofNat 32 (bellTokens s o.bell + 2 ^ 31) := by
  have hdo : applyTake s o = bellAnswer (putTkres (bellSeen s o.bell) o (bellTokens s o.bell) false) o false := by
    unfold applyTake
    rw [readBell_readable hue]
    exact if_neg (by simp [h])
  rw [hdo]
  refine ⟨?bells, ?result⟩
  case bells => rw [(bellAnswer_keeps _ o false).1, putTkres_bells, (EventShape.bellSeen s o.bell).aroundBells.1]
  case result => rw [rg_congr (bellAnswer_ok_regs _ o), rg_putTkres, b2n_false, Nat.mul_zero 65536, Nat.add_zero (bellTokens s o.bell)]

/-- A WAIT that finds its tokens removes them, and its context goes on. -/
theorem applyWait_takes {a k : Nat} (h : o.n ≤ bellTokens s o.bell) (hctx : o.ctx = some (a, k)) :
    ((applyWait s o).bell o.bell).count = bellTokens s o.bell - o.n ∧ ((applyWait s o).ctx a k).hold = .none ∧
      ((applyWait s o).ctx a k).pc = (s.ctx a k).pc + 1 := by
  have hdo : applyWait s o = release (tokensTaken s o) a k := by
    unfold applyWait
    rw [readBell_readable hue]
    refine (if_pos (by simp [h])).trans ?_
    rw [hctx]
    rfl
  have hreleased : (release (tokensTaken s o) a k).ctx a k = _ := ctx_setCtx_same _ a k _
  rw [hdo, hreleased, ctx_congr (tokensTaken_ctxs s o)]
  exact ⟨tokensTaken_count s o, rfl, rfl⟩

end

/-! ### The statement -/

/-- Settles O52: the register commands are accepted writes that submit one operation, and an operation alone at its edge is applied to
what its bell's word reads. That a processor's origin is 288 and its number, 306 for the Steward, is the model's choice (log entry
27). -/
theorem bellsCountTokens : Obligations.BellsCountTokens := by
  unfold Obligations.BellsCountTokens
  refine ⟨fun w n scope cnt b s hs hw hg hn hscope hpos => ⟨?ring, ?take, ?init⟩, fun w i s hs hw hg hi => ⟨?idle, ?busy⟩,
    fun o s hs hsafe hdue hue => ?applied⟩
  case ring =>
    exact fun hcnt => ctlWrite_submits hs hw hg hn (by decide) (writeReg_bellRing w n b (acting s (s.clk + 1)) hscope hpos hcnt)
  case take =>
    exact fun hcnt => ctlWrite_submits hs hw hg hn (by decide) (writeReg_bellTake w n b (acting s (s.clk + 1)) hscope hpos hcnt)
  case init =>
    exact fun hcnt => ctlWrite_submits hs hw hg hn (by decide) (writeReg_bellInit w n b (acting s (s.clk + 1)) hcnt)
  case idle =>
    intro hidle
    obtain ⟨t, ht, hregs, -, hans⟩ := tkresRead_runs hs hw hg hi
      ((doTkresRead_idle w (s := acting s (s.clk + 1)) hidle).trans (answerWith_ok _ _ _ _ (.inl rfl)))
    exact ⟨t, ht, .of_regs [] hregs, _, _, hans⟩
  case busy =>
    intro hbusy
    obtain ⟨t, ht, -, hheld, hans⟩ := tkresRead_runs hs hw hg hi (doTkresRead_busy w (s := acting s (s.clk + 1)) hbusy)
    exact ⟨t, ht, hheld, hans.trans (List.append_nil _)⟩
  case applied =>
    have happly := @bellComplete_applies s o hs hsafe hdue
    refine ⟨fun hkind hfits => ?adds, fun hkind hover => ?overflows, fun hkind henough => ?takes, fun hkind hfew => ?short,
      fun hkind henough a k hctx => ?waits, fun hkind => ?sets⟩
    all_goals
      obtain ⟨t, ht, hbells, hregs, hctxs, hans⟩ := happly hkind
      simp only [bellWork] at hbells hregs hctxs hans
    case adds => exact ⟨t, ht, (bell_congr hbells _).trans (applyRing_adds (s := opsTaken s) hue hfits)⟩
    case overflows =>
      obtain ⟨rbells, rctxs, hstat, hovf, hanswer⟩ := applyRing_overflows (s := opsTaken s) hue hover
      refine ⟨t, ht, hbells.trans rbells, ?_, ?_, hctxs.trans rctxs, fun w hw => hans _ (hanswer w hw)⟩
      · exact (congrArg (bitOf · 2) (rg_congr hregs _ _)).trans hstat
      · exact (congrArg (fld · 15 0) (rg_congr hregs _ _)).trans hovf
    case takes =>
      obtain ⟨hcount, htkres⟩ := applyTake_takes (s := opsTaken s) hue henough
      exact ⟨t, ht, (congrArg Bell.count (bell_congr hbells _)).trans hcount, (rg_congr hregs _ _).trans htkres⟩
    case short =>
      obtain ⟨tbells, htkres⟩ := applyTake_short (s := opsTaken s) hue hfew
      exact ⟨t, ht, hbells.trans tbells, (rg_congr hregs _ _).trans htkres⟩
    case waits =>
      obtain ⟨hcount, hhold, hpc⟩ := applyWait_takes (s := opsTaken s) hue henough hctx
      have hnow := ctx_congr hctxs a k
      exact ⟨t, ht, (congrArg Bell.count (bell_congr hbells _)).trans hcount, (congrArg Ctx.hold hnow).trans hhold,
        (congrArg Ctx.pc hnow).trans hpc⟩
    case sets => exact ⟨t, ht, (bell_congr hbells _).trans (applyInit_sets (s := opsTaken s))⟩

end Sys2Proof.Machine
end
